-- ==== Sys2Proof/Word.lean ====
section
/-! DEFINITION. The word types of the TN-880: bytes, register words, 64-bit quantities and vertex keys,
and nothing but their plainest arithmetic. -/
namespace Sys2Proof

/-- One byte of a frame, a structure in host memory or a flash device. -/
abbrev Byte := BitVec 8
/-- A 16-bit quantity: an opcode, an event code, a flow sequence number. -/
abbrev Half := BitVec 16
/-- A register of BAR0: registers are 32 bits wide (chapter 0, Registers). -/
abbrev Word := BitVec 32
/-- A 64-bit quantity split into _LO and _HI registers (R10, R11), or a train time (R5). -/
abbrev Dword := BitVec 64
/-- A 48-bit vertex key or cartridge serial number (R26, Table 17.6). -/
abbrev Key := BitVec 48
/-- Nanoseconds of the model's own clock. -/
abbrev Ns := Nat
/-- A number of Cellar ticks of 1/1024 s (R4). -/
abbrev Ticks := Nat

end Sys2Proof
end

