-- ==== Sys2Proof/Syntax.lean ====
section
/-! DEFINITION. The commands the TN-880 takes from outside, one constructor of `Instr` for each row of the table of
operations and events, with the operands each carries. The operand types come first. The table gives its rows no
operand fields and no bits; which operands a command carries is the model's own (log entry 2). -/
namespace Sys2Proof

/-- A host link: H1 carries Owner and H2 Peer authority (Table 17.1). -/
inductive Link | h1 | h2
  deriving DecidableEq, Repr

/-- A controller cartridge: CT-A sits in row A, CT-B in row B. -/
inductive Ct | a | b
  deriving DecidableEq, Repr

/-- One PCIe endpoint: a link of one controller cartridge (R383). -/
structure Endpoint where
  link : Link
  ct : Ct
  deriving DecidableEq, Repr

/-- A backbone lane. -/
inductive Lane | a | b
  deriving DecidableEq, Repr

/-- An end of the vehicle. -/
inductive End | e1 | e2
  deriving DecidableEq, Repr

/-- A line port LP0 to LP7. -/
abbrev PortNo := Fin 8
/-- A power-line channel PL0, PL1, or a CAN channel CAN0, CAN1. -/
abbrev Chan := Fin 2
/-- A PW-2: 0 in PW-A, 1 in PW-B. -/
abbrev PwNo := Fin 2
/-- A coupling-input pair: 0 CPL1, 1 JMP1, 2 CPL2, 3 JMP2. -/
abbrev PairNo := Fin 4
/-- A slot, numbered as in SYS_SLOT: 0 PW-A, 1 PW-B, 2 CT-A, 3 CT-B, 4 to 7 LP-1 to LP-4, 8 PC, 9 VX, 10 SR. -/
abbrev Slot := Fin 11
/-- A client queue pair number CQP 0 to CQP 1023 (R40). -/
abbrev Cqp := Fin 1024
/-- A completion queue (R410). -/
abbrev CqNo := Fin 16
/-- A BAR0 offset: BAR0 is 1 MiB. -/
abbrev Offset := BitVec 20

/-- The Send or the Receive ring of a CQP. -/
inductive Ring | tx | rx
  deriving DecidableEq, Repr

/-- What the label of a seated cartridge says of it (R19, R657) and, for a CT-8, what it runs (Table 0.8). -/
structure CartInfo where
  serial : Key
  build : Byte
  /-- For a slot LP-1 to LP-4: an LP-2F, not an LP-2G. -/
  lp2f : Bool
  fwMajor : Byte
  fwMinor : Byte
  deriving DecidableEq, Repr

/-- The port on which a management request arrives (Table 17.1). -/
inductive MgmtPort
  | h1
  | h2
  /-- The service port of a CT-8, with the source address of the request (R718, R719). -/
  | sp (ct : Ct) (mac : Key)
  /-- A class M management frame from vertex `src` on a lane port. -/
  | lane (port : PortNo) (src : Key)
  /-- A management frame from vertex `src` over a power-line channel. -/
  | powerLine (chan : Chan) (src : Key)
  deriving DecidableEq, Repr

/-- One management request: its port of arrival, its TAG and its body (Table 9.10). Where a row of the table stands for
one value of a body byte (a TARGET, an ACTION), that byte is the row's own and `body` holds the others in order. -/
structure Req where
  port : MgmtPort
  tag : Half
  body : List Byte
  deriving DecidableEq, Repr

/-- A cause of a link reset (R386). -/
inductive ResetCause | perst | dlDown | flr | busMasterCleared
  deriving DecidableEq, Repr

/-- A write to an endpoint's configuration space (R385, R388, R397). -/
structure CfgWrite where
  aspmL1 : Bool
  d3hot : Bool
  atomicOpRequester : Bool
  memorySpace : Bool
  busMaster : Bool
  /-- Max_Payload_Size and Max_Read_Request_Size in bytes (R384). -/
  maxPayload : Nat
  maxReadRequest : Nat
  deriving DecidableEq, Repr

/-- What the reflectometry of a cable test finds on one pair (Table 5.5a), with the distance in metres, none beyond 150 m (R241). -/
inductive PairResult
  | normal
  | opened (m : Option (Fin 151))
  | shorted (m : Option (Fin 151))
  | crossed (m : Option (Fin 151))
  | mismatch (m : Option (Fin 151))
  | partner
  deriving DecidableEq, Repr

/-- The resistance of each strap pin to STRAP_REF, in ohms (R58). -/
structure StrapReading where
  psel0 : Nat
  psel1 : Nat
  plock : Nat
  deriving DecidableEq, Repr

/-- A record as it stands in the MRAM of an SR-1 (Table 18.3). -/
structure Rec where
  /-- Byte offset in MRAM. -/
  off : Nat
  code : Half
  deferred : Bool
  perm : Bool
  fatal : Bool
  /-- SUPP_COUNT, and SUPP = 1 when it is not `none`. -/
  supp : Option Half
  payload : List Byte
  seq : Word
  /-- The MARK matches the SEQ (R667). -/
  valid : Bool
  deriving DecidableEq, Repr

/-- One segment of the MRAM: the permanent area or a detail segment (R671). -/
structure Segment where
  /-- A header has been written. -/
  used : Bool
  gen : Word
  firstSeq : Word
  /-- Bytes in use, the 64-byte header included. -/
  fill : Nat
  recs : List Rec
  deriving DecidableEq, Repr

/-- The SR-1 cartridge: what its MRAM holds (Table 18.1). -/
structure Sr1 where
  serial : Key
  nextSeq : Word
  perm : Segment
  detail : List Segment
  /-- Current detail segment, 0 to 6. -/
  cur : Nat
  /-- The SEQ space is used up (R669). -/
  seqEnd : Bool
  deriving DecidableEq, Repr

/-- A frame received on a service port (R718). -/
structure SpFrame where
  dst : Key
  src : Key
  etherType : Half
  payload : List Byte
  deriving DecidableEq, Repr

/-- A flash device on which one erase or program runs at a time (R650). -/
inductive FlashDev | ids | fw (ct : Ct)
  deriving DecidableEq, Repr

/-- A flow: source vertex key, source client and 12-bit flow label (Table 0.4). -/
structure FlowId where
  key : Key
  cqp : BitVec 10
  label : BitVec 12
  deriving DecidableEq, Repr

/-- The speed of a port's link (Table 5.8): down, 10 Mbit/s, 100 Mbit/s, 1 Gbit/s. -/
inductive LinkSpeed | down | s10 | s100 | s1000
  deriving DecidableEq, Repr

/-- What a line port receives. -/
inductive RxItem
  /-- A frame without its FCS, whether its FCS is good, whether it was whole octets and without a PHY error (Table 5.4). -/
  | frame (bytes : List Byte) (fcsOk wholeOctets symbolErr : Bool)
  /-- A verify or a respond mPacket (R270). -/
  | verify
  | respond
  /-- One 802.3br mPacket that carries part of a frame (R269, R275): SMD-S (start) or SMD-C, the frame count of its SMD, the
  fragment count behind an SMD-C, its bytes, and the four check bytes behind them, an mCRC or the frame's FCS. -/
  | fragment (start : Bool) (frameCnt fragCnt : BitVec 2) (bytes : List Byte) (check : Word)
  /-- A gPTP Sync from the port's time source: the measured offset of this vertex from it in ns, whether its time has been set
  and whether its grandmaster has stepped since the Sync before (R187 to R190); the frame itself is 802.1AS and not the spec's. -/
  | gptpSync (bytes : List Byte) (offset : Int) (timeValid stepped : Bool)
  /-- A gPTP Announce, in interop mode (R195): the grandmaster's priority1, and whether it is better than this node where both
  have the same priority1, as the BMCA of 802.1AS compares them. -/
  | gptpAnnounce (bytes : List Byte) (priority1 : Byte) (betterTie : Bool)
  /-- A TTDP HELLO (R141). -/
  | hello (bytes : List Byte)
  /-- A TTDP TOPOLOGY, with what the ETB inauguration of the standard makes of it (R143, R145): the topology counter, the ETB
  nodes in numbering order, each with its address (a vertex key where it is a TN-880, marked true), and this vehicle's end that
  faces node 1. No nodes: an inauguration is under way. -/
  | topology (bytes : List Byte) (counter : Word) (nodes : List (Key × Bool)) (facing : End)
  deriving DecidableEq, Repr

/-- What the sense path of a power-line channel measures (Table 7.4): rms AC volts, frequency in 10 mHz, DC volts, THD in
0.1 % steps. -/
structure LineMeas where
  acVolts : Nat
  freq : Nat
  dcVolts : Nat
  thd : Nat
  deriving DecidableEq, Repr

/-- One RS codeword of a decoded block: its 223 data bytes still scrambled, and how many bytes RS corrected, none where
it could not (R311, R312). -/
structure CodewordRx where
  data : List Byte
  corrected : Option Nat
  deriving DecidableEq, Repr

/-- The payload of a data or sounding frame as a station decodes it (R311, R313, R316, R317, R324). -/
inductive PlcRx
  /-- A slice of a block; `block` holds the codewords once every slice of it is there. -/
  | slice (block : Option (List CodewordRx))
  /-- A sounding frame: received level in 0.5 dB steps of dBµV, and SNR in dB, by tone. -/
  | sounding (level : List Nat) (snr : List Nat)
  /-- A control message in a block of its own: a tone map for this neighbour, a request to sound, a link-quality report. -/
  | tmRsp (body : List Byte)
  | tmReq
  | report (body : List Byte)
  deriving DecidableEq, Repr

/-- A CAN frame on a bus (Table 8.2): identifier form, remote, FD, identifier, BRS, ESI, DLC and data, and how long ago its
start-of-frame bit passed. -/
structure CanRx where
  ide : Bool
  rtr : Bool
  fdf : Bool
  id : BitVec 29
  brs : Bool
  esi : Bool
  dlc : BitVec 4
  data : List Byte
  sofAgo : Ns
  deriving DecidableEq, Repr

/-- What a PW-2 meters and shows (Table 12.12): frequency in 10 mHz, voltages in 0.1 V, current in 10 mA, powers in 0.1 W,
bank energy in J and the four lifetime totals in J. -/
structure PwMeas where
  mainsFreq : Half
  mainsV : BitVec 12
  battI : BitVec 12
  battV : BitVec 12
  energy : Nat
  inPower : BitVec 10
  outPower : BitVec 10
  eMains : Dword
  eBatt : Dword
  eBank : Dword
  eOut : Dword
  deriving DecidableEq, Repr

/-- A wake source of Table 13.8 that has no command of its own: a host resume on an endpoint's link, link energy on a service
port, a line port, a power-line or CAN channel, an input pair, the sleep agreement. -/
inductive WakeSource
  | host (ep : Endpoint)
  | sp (ct : Ct)
  | eth (port : PortNo)
  | plc (ch : Chan)
  | can (ch : Chan)
  | input (pair : PairNo)
  | timer
  | train
  deriving DecidableEq, Repr

/-- What the passage from OFF to CELLAR finds (Table 13.4): whether both crystals run, the straps that settled, each pin's
resistance or none, whether HOST_PRSNT# is low on each row. -/
structure CellarMeas where
  crystals : Bool
  psel0 : Option Nat
  psel1 : Option Nat
  plock : Option Nat
  prsntA : Bool
  prsntB : Bool
  deriving DecidableEq, Repr

/-- A `plc_cal_zc` request, with what the sense path measures as it arrives (R298). -/
structure CalReq where
  req : Req
  line : LineMeas
  deriving DecidableEq, Repr

/-- The frame control bits of a frame, and when the first sample of its SYNC came (R336). -/
structure PlcHead where
  fc : BitVec 121
  syncAt : Ns
  deriving DecidableEq, Repr

/-- A received Urgent frame: frame control and payload bits (R308). -/
structure UrgentRx where
  fc : BitVec 121
  payload : BitVec 249
  deriving DecidableEq, Repr

/-- A frame received in the data part of a window: frame control bits and what its symbols carry (R310, R313). -/
structure DataRx where
  fc : BitVec 121
  payload : PlcRx
  deriving DecidableEq, Repr

/-- The generation and width a link has trained to, as HIF_STATUS codes them (Table 9.13). -/
structure LinkWidth where
  gen : Fin 4
  width : Fin 3
  deriving DecidableEq, Repr

/-- The requests at an arbiter decision: those raised now, and at each earlier moment since the last decision, oldest first (R437). -/
structure ArbRequests where
  raised : List (BitVec 16)
  now : BitVec 16
  deriving DecidableEq, Repr

/-- A mains input below 60 V, and for how long it has been (Table 12.2). -/
structure MainsLow where
  pw : PwNo
  below : Ns
  deriving DecidableEq, Repr

/-- A check of an input: its voltage in 0.1 V, and on mains the length of the half-cycle (R488, R494). -/
structure InputReading where
  volts : Int
  half : Ns
  deriving DecidableEq, Repr

/-- The commands of the TN-880: one constructor for each row of the table of operations and events. -/
inductive Instr
  -- Scope and Conventions; The Unit, Its Cartridges and the Harness Panel
  | writeLo (ep : Endpoint) (off : Offset) (v : Word)
  | writeHi (ep : Endpoint) (off : Offset) (v : Word)
  | readLo (ep : Endpoint) (off : Offset)
  | readHi (ep : Endpoint) (off : Offset)
  | misalignedAccess (ep : Endpoint) (isWrite : Bool) (off : Offset) (width : Nat)
  | registerWrite (ep : Endpoint) (off : Offset) (v : Word)
  | makerRangeAccess (ep : Endpoint) (isWrite : Bool) (low : Half)
  | locateWrite (ep : Endpoint) (v : Word)
  | locateExpiry
  | bypassDrivePulse (lane : Lane)
  | bypassHoldExpiry (lane : Lane)
  | bypassMonitorFault (lane : Lane) (bridged : Bool)
  | cartridgeSeated (slot : Slot) (info : CartInfo)
  | cartridgeUnseated (slot : Slot)
  | strapReread (r : StrapReading)
  | foreignVoltageDetected (port : PortNo) (pairs : BitVec 4)
  | foreignVoltageCleared (port : PortNo)
  | reversedBattery (pw : PwNo)
  -- Inauguration and Renumbering (Rolavo)
  | spanSweepSend (port : PortNo)
  | neighbourAccept (e : End)
  | spanInputDisagree (e : End)
  | neighbourLoss (e : End)
  | lossDecision (e : End)
  | holdExpiry (e : End)
  | corroborationCheck (e : End)
  | plcOnlyJoin (chan : Chan)
  | deferredSweepOriginate
  | renumberBackoffExpiry
  | epochSwitch
  | cycleLengthChange
  | gatherTimeout
  | pendingTimeout
  | staleGraceEnd
  | foreignHelloConfirm (port : PortNo)
  | interopExit
  | rlvQuery (req : Req)
  | rlvPinReference (req : Req)
  -- Backbone Lanes, Forwarding and Train Time
  | portFrameReceived (port : PortNo) (item : RxItem)
  | reorderHoldExpiry (flow : FlowId)
  | rxFlowAgeOut (flow : FlowId)
  | txFlowAgeOut (flow : FlowId)
  | classUOriginate (lane : Lane)
  | classURelease (lane : Lane) (outbound : Bool)
  | lossOfSignal (port : PortNo)
  | spanUp (lane : Lane) (e : End)
  | syncLoss
  | bbnTimeSet (req : Req)
  | timeSetStep
  | timeSetSettleTimeout (settled : Bool)
  | timeSetRequestTimeout
  -- Line Ports
  | linkUp (port : PortNo) (speed : LinkSpeed) (mdix master parDet : Bool)
  | linkDown (port : PortNo)
  | speedChangeAbort (port : PortNo)
  | speedChangeRetry (port : PortNo)
  | speedChangeOverdue (port : PortNo)
  | lpSpeedRestore (req : Req)
  | speedRestoreCycle (lane : Lane)
  | wakePatternMatch (port : PortNo) (bytes : List Byte) (fcsOk : Bool)
  | lpCableTest (req : Req)
  /-- The next pairs of a cable test are finished, from pair A on: the test ends with pair D. -/
  | cableTestDone (port : PortNo) (first : PairResult) (more : List PairResult)
  -- Traffic Classes, Gates, Preemption and Pause
  | egressStart (port : PortNo)
  | gateEntryChange (port : PortNo)
  | verifyWaitExpiry (port : PortNo)
  | laneVerifyRetry (port : PortNo)
  | pauseExpiry (port : PortNo)
  | xoffRepeat (port : PortNo)
  | pauseStorm (port : PortNo)
  | pauseStormEnd (port : PortNo)
  -- The Power-Line Channel
  | plcSenseEnd (ch : Chan) (m : LineMeas)
  | plcRampPull (ch : Chan)
  | plcAttachRetry (ch : Chan)
  | plcRampEnd (ch : Chan)
  | plcRelayClosed (ch : Chan)
  | plcLockEnd (ch : Chan)
  | plcListenEnd (ch : Chan)
  | plcLineLost (ch : Chan)
  | plcNothingDecoded (ch : Chan)
  | plcDetach (req : Req)
  | plcAttachAgain (req : Req)
  | zeroCrossing (ch : Chan) (measured : Ns) (m : LineMeas)
  | plcCalZc (req : CalReq)
  | calZcDone (ch : Chan) (delayUs : BitVec 20) (thdReached lineLost : Bool)
  | plcWindowStart (ch : Chan) (asserted : List (BitVec 7))
  | urgentFrameReceived (ch : Chan) (f : UrgentRx)
  | beaconReceived (ch : Chan) (head : PlcHead) (body : List Byte)
  | beaconLossWait (ch : Chan)
  | dataFrameReceived (ch : Chan) (f : DataRx)
  | soundingSend (ch : Chan)
  | stationSilenceExpiry (ch : Chan) (stn : BitVec 7)
  | joinReceived (ch : Chan) (fc : BitVec 121) (key : Key) (flags : Byte)
  | pollReceived (ch : Chan) (fc : BitVec 121) (syncAt : Ns)
  -- Vehicle I/O
  | canDescriptorLoad (ch : Chan) (stores : List Host.Cell)
  | canFrameSent (ch : Chan) (sofAgo : Ns)
  | canTxTimeout (ch : Chan) (buf : Fin 3)
  | canFrameReceived (ch : Chan) (f : CanRx) (stores : List Host.Cell)
  | canBusError (ch : Chan) (tecAdd recAdd : Nat)
  | canBusoffRecovered (ch : Chan)
  | vxCanRecover (req : Req)
  | canBusDominant (ch : Chan)
  | canBusFaultClear (ch : Chan)
  | debounceChange (pair : PairNo) (chB : Bool) (volts : List Int)
  | pairUnknown (pair : PairNo)
  | pairAgreeAgain (pair : PairNo)
  | out0DrivePulse
  | out0HoldExpiry
  | healthCondition (cond : Fin 8)
  | out1PulseEnd
  | vxContactTest (req : Req)
  | contactTestEnd (out1 : Bool)
  -- Host Interface, Rings and Doorbells
  | urgentPoll (link : Link) (stores : List Host.Cell)
  | generalPoll (link : Link) (stores : List Host.Cell)
  | scanPoll (link : Link) (urgent : Bool) (stores : List Host.Cell)
  | descriptorFetch (link : Link) (cqp : Cqp) (stores : List Host.Cell)
  | receiveDescriptorFetch (link : Link) (cqp : Cqp) (stores : List Host.Cell)
  | receiveDelivery (link : Link) (cqp : Cqp)
  | rxwaitExpiry (link : Link) (cqp : Cqp)
  | completionWrite (cq : CqNo) (stores : List Host.Cell)
  | cqFullRecheck (cq : CqNo) (stores : List Host.Cell)
  | moderationTimer (cq : CqNo)
  | linkReset (ep : Endpoint) (cause : ResetCause)
  | linkL0Reached (ep : Endpoint) (trained : LinkWidth) (prsnt : Bool)
  | cqEnable (ep : Endpoint) (cq : CqNo) (v : Word)
  | mgmtEnable (ep : Endpoint) (v : Word)
  | mgmtItemDelivery (link : Link)
  | ringStart (req : Req)
  | ringStop (req : Req)
  | ringStopDone (link : Link) (cqp : Cqp)
  | ringReset (req : Req)
  | hostReadFail (link : Link) (cqp : Cqp) (ring : Ring) (descRead : Bool)
  | summaryReadFail (link : Link)
  -- Contention, Arbitration and Admission
  | arbiterDecision (requests : ArbRequests) (accept : BitVec 16) (withdrawn : Bool)
  | arbSettingsWrite (ep : Endpoint) (isClass : Bool) (v : Word)
  -- The Remote Register Window
  | rrwRead (req : Req)
  | rrwWrite (req : Req)
  | rrwLock (req : Req)
  | rrwUnlock (req : Req)
  | rrwTimeout (reqId : Half)
  | leaseExpiry
  -- Supply, Battery and Hold-Up
  | mainsLost (low : MainsLow)
  | batteryLost (pw : PwNo) (volts : Int)
  | battOvClear (pw : PwNo)
  | mainsInvalid (pw : PwNo)
  | handoverDone (pw : PwNo)
  | inputQualified (pw : PwNo) (batt : Bool) (reading : InputReading)
  | handbackSpacingEnd (pw : PwNo)
  | handbackDone (pw : PwNo)
  | loadShareUnequal (pw : PwNo) (share : Nat)
  | bankEmpty
  | rideSUpdate (a b : PwMeas) (load : Nat)
  | bankFull (pw : PwNo) (cap : Option Nat)
  | pwrBankTest (req : Req)
  | bankTestDone (pw : PwNo) (cap : Nat)
  | outputFault (pw : PwNo)
  -- Power States, Cellar and Attic
  | railUp
  | cellarStepEnd (m : CellarMeas)
  | railFall
  | crystalFault (ppm : Half) (stopped : Bool)
  | wakeCauseRaised (src : WakeSource)
  | riseEnergyOk
  | riseStepEnd (prsntA prsntB : Bool)
  | fallStepEnd
  | stepFail
  | riseRetry
  | powerRequestRun (req : Req)
  | powerRequestCellar (req : Req)
  | cellarTimerExpiry
  | lastGaspStepEnd
  -- Energy and Heat Budget Scheduling
  | budgetEvaluate (tChassis tCx2 : Byte) (load : Nat)
  | budgetRiseHoldEnd
  | loadOverrun
  | heatOff
  | budgetLimitSet (req : Req)
  | budgetLimitClear (req : Req)
  | hostCapExpiry
  -- Network Sleep, Wake and Isolation
  | keepaliveSend
  | kaSilence
  | sleepNoticeCompute
  | sleepInstant
  | sleepCommandHold (req : Req)
  | sleepCommandRelease (req : Req)
  | sleepCommandSleep (req : Req)
  | sleepCommandAwake (req : Req)
  | sleepCommandWake (req : Req)
  | wakeSendEnd
  | plcWakeHeard (ch : Chan) (after : Ns)
  | localWakeTimeout
  -- Redundancy, Hot Swap and Recovery
  | heartbeatSend
  | heartbeatReceived (yield : Bool)
  | activeFaultDetected
  | tokenSilence
  | takeoverStepEnd (storesH1 storesH2 : List Host.Cell)
  | heartbeatLoss
  | standbyJoinStepEnd
  | standbyFail
  | standbyRejoinRetry
  | redSwitchover (req : Req)
  | leverFirstDetent (slot : Slot)
  | leverPushedBack (slot : Slot)
  | redReleaseRequest (req : Req)
  | redReleaseCancel (req : Req)
  | removalPrepEnd (slot : Slot)
  | viewDisagree (unit : Fin 15)
  | viewAgree (unit : Fin 15)
  | configStage (req : Req)
  | configCommit (req : Req)
  | configCommitForce (req : Req)
  | configDiscard (req : Req)
  | configSetApply
  | forcedItemApply
  | forcedItemTimeout
  -- Port Authority, Profiles and the Identity Store
  | profileSelect (req : Req)
  | idsRead (req : Req)
  | idsErase (req : Req)
  | idsProgram (req : Req)
  | fwErase (req : Req)
  | fwProgram (req : Req)
  | flashOpDone (dev : FlashDev) (readBackOk : Bool)
  | fwActivateTrial (req : Req)
  | fwActivateCommit (req : Req)
  | fwActivateRevert (req : Req)
  | trialStartFail (ct : Ct)
  -- The Store Room and the Usage Ledger
  | recordCommit
  | tokenRefill (code : Half)
  | timeMarkPeriod
  | sr1Ready (content : Option Sr1)
  | srRead (req : Req)
  | ledgerBoundary
  | ldgCfgWrite (ep : Endpoint) (v : Word)
  | intervalCopy
  -- Commissioning, Field Diagnosis and Return
  | spFrameReceived (ct : Ct) (f : SpFrame)
  | spReassemblyTimeout (ct : Ct)
  | spSessionClose (ct : Ct) (linkDown : Bool)
  | redFreeze (req : Req)
  | capsuleEnd (storesH1 storesH2 : List Host.Cell) (failed : List Nat)
  -- Further rows at the table's end
  | plcLineClassChange (ch : Chan) (m : LineMeas)
  | forcedOrderWaitExpiry
  | configSpaceWrite (ep : Endpoint) (w : CfgWrite)
  | pmeTurnOff (ep : Endpoint)
  deriving DecidableEq, Repr

end Sys2Proof
end

