-- ==== Sys2Proof/Decode.lean ====
section
/-! DEFINITION. The decoder of the table's words. Table 95 lists operations and events; none of its rows has an operand field or
a bit, so no word spells a command. -/
namespace Sys2Proof

/-- The command a word of the table's bits spells: none, for no row has bits. -/
def decodeTableWord (_nbits _w : Nat) : Option Instr := none

end Sys2Proof
end

