-- ==== Sys2Proof/Machine/Bytes.lean ====
section
/-! DEFINITION. Byte order, bit fields and check values: the helpers every layout of the spec is written with.
R6 to R8 fix the orders: bit 0 is the least significant bit, host structures are little-endian, frames are sent
most significant byte first. -/
namespace Sys2Proof.Machine

/-- The `n` bytes of `v`, least significant byte first (R7). -/
def toLE : Nat → Nat → List Byte
  | 0, _ => []
  | n + 1, v => BitVec.ofNat 8 v :: toLE n (v / 256)

/-- The `n` bytes of `v`, most significant byte first (R8). -/
def toBE (n v : Nat) : List Byte := (toLE n v).reverse

/-- The number that little-endian bytes spell (R7). -/
def ofLE : List Byte → Nat
  | [] => 0
  | b :: bs => b.toNat + 256 * ofLE bs

/-- The number that bytes sent most significant first spell (R8). -/
def ofBE (bs : List Byte) : Nat := ofLE bs.reverse

/-- Bytes `off` to `off + n - 1` of a byte list. -/
def slice (bs : List Byte) (off n : Nat) : List Byte := (bs.drop off).take n

/-- The little-endian number in bytes `off` to `off + n - 1`. -/
def leAt (bs : List Byte) (off n : Nat) : Nat := ofLE (slice bs off n)

/-- The number in bytes `off` to `off + n - 1`, most significant byte first. -/
def beAt (bs : List Byte) (off n : Nat) : Nat := ofBE (slice bs off n)

/-- Byte `i` of a list, 0 past its end. -/
def byteAt (bs : List Byte) (i : Nat) : Nat := (bs.getD i 0).toNat

/-- Field `[lo + width - 1 : lo]` of a number (R6). -/
def bitsOf (v lo width : Nat) : Nat := v / 2 ^ lo % 2 ^ width

/-- Bit `i` of a number (R6). -/
def bitOf (v i : Nat) : Bool := v / 2 ^ i % 2 == 1

/-- Field `[lo + width - 1 : lo]` of a register word (R6). -/
def fieldOf (w : Word) (lo width : Nat) : Nat := bitsOf w.toNat lo width

/-- Bit `i` of a register word (R6). -/
def flagOf (w : Word) (i : Nat) : Bool := bitOf w.toNat i

/-- A number placed in field `[lo + width - 1 : lo]`, the other bits 0. -/
def putBits (lo width v : Nat) : Nat := v % 2 ^ width * 2 ^ lo

/-- A Boolean placed in bit `i`. -/
def putBit (i : Nat) (b : Bool) : Nat := if b then 2 ^ i else 0

/-- The low 32 bits of a number, as a register word. -/
def word (v : Nat) : Word := BitVec.ofNat 32 v

/-- 1 for true and 0 for false. -/
def bit (b : Bool) : Nat := if b then 1 else 0

/-- The low word of a 64-bit quantity: the _LO half (R10). -/
def lo32 (d : Dword) : Word := word (d.toNat % 2 ^ 32)

/-- The high word of a 64-bit quantity: the _HI half (R10). -/
def hi32 (d : Dword) : Word := word (d.toNat / 2 ^ 32)

/-- The 64-bit quantity of two halves (R10). -/
def join64 (hi lo : Word) : Dword := BitVec.ofNat 64 (hi.toNat * 2 ^ 32 + lo.toNat)

/-- The low word of a 48-bit key. -/
def keyLo (k : Key) : Word := word (k.toNat % 2 ^ 32)

/-- The high half of a 48-bit key, in bits [15:0]. -/
def keyHi (k : Key) : Word := word (k.toNat / 2 ^ 32)

/-- The key that two numbers spell. -/
def mkKey (v : Nat) : Key := BitVec.ofNat 48 v

/-- A number lies in a range. -/
def inRange (lo hi v : Nat) : Bool := decide (lo ≤ v) && decide (v ≤ hi)

/-- A number saturated at `m`. -/
def sat (m v : Nat) : Nat := if v ≤ m then v else m

/-- The two's complement of an integer in `n` bits, as a number. -/
def twos (n : Nat) (v : Int) : Nat := (v % (2 ^ n : Nat)).toNat

/-- One step of a check value of `w` bits, most significant bit first, over one data bit. -/
def crcBit {w : Nat} (poly acc : BitVec w) (b : Bool) : BitVec w :=
  if acc.msb != b then (acc <<< 1) ^^^ poly else acc <<< 1

/-- The bits of a byte, most significant first. -/
def bitsMsb (b : Byte) : List Bool := (List.range 8).map fun i => b.getLsbD (7 - i)

/-- The bits of a byte, least significant first. -/
def bitsLsb (b : Byte) : List Bool := (List.range 8).map fun i => b.getLsbD i

/-- CRC-16 of the header check HCHK: polynomial 0x1021, initial value 0xFFFF (chapter 4, Table 4.1). -/
def crc16 (bs : List Byte) : Half :=
  bs.foldl (fun acc b => (bitsMsb b).foldl (crcBit (0x1021 : Half)) acc) 0xFFFF

/-- CRC-8 with polynomial 0x07 and initial value 0, of the power-line frame control (chapter 7). -/
def crc8 (bs : List Byte) : Byte :=
  bs.foldl (fun acc b => (bitsMsb b).foldl (crcBit (0x07 : Byte)) acc) 0

/-- One data bit into a reflected 32-bit check register, with the polynomial reflected. -/
def crc32Bit (poly acc : Word) (b : Bool) : Word := if acc.getLsbD 0 != b then (acc >>> 1) ^^^ poly else acc >>> 1

/-- A reflected 32-bit check value over bytes: initial value and final XOR 0xFFFF_FFFF. -/
def crc32Of (poly : Word) (bs : List Byte) : Word :=
  (bs.foldl (fun acc b => (bitsLsb b).foldl (crc32Bit poly) acc) 0xFFFFFFFF) ^^^ 0xFFFFFFFF

/-- The frame check sequence of Ethernet, CRC-32 with polynomial 0x04C11DB7, as the number its four bytes spell least significant
first. -/
def fcs (bs : List Byte) : Word := crc32Of 0xEDB88320 bs

/-- The mCRC behind a fragment that is not a frame's last: the check sequence over the frame's bytes so far, its last two bytes inverted
(R269, IEEE 802.3br; PRESUMED, log entry 70). -/
def mcrc (bs : List Byte) : Word := fcs bs ^^^ 0xFFFF0000

/-- CRC-32C over bytes, as R110 states it: polynomial 0x1EDC6F41, reflected input and output, initial value and final XOR
0xFFFF_FFFF. -/
def crc32c (bs : List Byte) : Word := crc32Of 0x82F63B78 bs

/-- The 16-bit one's complement sum of big-endian 16-bit words, an odd last byte padded with 0 (chapter 5, R224). -/
def onesSum : List Byte → Nat → Nat
  | [], acc => acc
  | [b], acc => (acc + b.toNat * 256) % 65535
  | a :: b :: rest, acc => onesSum rest ((acc + a.toNat * 256 + b.toNat) % 65535)

/-- A table of values by number, for sparse data. -/
abbrev Tab (α : Type) := List (Nat × α)

/-- The entry of key `k`, or `d` where the table lists none. -/
def Tab.getD {α : Type} (d : α) (k : Nat) : Tab α → α
  | [] => d
  | (i, v) :: rest => if i = k then v else Tab.getD d k rest

/-- The entry of key `k`. -/
def Tab.find {α : Type} (k : Nat) : Tab α → Option α
  | [] => none
  | (i, v) :: rest => if i = k then some v else Tab.find k rest

/-- The table with entry `k` set to `v`; keys stay rising. -/
def Tab.put {α : Type} (k : Nat) (v : α) : Tab α → Tab α
  | [] => [(k, v)]
  | (i, x) :: rest =>
    if k < i then (k, v) :: (i, x) :: rest
    else if k = i then (k, v) :: rest
    else (i, x) :: Tab.put k v rest

/-- The table without entry `k`. -/
def Tab.erase {α : Type} (k : Nat) : Tab α → Tab α
  | [] => []
  | (i, x) :: rest => if i = k then rest else (i, x) :: Tab.erase k rest

/-- Item `i` of a list replaced. -/
def setAt {α : Type} (l : List α) (i : Nat) (v : α) : List α := l.set i v

/-- The last `n` items of a list. -/
def lastN {α : Type} (n : Nat) (l : List α) : List α := l.drop (l.length - n)

end Sys2Proof.Machine
end

