-- ==== Sys2Proof/Machine/Checksums.lean ====
section
/-! DEFINITION. The checksum engine of the line ports: inserting (R224, R225) and checking (R226) IPv4, UDP and TCP checksums of
raw frames. -/
namespace Sys2Proof.Machine

/-- Where the network header starts and its EtherType, after up to two VLAN tags. -/
def netHeader (b : List Byte) : Nat × Nat :=
  let tag := fun (t : Nat) => t == 0x8100 || t == 0x88A8
  let t0 := beAt b 12 2
  if tag t0 then
    let t1 := beAt b 16 2
    if tag t1 then (22, beAt b 20 2) else (18, t1)
  else (14, t0)

/-- What the engine found in a frame: the IPv4 header, and the UDP or TCP segment with its pseudo-header sum. -/
structure Parsed where
  /-- IPv4 header: offset and length. -/
  ip : Option (Nat × Nat)
  /-- Segment: offset, length, checksum offset within it, UDP, one's complement sum of the pseudo-header. -/
  l4 : Option (Nat × Nat × Nat × Bool × Nat)
  /-- The frame holds the whole of its IP length. -/
  whole : Bool
  /-- It ends within its IP header, which names UDP or TCP and no fragment. -/
  cut : Bool

/-- The frame as the engine parses it. A fragment or another protocol has no segment (R225). -/
def parseIp (b : List Byte) : Parsed :=
  let n := netHeader b
  let o := n.1
  let none_ : Parsed := ⟨none, none, true, false⟩
  let named := fun (proto : Nat) => proto == 17 || proto == 6
  let seg := fun (proto off len : Nat) (addrs : List Byte) =>
    if proto = 17 && 8 ≤ len then some (off, len, 6, true, (onesSum addrs 0 + 17 + len) % 65535)
    else if proto = 6 && 20 ≤ len then some (off, len, 16, false, (onesSum addrs 0 + 6 + len) % 65535)
    else none
  if n.2 = 0x0800 && o + 20 ≤ b.length then
    let ihl := byteAt b o % 16 * 4
    let total := beAt b (o + 2) 2
    let frag := beAt b (o + 6) 2 % 0x4000
    if byteAt b o / 16 ≠ 4 || ihl < 20 then none_
    else if b.length < o + ihl then ⟨none, none, false, named (byteAt b (o + 9)) && frag == 0⟩
    else
      ⟨some (o, ihl),
        if frag ≠ 0 || total < ihl then none
        else seg (byteAt b (o + 9)) (o + ihl) (total - ihl) (slice b (o + 12) 8),
        decide (o + total ≤ b.length), false⟩
  else if n.2 = 0x86DD && o + 40 ≤ b.length then
    let pay := beAt b (o + 4) 2
    ⟨none, seg (byteAt b (o + 6)) (o + 40) pay (slice b (o + 8) 32), decide (o + 40 + pay ≤ b.length), false⟩
  else if n.2 = 0x86DD then ⟨none, none, false, named (byteAt b (o + 6))⟩
  else none_

/-- Two bytes of a frame replaced, most significant first. -/
def putWord (b : List Byte) (off v : Nat) : List Byte := b.take off ++ toBE 2 v ++ b.drop (off + 2)

/-- The checksum of a sum taken modulo 65,535 of words that are not all 0: its one's complement. -/
def csumOf (sum : Nat) : Nat := if sum % 65535 = 0 then 0 else 65535 - sum % 65535

/-- The IPv4 header checksum inserted; second: not possible. -/
def insertIp (b : List Byte) : List Byte × Bool :=
  match (parseIp b).ip with
  | some (o, ihl) =>
    let z := putWord b (o + 10) 0
    (putWord b (o + 10) (csumOf (onesSum (slice z o ihl) 0)), false)
  | none => (b, true)

/-- The UDP or TCP checksum inserted; a computed UDP checksum of 0 is sent as 0xFFFF (R225); second: not possible. -/
def insertL4 (b : List Byte) : List Byte × Bool :=
  let p := parseIp b
  match p.l4, p.whole with
  | some (o, len, co, udp, pseudo), true =>
    let z := putWord b (o + co) 0
    let v := csumOf (onesSum (slice z o len) pseudo)
    (putWord b (o + co) (if udp && v = 0 then 65535 else v), false)
  | _, _ => (b, true)

/-- What a Send descriptor's CSUM_IP and CSUM_L4 ask, done; second: some insertion was not possible (CSUM_SKIPPED). -/
def insertCsums (ip l4 : Bool) (b : List Byte) : List Byte × Bool :=
  let a := if ip then insertIp b else (b, false)
  let c := if l4 then insertL4 a.1 else (a.1, false)
  (c.1, a.2 || c.2)

/-- The IPv4 header checksum as found: 0 not checked, 1 good, 2 bad (R226). -/
def checkIp (b : List Byte) : BitVec 2 :=
  match (parseIp b).ip with
  | some (o, ihl) => if onesSum (slice b o ihl) 0 % 65535 = 0 then 1 else 2
  | none => 0

/-- The UDP or TCP checksum as found: a frame shorter than its IP length is bad, a UDP checksum of 0 over IPv4 is not checked
(R226). -/
def checkL4 (b : List Byte) : BitVec 2 :=
  let p := parseIp b
  match p.l4 with
  | some (o, len, co, udp, pseudo) =>
    if !p.whole then 2
    else if udp && p.ip.isSome && beAt b (o + co) 2 = 0 then 0
    else if onesSum (slice b o len) pseudo % 65535 = 0 then 1
    else 2
  | none => if p.cut then 2 else 0

end Sys2Proof.Machine
end

