-- ==== Sys2Proof/Machine/State.lean ====
section
/-! DEFINITION. The state of one TN-880 node: every register, queue, buffer, counter, mode and pin the spec gives it, as
plain data, unit by unit; the reasons a command can stop; the state after reset. Times are nanoseconds of the model's own
clock (log entry 3). A timer is the instant at which it is due, `none` while it is not armed. -/
namespace Sys2Proof.Machine

/-- Why the machine would stop with a fault. No meaning of this model raises it: every command the spec gives an effect has
it, and host memory answers every address (log entry 5). Safe: nothing depends on it. -/
inductive Fault
  /-- Raised by no command. Safe. -/
  | noneRaised
  deriving DecidableEq, Repr

/-- Why a command is refused. -/
inductive Refusal
  /-- The command has no meaning yet; raised by an arm of `exec` and by nothing else. Safe: the machine stops. -/
  | notModelled (mnemonic : String)
  deriving DecidableEq, Repr

/-! ### What leaves the node -/

/-- What a tone carries in one symbol of the power line (Table 7.7, R305): nothing; a point of unit amplitude at a phase of `n`/512
turns; or a 16QAM point of levels I and Q, scaled by 1/√10. -/
inductive TonePoint
  | off
  | phase (n : BitVec 9)
  | qam (i q : Int)
  deriving DecidableEq, Repr

/-- An OFDM symbol: its points from tone 0 up (R303). -/
abbrev PlcSymbol := List TonePoint

/-- What the node sends, drives or answers: the model's own record, in order, of what its pins and links carry. -/
inductive Emission
  /-- The value a register read through an endpoint returns (R9, R11). -/
  | readReply (ep : Endpoint) (off : Offset) (v : Word)
  /-- A whole frame, without its FCS, on a line port; `stomped` frames end in an inverted FCS (R165). -/
  | frame (port : PortNo) (bytes : List Byte) (stomped : Bool)
  /-- One 802.3br mPacket of the preemptable MAC (R269): SMD-S (start) or SMD-C, the frame count of its SMD, the fragment count behind
  an SMD-C, its bytes, and the check value behind them: the frame's FCS or an mCRC. -/
  | fragment (port : PortNo) (start : Bool) (frameCnt fragCnt : BitVec 2) (bytes : List Byte) (check : Word)
  /-- A verify (true) or respond (false) mPacket (R270). -/
  | verify (port : PortNo) (isVerify : Bool)
  /-- A TTDP HELLO, in the fast timer regime or not, and a TTDP TOPOLOGY with the topology counter (R143). -/
  | hello (port : PortNo) (fast : Bool)
  | topology (port : PortNo) (counter : Word)
  /-- A frame on a service port (R718). -/
  | sp (ct : Ct) (dst : Key) (payload : List Byte)
  /-- Consecutive symbols of 180 µs on a power-line channel, the first starting at an instant (R303): the tones of the priority
  resolution, a frame, or WAKE. -/
  | plc (chan : Chan) (start : Ns) (symbols : List PlcSymbol)
  /-- A CAN frame sent on its bus: identifier, IDE, RTR, FDF, BRS, DLC, data (Table 8.2). -/
  | can (chan : Chan) (id : Nat) (ide rtr fdf brs : Bool) (dlc : Nat) (data : List Byte)
  /-- An MSI-X message of a vector of an endpoint (R414). -/
  | msix (ep : Endpoint) (vec : Nat)
  /-- A drive pulse to a relay set: BYP-A or BYP-B (R51), or the OUT0 coil (R378). -/
  | bypassPulse (lane : Lane)
  | out0Pulse
  /-- WAKE# of an endpoint's row asserted or released (R540). -/
  | wakeN (ep : Endpoint) (asserted : Bool)
  /-- A PME turn-off acknowledged: the link enters L2 (R385). -/
  | linkL2 (ep : Endpoint)
  /-- A heartbeat or token pulse over the backplane (R597). -/
  | heartbeat (yield : Bool)
  | token
  deriving DecidableEq, Repr

/-! ### Native frames -/

/-- A native frame: the fields of Table 4.2 and its payload. -/
structure NatFrame where
  /-- CLASS: 0 U, 1 M, 2 S, 3 B. -/
  cls : BitVec 2
  raw : Bool
  /-- LANE: false A, true B. -/
  lane : Bool
  pcp : BitVec 3
  sync : Bool
  retx : Bool
  epoch : Half
  src : Key
  dst : Key
  srcCqp : BitVec 10
  dstCqp : BitVec 10
  label : BitVec 12
  fseq : Half
  payload : List Byte
  deriving DecidableEq, Repr

/-- The Send descriptor a frame came from: its CQP's context and its ring index (R407). -/
structure TxRef where
  link : Link
  cqp : Nat
  idx : Half
  deriving DecidableEq, Repr

/-- Where a frame ends: the client, or the consist port and client of DST_PORT (R399). -/
structure OutFrame where
  /-- The bytes on the wire without FCS. -/
  bytes : List Byte
  /-- The native frame it carries, where it is one. -/
  nat : Option NatFrame
  /-- The Send descriptor to complete when its last bit has left. -/
  origin : Option TxRef
  /-- CLASS as in `NatFrame`. -/
  cls : BitVec 2
  pcp : BitVec 3
  /-- When it became eligible (R161, DELAYED). -/
  readyAt : Ns
  /-- Bytes already sent as fragments, 0 for a whole frame (R275). -/
  sent : Nat
  /-- Train time at which its first bit left, once it has begun to leave, and DELAYED (R408, R161). -/
  firstAt : Option Dword
  delayed : Bool
  /-- The port a stored frame came in on, for IN_QUOTA (R452). -/
  inPort : Option PortNo
  /-- The pool that holds it: 0 U, 1 M, 2 S, 3 shared (Table 10.2). -/
  pool : Nat
  deriving DecidableEq, Repr

/-- A frame ready for a client's Receive ring (Table 9.7). -/
structure RxItemDue where
  src : Key
  srcCqp : BitVec 10
  srcPort : BitVec 4
  raw : Bool
  bcast : Bool
  viaPlc : Bool
  lane : Bool
  cls : BitVec 2
  pcp : BitVec 3
  label : BitVec 12
  fseq : Half
  /-- It belongs to a flow, so that dropping it is reported as GAP (R406). -/
  isFlow : Bool
  /-- Already marked truncated at a consist port (R220). -/
  truncated : Bool
  /-- IP_CSUM and L4_CSUM as found at the source port (R226). -/
  ipCsum : BitVec 2
  l4Csum : BitVec 2
  fullLen : Nat
  data : List Byte
  time : Dword
  /-- Instant after which it is dropped while no descriptor is free (R406). -/
  waitUntil : Ns
  /-- A GAP report: first missing FSEQ is `fseq`, this many are missing (R178); it needs no descriptor. -/
  gapCount : Nat
  inPort : Option PortNo
  pool : Nat
  /-- The local Send descriptor that is complete once this is delivered (R408, local delivery). -/
  localTx : Option TxRef
  deriving DecidableEq, Repr

/-! ### Host interface -/

/-- State of a ring (Table 9.14). -/
inductive RingState | stopped | running | stopping | halted
  deriving DecidableEq, Repr

/-- Why a ring halted (Table 9.14, HALT_WHY). -/
inductive HaltWhy | malformed | hostRead | overrun
  deriving DecidableEq, Repr

/-- A fetched Send descriptor that has no completion yet (R32, R421). -/
structure TxPend where
  idx : Half
  cookie : Dword
  /-- LEN of the descriptor (R695), and egress copies that have not left yet (R408). -/
  len : Nat
  copies : Nat
  /-- The result once it is decided: STATUS, DELAYED, LANE, PLC, CSUM_SKIPPED, HOST_ERR, TIME. -/
  result : Option (BitVec 8)
  delayed : Bool
  lane : Bool
  plc : Bool
  retx : Bool
  csumSkipped : Bool
  hostErr : Bool
  fseq : Half
  epoch : Half
  time : Dword
  /-- Class U, for URG_NOW (R414). -/
  classU : Bool
  /-- Frame-store bytes it counts for against TX_QUOTA until its completion is written (R447). -/
  charge : Nat
  deriving DecidableEq, Repr

/-- A Receive descriptor taken from a ring and free (R404). -/
structure RxDesc where
  idx : Half
  buf : Dword
  len : Nat
  deriving DecidableEq, Repr

/-- A `ring_stop` or `ring_reset` that waits: who asked, with what, and whether the ring is reset then (R425). -/
structure StopReq where
  port : MgmtPort
  tag : Half
  opcode : Half
  body : List Byte
  /-- Rings it still waits for, and whether they are reset then. -/
  waitTx : Bool
  waitRx : Bool
  reset : Bool
  /-- Rings it named, for event 0x8041. -/
  mask : Nat
  deriving DecidableEq, Repr

/-- One CQP context entry (Table 9.14) with what the node holds for its rings. -/
structure Ctx where
  /-- TX_BASE, 64 bits, R10; reset 0. -/
  txBase : Dword
  /-- RX_BASE, 64 bits; reset 0. -/
  rxBase : Dword
  /-- CTRL, 32 bits; reset 0. -/
  ctrl : Word
  /-- ADM_TX, 32 bits, Table 10.8; default TX_QUOTA 256. -/
  admTx : Word
  /-- ADM_RX, 32 bits, Table 10.8; default RX_QUOTA 256. -/
  admRx : Word
  txState : RingState
  rxState : RingState
  haltIdx : Half
  haltWhy : HaltWhy
  /-- HALT_RING bits 0 Send and 1 Receive. -/
  haltTx : Bool
  haltRx : Bool
  /-- Fetch position and last TX_PROD read; TX_DONE. -/
  txFetch : Half
  txProd : Half
  txDone : Half
  /-- Receive fetch position, last RX_PROD read, RX_DONE. -/
  rxFetch : Half
  rxProd : Half
  rxDone : Half
  cntRxNobuf : Word
  cntTx : Word
  cntRx : Word
  /-- Fetched Send descriptors in ring order without a completion. -/
  txPend : List TxPend
  /-- Free Receive descriptors taken from the ring. -/
  rxFree : List RxDesc
  /-- Frames waiting for a Receive descriptor (R406). -/
  rxWait : List RxItemDue
  /-- A `ring_stop` or `ring_reset` waiting for the ring to stop (R425). -/
  stopReqs : List StopReq
  /-- Descriptors of a takeover to be executed again with their FSEQ, before the fetch position (R608). -/
  redo : List TxPend
  deriving DecidableEq, Repr

/-- A completion produced and not yet written (R411, R412). -/
structure CqPend where
  link : Link
  cqp : Nat
  isRx : Bool
  /-- Dwords 0 to 6; PHASE goes into dword 7 when it is written (R413). -/
  d0 : Word
  d1 : Word
  d2 : Word
  d3 : Word
  d4 : Word
  d5 : Word
  d6 : Word
  d7 : Word
  /-- It uses a descriptor of the ring, so that TX_DONE or RX_DONE advances. -/
  uses : Bool
  /-- It raises the vector at once under URG_NOW (R414). -/
  urgent : Bool
  /-- Frame-store bytes its frame still counts for (R447). -/
  charge : Nat
  /-- Octets the ledger counts with it (R695). -/
  octets : Nat
  /-- The local Send descriptor that is complete once this is written (R408). -/
  localTx : Option TxRef
  deriving DecidableEq, Repr

/-- One completion queue (Table 9.13). -/
structure CqState where
  base : Dword
  en : Bool
  link : Link
  vec : BitVec 6
  sizeLog2 : BitVec 5
  urgNow : Bool
  timer : BitVec 10
  count : BitVec 8
  /-- Next entry the node writes, and PASS (R415, R417). -/
  pos : Half
  pass : Bool
  full : Bool
  /-- Completions waiting to be written, oldest first. -/
  pend : List CqPend
  /-- Written since the vector was last raised, and when the first of them was. -/
  since : Nat
  firstAt : Option Ns
  deriving DecidableEq, Repr

/-- One response or event waiting on CQP 0 of a link (R420, R422). -/
structure MgmtItem where
  opcode : Half
  tag : Half
  status : Byte
  more : Bool
  event : Bool
  /-- Place among events: 0 for 0x2030, 1 and 2 for 0xC001 and 0x8012 after a takeover, 3 for 0x5010, 4 for others (R423). -/
  rank : Nat
  src : Key
  body : List Byte
  deriving DecidableEq, Repr

/-- A management request taken and not yet answered (R421). -/
structure MgmtReq where
  opcode : Half
  tag : Half
  body : List Byte
  deriving DecidableEq, Repr

/-- The state of a PCIe link of an endpoint. -/
inductive LinkPower | down | l0 | l1 | l2
  deriving DecidableEq, Repr

/-- What belongs to each endpoint separately (R388, R708). -/
structure EndpointState where
  power : LinkPower
  gen : Nat
  width : Nat
  /-- Pending _LO writes and latched _HI values by BAR0 offset (R10, R11). -/
  pendingLo : Tab Word
  latchHi : Tab Word
  /-- MSI-X table words by word index 0 to 255 (only written ones listed) and the PBA. -/
  msix : Tab Word
  pba : BitVec 64
  aspmL1 : Bool
  d3hot : Bool
  atomicOp : Bool
  memSpace : Bool
  busMaster : Bool
  maxPayload : Nat
  maxRead : Nat
  /-- WAKE# of this row's link asserted (R539, R540). -/
  wakeN : Bool
  deriving DecidableEq, Repr

/-- What belongs to each host link (R708), with the host memory the link reaches. -/
structure HifLink where
  /-- HIF_CFG.MGMT_EN. -/
  mgmtEn : Bool
  /-- HIF_DB, 64 bits. -/
  db : Dword
  /-- HIF_SHADOW, 64 bits. -/
  shadow : Dword
  /-- Context entry 0 as seen through this link (R390). -/
  ctx0 : Ctx
  /-- Host memory: sorted cells, none equal to what an unlisted byte reads as (log entry 4). -/
  hmem : List Host.Cell
  /-- Responses and events waiting on CQP 0. -/
  items : List MgmtItem
  /-- Events dropped and not yet reported by 0x8012. -/
  dropped : Nat
  /-- Requests taken from CQP 0 and not yet answered, at most 32. -/
  reqs : List MgmtReq
  /-- 0x8032 written since link-up (R397). -/
  scanNoted : Bool
  /-- Last 0x8020 (R428). -/
  readFailAt : Option Ns
  /-- The cause latch that 0x2030 delivers (R541): 0 none, else causes. -/
  wakeLatch : Word
  wakeDue : Bool
  deriving DecidableEq, Repr

/-- The host interface (chapter 9). -/
structure HifUnit where
  h1 : HifLink
  h2 : HifLink
  /-- Context entries 1 to 1023, those that differ from reset (R390). -/
  ctxs : Tab Ctx
  cqs : Vector CqState 16
  /-- HIF_H2_BASE (R389). -/
  h2Base : Nat
  epH1A : EndpointState
  epH2A : EndpointState
  epH1B : EndpointState
  epH2B : EndpointState
  deriving DecidableEq, Repr

/-! ### The unit and the harness panel -/

/-- One slot as SYS_SLOT and the swap history show it (Table 2.19, R657). -/
structure SlotState where
  /-- 0 empty, 1 seated and not ready, 2 ready, 3 faulted. -/
  st : BitVec 2
  lp2f : Bool
  serial : Key
  build : Byte
  fwMajor : Byte
  fwMinor : Byte
  deriving DecidableEq, Repr

/-- One bypass relay set: BYP-A or BYP-B (Table 2.21). -/
structure BypassState where
  /-- The hold of the last drive pulse ends here; the coil is energised until then (R51, R52). -/
  holdUntil : Option Ns
  /-- The monitor contact reports the set closed. -/
  bridged : Bool
  /-- A_FAULT or B_FAULT. -/
  fault : Bool
  /-- The monitor contact was last found to disagree with the drive: the contacts no longer follow the coil (R56). -/
  stuck : Bool
  deriving DecidableEq, Repr

/-- SYS registers and panel state (chapters 1 and 2). -/
structure SysUnit where
  slots : Vector SlotState 11
  /-- PSEL and PLOCK as sampled at power-up (R59). -/
  psel : BitVec 2
  plock : Bool
  pselLive : BitVec 2
  plockLive : Bool
  strapChanged : Bool
  strapMarginal : Bool
  /-- When the straps are next read (R62). -/
  strapDue : Option Ns
  bypA : BypassState
  bypB : BypassState
  /-- SYS_HFLT.FV_LIVE and FV_SEEN by port. -/
  fvLive : BitVec 8
  fvSeen : BitVec 8
  battARev : Bool
  battBRev : Bool
  /-- SYS_LOCATE: locate runs until this instant (R65). -/
  locateUntil : Option Ns
  /-- SYS_VKEY, the key in use; 0 while invalid (R656). -/
  vkey : Key
  /-- BP_BUILD of SYS_REV, read from the identity store at start-up (Table 0.8). -/
  bpBuild : Byte
  /-- HOST_PRSNT# pulled to GND on each row (R78). -/
  hostPrsntA : Bool
  hostPrsntB : Bool
  deriving DecidableEq, Repr

/-! ### Rolavo -/

/-- A polyline entry (Table 3.3). -/
structure PolyEntry where
  key : Key
  ord : BitVec 8
  held : Bool
  plcOnly : Bool
  corr : Bool
  laneB : Bool
  laneA : Bool
  duplex : Bool
  /-- ENTRY_END in a sweep, REF_END in a tally. -/
  endF : BitVec 2
  epoch : Word
  speedB : BitVec 4
  speedA : BitVec 4
  interopOk : Bool
  deriving DecidableEq, Repr

/-- The body of `sweep` (Table 3.4). -/
structure Sweep where
  scope : BitVec 2
  end2 : Bool
  cplOk : Bool
  pinSet : Bool
  barred : Bool
  overflow : Bool
  foreignDist : BitVec 6
  epoch : Word
  digest : Word
  pinKey : Key
  entries : List PolyEntry
  deriving DecidableEq, Repr

/-- The body of `tally` (Table 3.5). -/
structure Tally where
  newEpoch : Word
  newDigest : Word
  refKey : Key
  pinKey : Key
  nak : Bool
  pinApplied : Bool
  replay : Bool
  estimated : Bool
  barLast : Bool
  nakKey : Key
  nakReason : Byte
  entries : List PolyEntry
  deriving DecidableEq, Repr

/-- The body of `commit` (R116). -/
structure Commit where
  newEpoch : Word
  newDigest : Word
  cycle : Word
  deriving DecidableEq, Repr

/-- The body of `hold_open` (Table 3.6). -/
structure HoldOpen where
  action : BitVec 2
  ordFirst : Byte
  ordLast : Byte
  epoch : Word
  digest : Word
  remain : Half
  deriving DecidableEq, Repr

/-- A Rolavo message body by TYPE (Table 3.2). -/
inductive RlvBody
  | sweep (b : Sweep)
  | tally (b : Tally)
  | commit (b : Commit)
  | holdOpen (b : HoldOpen)
  deriving DecidableEq, Repr

/-- A Rolavo message: the common header and a body (R112). -/
structure RlvMsg where
  origin : Key
  msgNum : Half
  hops : Byte
  body : RlvBody
  deriving DecidableEq, Repr

/-- What span sweeps on one port show of the vertex at its other end (R85, R89). -/
structure SweepWatch where
  key : Key
  cplOk : Bool
  barred : Bool
  epoch : Word
  foreignDist : BitVec 6
  last : Ns
  deriving DecidableEq, Repr

/-- One lane's span at an end of this vertex (R82 to R89, R141, R142). -/
structure SpanState where
  /-- What its span sweeps show. -/
  watch : Option SweepWatch
  /-- The last span sweep of the accepted neighbour on it (R89). -/
  nbrAt : Option Ns
  /-- A TTDP HELLO that waits 30 ms for a native sweep (R141), and the last HELLO. -/
  hello : Option Ns
  helloLast : Option Ns
  /-- Its HELLO is a foreign node's (R141). -/
  foreign : Bool
  /-- Last 0x5013 for own sweeps (R86), 0x5015 and 0x5042 of the span. -/
  ringEvAt : Option Ns
  badEvAt : Option Ns
  helloEvAt : Option Ns
  deriving DecidableEq, Repr

/-- A hold at one end (R93): the held ordinals, when it expires, and whether the chain beyond it has rejoined (R94). -/
structure Hold where
  first : Nat
  last : Nat
  expireAt : Ns
  rejoined : Bool
  deriving DecidableEq, Repr

/-- One end of this vertex (Table 3.13). -/
structure EndState where
  accepted : Option Key
  spanA : SpanState
  spanB : SpanState
  disagree : Bool
  corr : Bool
  /-- Span barred by this side (R139). -/
  barredHere : Bool
  /-- Since when every condition of R85 has held, and for which key. -/
  condSince : Option Ns
  condKey : Key
  /-- Event 0x5005 and event 0x5004 written for the present conflict and the present withheld acceptance (R86, R87). -/
  conflict : Bool
  withheld : Bool
  /-- Since when both pairs read agreed active, and since when a condition of R88 has lasted. -/
  inputsSince : Option Ns
  disagreeSince : Option Ns
  /-- Key lost, and when the loss is decided (R90). -/
  lost : Option (Key × Ns)
  corrDue : Option Ns
  hold : Option Hold
  /-- Span sweeps with a differing epoch (R138). -/
  epochDiffs : Nat
  deriving DecidableEq, Repr

/-- What the node knows of the ETB in interop mode (R143 to R147). -/
structure EtbUnit where
  /-- Traffic runs on the ETB topology: from the entry to interop mode to the first native commit after it. -/
  runs : Bool
  /-- The ETB topology is valid: no inauguration is under way. -/
  valid : Bool
  /-- The topology counter of the last inauguration. -/
  counter : Word
  /-- The addresses of the ETB nodes that are no TN-880. -/
  foreign : List Key
  /-- The native tally that was in force before. -/
  native : Option Tally
  /-- The next TTDP HELLO of each lane port. -/
  helloDue : Vector (Option Ns) 8
  deriving DecidableEq, Repr

/-- State of the Rolavo state machine (Table 3.7). -/
inductive RlvState | alone | settled | gather | pending | interop
  deriving DecidableEq, Repr

/-- The RLV unit (chapter 3). -/
structure RlvUnit where
  st : RlvState
  epoch : Word
  digest : Word
  refKey : Key
  ord : Nat
  refEnd : BitVec 2
  estimated : Bool
  pinned : Bool
  barLast : Bool
  interopAllow : Bool
  plcOnly : Bool
  /-- The committed tally's entries in ordinal order, and its pin. -/
  poly : List PolyEntry
  pinKey : Key
  /-- A pin this vertex's own host set (or cleared, 0) since the last commit (R108). -/
  ownPin : Option Key
  pending : Option Tally
  commitAt : Option Nat
  /-- Next MSG_NUM (Table 3.2). -/
  msgNum : Half
  /-- Copies heard within 1 s: TYPE, ORIGIN_KEY, MSG_NUM (R83). -/
  seen : List (BitVec 4 × Key × Half × Ns)
  lastSweepAt : Option Ns
  deferredSweepAt : Option Ns
  backoffAt : Option Ns
  gatherDue : Option Ns
  pendingDue : Option Ns
  gatherAtSwitch : Bool
  graceUntil : Option Ns
  foreignDist : BitVec 6
  foreignQuietSince : Option Ns
  end1 : EndState
  end2 : EndState
  /-- Next span sweep due, by port (R82). -/
  sweepDue : Vector (Option Ns) 8
  etb : EtbUnit
  /-- Chains of other segments as their ordinal 1 last told them over the power line, by that vertex's key (R102). -/
  segments : List (Key × List PolyEntry)
  /-- Ranges other vertices hold, as their `hold_open` messages name them: origin, first and last ordinal, expiry. -/
  announced : List (Key × Nat × Nat × Ns)
  /-- Class M and B frames kept for held vertices (R98). -/
  heldFrames : List OutFrame
  cntCommit : Word
  cntAbandon : Word
  cntStale : Word
  deriving DecidableEq, Repr

/-! ### Backbone -/

/-- Sender state of a flow (R173). -/
structure TxFlow where
  id : FlowId
  next : Half
  /-- The next frame carries SYNC = 1. -/
  sync : Bool
  last : Ns
  /-- The power-line channel that carries it (R332). -/
  chan : Option Chan
  deriving DecidableEq, Repr

/-- A frame held behind missing numbers, with where it goes (R174, R175). -/
structure HeldFrame where
  frame : NatFrame
  laneB : Bool
  viaPlc : Bool
  time : Dword
  at_ : Ns
  inPort : Option PortNo
  pool : Nat
  deriving DecidableEq, Repr

/-- Receiver state of a flow (R174 to R176). -/
structure RxFlow where
  id : FlowId
  next : Half
  held : List HeldFrame
  /-- Numbers delivered among the 64 before NEXT (R175). -/
  delivered : List Half
  /-- FSEQ of the last SYNC frame honoured (R176). -/
  lastSync : Option Half
  last : Ns
  deriving DecidableEq, Repr

/-- A class U frame in cut-through transit (R164). -/
structure Transit where
  lane : Lane
  outbound : Bool
  frame : NatFrame
  bytes : List Byte
  fcsOk : Bool
  /-- When its header had been received and checked. -/
  hdrAt : Ns
  /-- Its release instant I at this egress. -/
  instant : Ns
  srcOrd : Nat
  deriving DecidableEq, Repr

/-- A span of a lane known to be down: lane B?, lower and higher ordinal (R180 to R182). -/
structure DownSpan where
  lane : Lane
  low : Nat
  high : Nat
  deriving DecidableEq, Repr

/-- A lane notice waiting for this vertex's next own slot on the other lane (R181). -/
structure NoticeDue where
  lane : Lane
  up : Bool
  low : Nat
  high : Nat
  deriving DecidableEq, Repr

/-- A `bbn_time_set` this node took and has no outcome for (R189). -/
structure TimeSetOpen where
  port : MgmtPort
  tag : Half
  deadline : Ns
  deriving DecidableEq, Repr

/-- A time step the reference apex holds (R189): for whom, the rounded step, whether applied and when that is decided. -/
structure TimeSetRef where
  /-- Key of the node that took the request, and its TAG; the port where it was taken here. -/
  origin : Key
  tag : Half
  port : Option MgmtPort
  step : Int
  /-- The cycle boundary at which it is applied, as train time. -/
  at_ : Nat
  /-- The step is applied; the outcome is TIMEOUT from this instant on. -/
  settleBy : Option Ns
  deriving DecidableEq, Repr

/-- The BBN unit (chapter 4). -/
structure BbnUnit where
  laneSplit : Bool
  gmPrio1 : Byte
  /-- CYCLE_LEN: false 500 µs, true 1,000 µs. -/
  cycle1ms : Bool
  /-- The lanes' speeds: 0 down, 1 100 Mbit/s, 2 1 Gbit/s (SYS_MODE.LANE_A, LANE_B). -/
  speedA : BitVec 2
  speedB : BitVec 2
  /-- The lane at 100 Mbit/s has been restored since the last commit (R214, R215). -/
  restoredA : Bool
  restoredB : Bool
  /-- A cycle length change waiting for its boundary (R158): the cycle-length it changes to and the train time. -/
  cycleChangeAt : Option Nat
  /-- Train time less the model's clock, modulo 2^64 (R5). -/
  timeOff : Dword
  timeValid : Bool
  syncOk : Bool
  gm : Bool
  /-- BBN_OFFSET, two's complement. -/
  offset : Word
  lastSync : Option Ns
  /-- A correction being slewed, 50 ns per cycle, since an instant (R188). -/
  slew : Int
  slewAt : Ns
  /-- A step taken from the time source, and the boundary at which it is applied, as train time, and whether the grandmaster
  has stepped (R188). -/
  stepDue : Option (Int × Nat × Bool)
  /-- The next Sync is the first of its time source: a difference beyond 10 µs is stepped (R188). -/
  firstSync : Bool
  /-- In interop mode the port towards the grandmaster and its priority1, as the BMCA chose it; none while this node is it (R195). -/
  bmca : Option (PortNo × Byte)
  /-- MAC addresses the bridge of interop mode has learned, the end each lies beyond (none: this vertex's hosts), and when (R192). -/
  fdb : List (Key × Option End × Ns)
  /-- The time base indicator of gPTP: it changes when the grandmaster steps (R188). -/
  gmBase : Half
  /-- No class U originates in this cycle (R128, R188): its start, train time. -/
  quietCycle : Option Nat
  /-- The cycle that follows a step of train time, in which nothing is reserved (R188): its start. -/
  stepCycle : Option Nat
  downSpans : List DownSpan
  /-- Class U frames that wait for this vertex's slots, in the order of descriptor fetch, each with the lane whose origination
  queue it is in (R162, R259), and lane notices due. -/
  uq : List (Lane × OutFrame)
  noticesA : List NoticeDue
  noticesB : List NoticeDue
  /-- Cycle in which this vertex last originated on each lane (R42). -/
  lastUA : Option Nat
  lastUB : Option Nat
  /-- When a class U frame last left on a lane (R601). -/
  lastUAt : Option Ns
  transit : List Transit
  txFlows : List TxFlow
  rxFlows : List RxFlow
  /-- Last event 0x4010 per lane (R164), last 0x4020. -/
  lateEvA : Option Ns
  lateEvB : Option Ns
  setOpen : List TimeSetOpen
  setRef : List TimeSetRef
  cntUlate : Word
  cntHchk : Word
  cntStomp : Word
  cntDup : Word
  cntLate : Word
  cntGap : Word
  cntFailover : Word
  deriving DecidableEq, Repr

/-! ### Line ports -/

/-- One wake pattern (R232). -/
structure WakePattern where
  en : Bool
  mask : BitVec 128
  crc : Half
  deriving DecidableEq, Repr

/-- State of the verify exchange (Table 6.8). -/
inductive VerifyState | disabled | initial | verifying | succeeded | failed
  deriving DecidableEq, Repr

/-- A gate-list buffer (R261). -/
structure GateList where
  mult : BitVec 6
  count : BitVec 7
  entries : List Word
  deriving DecidableEq, Repr

/-- A frame leaving a port: what is on the wire now. -/
structure Sending where
  frame : OutFrame
  startAt : Ns
  endAt : Ns
  preemptable : Bool
  /-- Where its bytes begin in the frame: a continuation fragment starts behind what was sent. -/
  from_ : Nat
  /-- Where the bytes on the wire end in the frame: its length, or the split point of R271. -/
  upTo : Nat
  /-- Its FCS is inverted at the end (R165). -/
  stomped : Bool
  queue : Nat
  deriving DecidableEq, Repr

/-- A frame being put together from its fragments (R275): its bytes so far, its frame count, the fragment count that comes next;
`lost` while what still comes of a discarded frame is passed over. -/
structure Assembly where
  bytes : List Byte
  frame : BitVec 2
  next : BitVec 2
  lost : Bool
  deriving DecidableEq, Repr

/-- A cable test running on a port (R239), with the words of the pairs that are finished, from pair A on (R242). -/
structure CableTest where
  port : MgmtPort
  tag : Half
  done : List Half
  deriving DecidableEq, Repr

/-- One line port (chapters 5, 6 and 10). -/
structure LinePort where
  /-- LP_CFG fields. -/
  role : BitVec 3
  speedCfg : BitVec 2
  watch : Bool
  wakeLink : Bool
  csumCheck : Bool
  /-- LP_MAXLEN as the profile gives it (R219). -/
  maxLen : BitVec 14
  bind : BitVec 10
  /-- LP_STATUS fields. -/
  cntRestart : Bool
  restricted : Bool
  speedAborted : Bool
  parDet : Bool
  los : Bool
  speed : LinkSpeed
  link : Bool
  mdix : Bool
  master : Bool
  changing : Bool
  test : Option CableTest
  /-- The PHY is powered (R200, R237). -/
  phyOn : Bool
  /-- Time without link began in CELLAR or ASLEEP (R236). -/
  downInWatch : Bool
  /-- A speed change: its target, when it is tried again, 0x3040 and 0x3042 written for it, when it must be linked. -/
  target : LinkSpeed
  forced : Bool
  retryAt : Option Ns
  abortNoted : Bool
  overdueAt : Option Ns
  /-- A speed change due once the cable test ends (R240). -/
  changeAfterTest : Bool
  half0 : Word
  half1 : Word
  cableRes0 : Word
  cableRes1 : Word
  wakeHit : Word
  wake : Vector WakePattern 4
  /-- Counters by page offset 0x400 to 0x4FC (Tables 5.4, 6.10). -/
  cnt : Tab Word
  /-- Last 0x3061, 0x3060, 0x3074, 0x9003 on this port. -/
  unboundEvAt : Option Ns
  oversizeEvAt : Option Ns
  gateEvAt : Option Ns
  admitEvAt : Option Ns
  /-- When this port last carried the first span sweep of the present run, for R180. -/
  sweepSince : Option Ns
  /-- Queues 0 to 7 (R249, R250). -/
  queues : Vector (List OutFrame) 8
  /-- MAC control and gPTP frames, ahead of queues 0 to 6 (R258). -/
  ctl : List (List Byte)
  /-- The next Sync and the next Pdelay_Req of a lane port, and its gPTP sequence number (R185). -/
  syncAt : Option Ns
  pdelayAt : Option Ns
  gptpSeq : Half
  sending : Option Sending
  /-- A part-sent preemptable frame waiting to go on (R272), with its queue. -/
  part : Option (OutFrame × Nat)
  /-- LP_QMAP. -/
  qmap : Word
  /-- LP_FC fields. -/
  quanta : Half
  pfcEn : Byte
  defPcp : BitVec 3
  fcMode : BitVec 2
  xon : Half
  xoff : Half
  /-- 802.3x and PFC stops in force: until when (R279). -/
  rxPauseUntil : Option Ns
  rxPfcUntil : Vector (Option Ns) 8
  /-- XOFF sent to the partner (LP_FC_STATUS), and when it is repeated: of each priority, of the port (R280). -/
  txPauseXoff : Bool
  txXoff : Byte
  xoffRepeatAt : Vector (Option Ns) 8
  pauseRepeatAt : Option Ns
  storm : Bool
  stormUntil : Option Ns
  /-- Since when each queue has been stopped without a break (R283). -/
  stoppedSince : Vector (Option Ns) 8
  /-- Since when received 802.3x pause has stopped the port, for PAUSED_US (Table 6.10). -/
  pauseFrom : Option Ns
  /-- LP_PREEMPT as the profile gives it. -/
  preempt : Word
  verify : VerifyState
  preemptActive : Bool
  hold : Bool
  verifyTries : Nat
  verifyDue : Option Ns
  /-- Reassembly of a fragmented frame (R275). -/
  assembly : Option Assembly
  /-- Frame count of the preemptable frame in progress or next, fragment count of its next continuation (R269). -/
  txFrame : BitVec 2
  txFrag : BitVec 2
  /-- LP_GATE_CTRL and the buffers. -/
  gateEn : Bool
  activeBuf : Bool
  gatePending : Bool
  gateSwitch : Word
  gcl0 : GateList
  gcl1 : GateList
  /-- LP_GATE_STATUS. -/
  gateEntry : BitVec 6
  gates : Byte
  /-- LP_ADM.IN_QUOTA. -/
  inQuota : Half
  deriving DecidableEq, Repr

/-- TC_PCP (Table 6.7). -/
structure TcUnit where
  pcpU : BitVec 3
  pcpM : BitVec 3
  pcpS : BitVec 3
  /-- Descriptor fetch waits until then while a config item changes TC_PCP (R625). -/
  fetchHold : Option Ns
  deriving DecidableEq, Repr

/-- An `lp_speed_restore` in progress (R214): the lane, its target cycle index, whether that cycle has begun, who asked. -/
structure RestoreState where
  lane : Lane
  cycle : Nat
  applied : Bool
  req : Option (MgmtPort × Half)
  deriving DecidableEq, Repr

/-! ### Power-line channels -/

/-- Attach state of a channel (Table 7.17, ATT_STATE). -/
inductive AttState | detached | sensing | ramp | closing | locking | listening | associated
  deriving DecidableEq, Repr

/-- Line class (Table 7.4). -/
inductive LineClass | absent | ac | dc | invalid | heating
  deriving DecidableEq, Repr

/-- A station record (Table 7.12). -/
structure Station where
  stn : BitVec 7
  key : Key
  laneNbr : Bool
  leaving : Bool
  /-- When it was last heard, and until when its STN is reserved once it is lost (R324). -/
  lastHeard : Ns
  reservedUntil : Option Ns
  deriving DecidableEq, Repr

/-- A chord record (Table 7.12). -/
structure Chord where
  orig : BitVec 7
  dst : BitVec 7
  reps : List (BitVec 7)
  deriving DecidableEq, Repr

/-- An allocation entry (Table 7.11). -/
structure Alloc where
  win : BitVec 5
  start : BitVec 5
  len : BitVec 6
  tx : BitVec 7
  rx : BitVec 7
  use : BitVec 2
  deriving DecidableEq, Repr

/-- What a station knows of a neighbour: two tone maps in each direction, path loss, blocks with faults (R315 to R317). -/
structure PlcNbr where
  stn : BitVec 7
  /-- The two maps to send to it with, empty where it has returned none, and the one the last TM_RSP filled. -/
  tx0 : List (BitVec 3)
  tx1 : List (BitVec 3)
  txTmi : Bool
  /-- The two maps it sends to this station with, the one of the last block that came, and the one last returned to it. -/
  rx0 : List (BitVec 3)
  rx1 : List (BitVec 3)
  rxTmi : Bool
  rxNew : Bool
  loss : Byte
  badBlocks : Nat
  deriving DecidableEq, Repr

/-- A link reported to the coordinator (R324, R330): from, to, loss, b. -/
structure PlcLink where
  tx : BitVec 7
  rx : BitVec 7
  loss : Byte
  b : Nat
  usable : Bool
  deriving DecidableEq, Repr

/-- A class U frame due on the channel: originated here or repeated (R319, R331). -/
structure PlcUrgent where
  frame : NatFrame
  hops : Nat
  orig : BitVec 7
  dst : BitVec 7
  /-- First window in which it may be sent, as a count of windows since reset. -/
  dueWin : Nat
  origin : Option TxRef
  deriving DecidableEq, Repr

/-- A running calibration, and the crossings it has seen (R298). -/
structure CalRun where
  port : MgmtPort
  tag : Half
  seen : Nat
  deriving DecidableEq, Repr

/-- A block being sent to a receiver (R310, R321): its slices still to go, and the descriptors complete with its last one. -/
structure PlcBlock where
  rx : BitVec 7
  deep : Bool
  cls : BitVec 2
  bsn : Byte
  tmi : Bool
  /-- Its tone map, empty for the robust map (R318). -/
  map : List (BitVec 3)
  symbols : Nat
  next : Nat
  slices : List (List Bool)
  done : List TxRef
  deriving DecidableEq, Repr

/-- A frame that waits on a channel: its next hop, whether it takes a deep block, its bytes still to go, its descriptor, and the
port and pool it counts for in the frame store (R312, R443, R452). -/
structure PlcData where
  hop : BitVec 7
  cls : BitVec 2
  deep : Bool
  bytes : List Byte
  origin : Option TxRef
  inPort : Option PortNo
  pool : Nat
  /-- Its priority, for the ingress occupancy of R280. -/
  pcp : BitVec 3
  deriving DecidableEq, Repr

/-- A control message waiting for an allocation: its receiver, its bytes still to go, and whether its first segment has gone (R312,
R316, R324). -/
structure PlcCtl where
  rx : BitVec 7
  bytes : List Byte
  started : Bool
  deriving DecidableEq, Repr

/-- Data blocks are numbered and put together by transmitter, receiver and DEPTH (Table 7.9, R312). -/
structure PlcStream where
  tx : BitVec 7
  rx : BitVec 7
  deep : Bool
  deriving DecidableEq, Repr

/-- One power-line channel (Tables 7.16 to 7.18). -/
structure PlcChan where
  cfg : Word
  att : AttState
  /-- Held detached by `plc_attach` (R295). -/
  heldOff : Bool
  line : LineClass
  /-- The line class at the end of Sense, for R292. -/
  freq : Half
  thd : Byte
  volts : Byte
  stepAt : Ns
  retryAt : Option Ns
  abortNoted : Bool
  invalidNoted : Bool
  heating : Bool
  synth : Bool
  /-- ZC_OFFSET, VALID and STALE. -/
  zcOffset : BitVec 20
  calValid : Bool
  stale : Bool
  cal : Option CalRun
  /-- The calibration the identity store keeps, and the PC-2 that measured it (R299). -/
  zcStored : BitVec 20
  calSerial : Key
  /-- Half-cycle in use, when the next window starts and when the present one started, missing crossings, and the window whose
  timing was last slewed (R297, R300). -/
  halfCycle : Ns
  winAt : Ns
  winStart : Ns
  missing : Nat
  slewedIn : Nat
  w : BitVec 6
  nextW : Option (BitVec 6)
  sfNum : Half
  winIdx : BitVec 5
  /-- Windows begun since reset. -/
  winCount : Nat
  /-- Winners of the present window's Urgent lead, and its allocations of this station that have not been used (R317, R320). -/
  lead : Nat
  freeAllocs : List Alloc
  role : BitVec 2
  stn : BitVec 7
  /-- The STN a coordinator gives itself in its next beacon (R325), and a coordinator that has lost resigns at its next window 0
  (R326). -/
  ownStn : BitVec 7
  resignTo : Option Key
  coord : Key
  coordLaneNbr : Bool
  access : BitVec 2
  mismatchNoted : Bool
  timeSrc : Bool
  firstBeacon : Bool
  /-- When a beacon and when a frame of any kind was last decoded (R294, R326). -/
  lastBeacon : Ns
  lastFrame : Ns
  /-- A beacon has been decoded in this superframe; its symbols and its body, for a relay; the station through whose copies this one
  takes time (R329). -/
  gotBeacon : Bool
  bcnSyms : Nat
  bcnBody : List Byte
  bcnStn : BitVec 7
  rotation : BitVec 7
  stations : List Station
  chords : List Chord
  allocs : List Alloc
  links : List PlcLink
  nbrs : List PlcNbr
  urgents : List PlcUrgent
  /-- Frames waiting, and frames of which earlier blocks carry the first bytes (R312). -/
  dataQ : List PlcData
  partSent : List PlcData
  /-- Bytes of a frame put together so far, the next BSN to send and the last one received, by stream (R310, R312). -/
  partial_ : List (PlcStream × List Byte)
  txBsn : List (PlcStream × Byte)
  rxBsn : List (PlcStream × Byte)
  /-- Blocks being sent, control messages waiting, pairs found unreachable (R312, R330), and whether this superframe's link report
  has been queued. -/
  blocks : List PlcBlock
  ctlQ : List PlcCtl
  unreach : List (BitVec 7 × BitVec 7)
  reported : Bool
  soundDue : Option Ns
  joinIn : Option Nat
  /-- Keys heard on the channel and since when (R100, R101, R328). -/
  heard : List (Key × Ns)
  /-- Since when the coordinator's beacons name this vertex as a station (R101); last 0x5015 of the channel. -/
  namedSince : Option Ns
  badRlvAt : Option Ns
  /-- Symbols sent in this superframe and duty of the last one, % (R339). -/
  symbols : Nat
  lastDuty : Byte
  dutyLimit : Byte
  cntFramesTx : Word
  cntFramesRx : Word
  cntUTx : Word
  cntURepeat : Word
  cntRsCorr : Word
  cntRsUncorr : Word
  cntTmEarly : Word
  cntAttachAbort : Word
  cntBeaconMiss : Word
  cntDeferred : Word
  deriving DecidableEq, Repr

/-! ### Vehicle I/O -/

/-- A CAN acceptance filter (Table 8.9). -/
structure CanFilter where
  id : Word
  mask : Word
  deriving DecidableEq, Repr

/-- State of a CAN channel (Table 8.8, STATE). -/
inductive CanState | stopped | integrating | errActive | errPassive | busOff | listenOnly
  deriving DecidableEq, Repr

/-- A frame in a transmit buffer (R348). -/
structure TxBuffer where
  /-- The Send descriptor to complete, none once a link reset has ended it (R386). -/
  origin : Option TxRef
  /-- ID with IDE in bit 29, as the filters order it. -/
  ide : Bool
  id : Nat
  fd : Bool
  brs : Bool
  remote : Bool
  dlc : Nat
  data : List Byte
  loadedAt : Ns
  deriving DecidableEq, Repr

/-- One CAN channel (Tables 8.8, 8.9). -/
structure CanChan where
  cfg : Word
  nbt : Word
  dbt : Word
  cqp : BitVec 10
  tec : Nat
  recCnt : Nat
  st : CanState
  busFault : Bool
  bufs : Vector (Option TxBuffer) 3
  mbx : Dword
  mbxCtrl : Word
  txto : BitVec 14
  flts : Vector CanFilter 32
  /-- Next mailbox entry to write (R356), and when recovery counts 128 idle sequences (R362). -/
  mbxPos : Nat
  /-- Next MBX_SEQ (Table 8.3); the first entry carries 1, so that a mailbox no entry of which is written reads 0 (log entry 16). -/
  mbxSeq : Word
  recovering : Bool
  /-- When an integrating channel has counted its 11 recessive bits (R367). -/
  integDue : Ns
  /-- Next buffer to load and next to offer in buffer-number order (R349). -/
  nextLoad : Fin 3
  nextOffer : Fin 3
  /-- A frame last came in on the bus, for demand (Table 15.2). -/
  lastRx : Option Ns
  /-- Last 0x7005, 0x7006, 0x7007, 0x7008 of the channel. -/
  evAt : Tab Ns
  cntRx : Word
  cntTx : Word
  cntTxto : Word
  cntErrPassive : Word
  cntBusoff : Word
  cntMbxOvf : Word
  cntRxNobuf : Word
  cntRemote : Word
  cntBusErr : Word
  deriving DecidableEq, Repr

/-- State of a coupling-input pair (Table 8.10). -/
inductive PairState | settling | agreed | discrepant | unknown
  deriving DecidableEq, Repr

/-- One dual-channel input pair (chapter 8). -/
structure PairInput where
  discMs : BitVec 12
  debounce : BitVec 7
  onLevel : BitVec 7
  st : PairState
  debA : Bool
  debB : Bool
  value : Bool
  fault : Bool
  /-- Each channel has had a debounced value since SETTLING (R370), and the pair has been AGREED (R375). -/
  hasA : Bool
  hasB : Bool
  everAgreed : Bool
  /-- Cellar tick at which the present disagreement, or agreement while UNKNOWN, began. -/
  sinceTick : Option Ticks
  /-- An agreement while UNKNOWN broken at the first tick and begun at the second: both channels may change at one tick. -/
  broke : Option (Ticks × Ticks)
  deriving DecidableEq, Repr

/-- VX registers outside the channels (Table 8.10). -/
structure VxUnit where
  can0 : CanChan
  can1 : CanChan
  pairs : Vector PairInput 4
  out1Pulse : BitVec 6
  out1Mode : BitVec 2
  healthMask : Byte
  /-- A contact test in force: its end and the state the contact takes (R380). -/
  out0Test : Option (Ns × Bool)
  out1Test : Option (Ns × Bool)
  /-- The OUT0 hold of the last pulse (R378), and whether each contact is driven closed. -/
  out0HoldUntil : Option Ns
  out0Closed : Bool
  out1Closed : Bool
  out1Until : Option Ns
  deriving DecidableEq, Repr

/-! ### Arbiter and admission -/

/-- ARB and ADM registers (Table 10.7) and the arbiter's own state. -/
structure ArbUnit where
  burst : BitVec 2
  fixed : Bool
  ageN : BitVec 7
  cls : Word
  /-- Requests now, the grant, and the count of R437. -/
  req : BitVec 16
  grant : BitVec 4
  grantValid : Bool
  ageCount : Nat
  /-- Class pointers (R436) and, per input, its place in the order in which requests were raised and granted (R437); the next such
  place. -/
  pointers : Vector (BitVec 4) 4
  waitSince : Vector (Option Nat) 16
  decisions : Nat
  bLimit : BitVec 10
  cntCongestion : Word
  cntBudget : Word
  cntTransit : Word
  /-- Last refusal of each status per CQP (R448): key 2 × CQP for congestion, 2 × CQP + 1 for budget. -/
  refusedAt : Tab Ns
  deriving DecidableEq, Repr

/-! ### Remote register window -/

/-- A remote request this node has open as requester (R469). -/
structure RrwOpen where
  reqId : Half
  port : MgmtPort
  tag : Half
  opcode : Half
  far : Key
  deadline : Ns
  deriving DecidableEq, Repr

/-- A local register write held while the lock is held (R477). -/
structure HeldWrite where
  ep : Endpoint
  off : Offset
  v : Word
  /-- The pending _LO value it uses, where it completes a 64-bit write (R10). -/
  lo : Option Word
  deriving DecidableEq, Repr

/-- The RRW unit (Table 11.9). -/
structure RrwUnit where
  defTimeout : Byte
  accept : Bool
  locked : Bool
  broken : Bool
  lockId : Half
  lockKey : Key
  grantAt : Ns
  /-- When the lease runs out, and the holder's last LEASE (R476). -/
  leaseEnd : Ns
  leaseLen : Ns
  held : List HeldWrite
  open_ : List RrwOpen
  nextReqId : Half
  cntSent : Word
  cntTimeout : Word
  cntLateRsp : Word
  cntLateErr : Word
  cntServed : Word
  cntRefused : Word
  cntBroken : Word
  deriving DecidableEq, Repr

/-! ### Supply -/

/-- State of a PW-2 (Table 12.12). -/
inductive PwState | absent | mains | battery | bank | down
  deriving DecidableEq, Repr

/-- One PW-2 (Table 12.12). -/
structure PwUnit where
  st : PwState
  mainsPres : Bool
  mainsQual : Bool
  mainsInvalid : Bool
  battPres : Bool
  battQual : Bool
  battRev : Bool
  battOv : Bool
  outFault : Bool
  hbWait : Bool
  bankFull : Bool
  bankLow : Bool
  test : Option (MgmtPort × Half)
  mainsFreq : Half
  mainsV : BitVec 12
  battI : BitVec 12
  battV : BitVec 12
  cap : Nat
  energy : Nat
  inPower : BitVec 10
  outPower : BitVec 10
  serial : Key
  eMains : Dword
  eBatt : Dword
  eBank : Dword
  eOut : Dword
  cntHandover : Word
  cntHandback : Word
  cntQualRestart : Word
  /-- Since when each input has been present without a break (R494). -/
  mainsSince : Option Ns
  battSince : Option Ns
  /-- Consecutive half-cycles of mains below 75 V or above 285 V, consecutive ones of a length outside the band, and whether the last one
  inside a band was of the 15–18 Hz band (Table 12.2). -/
  lowHalves : Nat
  oddHalves : Nat
  slowLine : Bool
  /-- A hand-over (true) or hand-back in progress, and to what (R493, R495). -/
  moving : Option (PwState × Bool)
  lastHandback : Option Ns
  /-- Last event 0x1008 of each input (R494). -/
  restartEvM : Option Ns
  restartEvB : Option Ns
  deriving DecidableEq, Repr

/-- The PWR unit (Tables 12.10, 12.11). -/
structure PwrUnit where
  a : PwUnit
  b : PwUnit
  mainsBand : BitVec 2
  chgOnBatt : Bool
  rideS : Nat
  load : Nat
  bankEmpty : Bool
  deriving DecidableEq, Repr

/-! ### Power states and Cellar -/

/-- Unit power state (SYS_MODE.PSTATE). -/
inductive PState | off | cellar | rising | run | falling | lastGasp
  deriving DecidableEq, Repr

/-- The request latch of CEL_STATUS.LATCH. -/
inductive ReqLatch | none | offReq | onReq
  deriving DecidableEq, Repr

/-- CEL registers and the sequences' state (chapter 13). -/
structure CelUnit where
  pstate : PState
  /-- C, S, F or G step in progress, 0 when none (its letter follows from PSTATE). -/
  step : Nat
  stepAt : Ns
  latch : ReqLatch
  warm : Bool
  stepFail : Bool
  fails : Nat
  retryAt : Option Ns
  monoRestart : Bool
  xtalFault : Bool
  xtalPpm : Half
  xtalOk : Bool
  refOk : Bool
  coreLock : Bool
  serdesLock : Bool
  bootHold : Bool
  /-- A CEL_CFG forced in, which takes effect at the next entry into CELLAR (Table 16.9). -/
  cfgNext : Option Word
  inWake : BitVec 4
  /-- Cellar count at `monoAt` (R519). -/
  monoBase : Nat
  monoAt : Ns
  wakeCause : Word
  wakeFirst : Nat
  wakeTick : Word
  timerAt : Option Ns
  /-- A rise held for energy, event 0x2008 written (R531), and one held by HOT_OFF (R549). -/
  energyHold : Bool
  heatHold : Bool
  /-- The next rise is cold (R526). -/
  coldNext : Bool
  /-- When the node reached OFF after LAST_GASP (R525). -/
  offSince : Option Ns
  /-- State, step and source at entry into LAST_GASP, for event 0x2007. -/
  gaspState : Nat
  gaspStep : Nat
  gaspSource : Nat
  /-- The last fall began in RUN, so that CEL_WAKE_CAUSE starts anew in CELLAR; a turned rise keeps its causes (R538, R541). -/
  fromRun : Bool
  /-- Causes raised in the fall in progress, and the first of them, which a turn is judged by (R584). -/
  turnCause : Word
  turnFirst : Nat
  cntRise : Word
  cntFall : Word
  cntReverse : Word
  cntLastgasp : Word
  cntStepFail : Word
  deriving DecidableEq, Repr

/-! ### Energy and heat budget -/

/-- BGT registers (Table 14.9). -/
structure BgtUnit where
  level : Fin 6
  srcCap : Nat
  energyCap : Nat
  heatCap : Nat
  loadCap : Nat
  hostCap : Nat
  hostCapUntil : Option Ns
  /-- When the level next rises by one, while a hold runs (R554). -/
  holdUntil : Option Ns
  hotOff : Bool
  restoreHold : BitVec 6
  rideTarget : Byte
  battLevel : BitVec 3
  heatBase : Byte
  tChassis : Byte
  tCx2 : Byte
  /-- LOAD low since, LOAD over the ceiling since, die hot since (R549, R565). -/
  lowSince : Option Ns
  overSince : Option Ns
  hotSince : Option Ns
  /-- Class M bytes originated for hosts in the present cycle, by lane, and that cycle (R562). -/
  mCycle : Nat
  mBytesA : Nat
  mBytesB : Nat
  cntDeeper : Word
  cntShallower : Word
  cntShed : Word
  cntOverrun : Word
  /-- Nanoseconds spent at each level, and since when the present level holds. -/
  timeNs : Vector Nat 6
  levelSince : Ns
  deriving DecidableEq, Repr

/-! ### Network sleep -/

/-- Network sleep state (SYS_MODE.SLEEP). -/
inductive SleepState | awake | settling | asleep
  deriving DecidableEq, Repr

/-- SLP registers (Table 15.8). -/
structure SlpUnit where
  st : SleepState
  holdH1 : Bool
  holdH2 : Bool
  localWake : Bool
  masterArmed : Bool
  demandCfg : BitVec 3
  sleepDelay : BitVec 12
  group : BitVec 2
  agree : BitVec 2
  trainWake : BitVec 13
  /-- Adopted SLEEP_AT while NOTICE = 1. -/
  sleepAt : Option Dword
  /-- KA_AGE counts from here (R574). -/
  kaSince : Ns
  kaDue : Option Ns
  msgNum : Half
  /-- TYPE, ORIGIN_KEY and MSG_NUM of the messages of the last second (R573). -/
  seen : List (Nat × Key × Half × Ns)
  /-- SLEEP_AT of the sleep command that armed the vertex (R579), and a notice seen since SETTLING began. -/
  armedAt : Option Dword
  noticeSeen : Bool
  noticeMade : Bool
  /-- WAKE being sent on each channel: until when and in which slot, and channels that send once attached (R585). -/
  wakeSend : Vector (Option (Ns × BitVec 2)) 2
  wakePend : Vector Bool 2
  /-- A train wake's sending has not ended; the WAKE of a host command is none (R589). -/
  wakeTrain : Bool
  /-- SLEEP_DELAY after a local wake, counted from RUN (R586). -/
  localWakeDue : Option Ns
  malformedAt : Option Ns
  cntSleep : Word
  cntCancel : Word
  cntWakeTrain : Word
  cntWakeRelay : Word
  cntWakeLocal : Word
  deriving DecidableEq, Repr

/-! ### Redundancy and configuration sets -/

/-- RED_STATUS.PAIR. -/
inductive PairSt | none | duplex | unpaired | joining
  deriving DecidableEq, Repr

/-- State of RED_CFGSET. -/
inductive CfgSetState | empty | staged | committing | forcing
  deriving DecidableEq, Repr

/-- One config item (R620). -/
structure CfgItem where
  item : Byte
  target : Byte
  data : List Byte
  deriving DecidableEq, Repr

/-- A removal being prepared or prepared (RED_LEVER). -/
inductive LeverState | none | preparing | safe | notSafe
  deriving DecidableEq, Repr

/-- RED registers (Table 16.13) and the config set. -/
structure RedUnit where
  activeB : Bool
  pair : PairSt
  peerPresent : Bool
  minorDiff : Bool
  hbLinkFault : Bool
  lever : Vector LeverState 11
  leverReq : Vector (Option (MgmtPort × Half)) 11
  /-- Units whose two views have been found to differ, the data views found then (R615), and RED_VIEW_DIFF. -/
  differs : BitVec 15
  dataSeen : BitVec 15
  viewDiff : BitVec 15
  cfgState : CfgSetState
  cfgOwner : Link
  cfgItems : List CfgItem
  cfgNext : Nat
  cfgCycle : Nat
  cfgReq : Option (MgmtPort × Half)
  cfgStatuses : List Byte
  /-- The forced item in progress started here (R626); the sequence is a profile selection (R643). -/
  itemAt : Option Ns
  /-- A wait of Table 16.10 in force: for what (0 lane A, 1 PL0) and until when. -/
  orderWait : Option (Nat × Ns)
  cfgIsProfile : Option (BitVec 2)
  /-- Place of the first item of a forced set behind the wait for lane A (Table 16.10). -/
  cfgWaitAt : Nat
  lastFo : Word
  /-- The urgent service gap of the takeover in progress, µs, once a class U frame has left (R601). -/
  gapUs : Option Nat
  cntTakeover : Word
  cntSwitchover : Word
  cntReexec : Word
  cntUnannounced : Word
  /-- Take-over step 1 to 5, its cause, standby join step 1 to 3, and their starts. -/
  toStep : Nat
  toCause : Nat
  toAt : Ns
  joinStep : Nat
  joinFails : Nat
  rejoinAt : Option Ns
  hbNextAt : Ns
  lastToken : Ns
  yield : Bool
  /-- A CX2 holds the token (R593, R609). -/
  token : Bool
  switchReq : Option (MgmtPort × Half)
  deriving DecidableEq, Repr

/-! ### Authority, identity store and firmware -/

/-- SEC registers (Table 17.10) and the spacing of their events. -/
structure SecUnit where
  cntDeniedMsg : Word
  cntDeniedWr : Word
  lastDenied : Word
  /-- Last 0xD001 or 0xD003 per port of Table 17.10, by port number. -/
  msgEvAt : Tab Ns
  wrEvAt : Option Ns
  /-- Last 0xF001 per port and attempts held back since (R727). -/
  makerAt : Tab Ns
  makerHeld : Tab Nat
  deriving DecidableEq, Repr

/-- A host operation running on a flash device (R650). -/
structure FlashOp where
  port : MgmtPort
  tag : Half
  opcode : Half
  addr : Nat
  /-- Bytes to program, or none for an erase. -/
  data : List Byte
  /-- Bytes erased from `addr`. -/
  eraseLen : Nat
  bank : Nat
  deriving DecidableEq, Repr

/-- The firmware of one CT-8: its two banks and its boot record (Table 17.7, Table 17.10). -/
structure FwState where
  /-- Bank contents: sorted cells, an unlisted byte reads 0xFF. -/
  bank0 : List Host.Cell
  bank1 : List Host.Cell
  running : Bool
  committed : Bool
  /-- Trial bank in force. -/
  trial : Option Bool
  failedStarts : Nat
  reverted : Bool
  valid0 : Bool
  valid1 : Bool
  major0 : Byte
  minor0 : Byte
  major1 : Byte
  minor1 : Byte
  op : Option FlashOp
  /-- The boot record shows a fixture attached since the last factory release (R728). -/
  fixture : Bool
  deriving DecidableEq, Repr

/-- A write of the node's own that waits for a host operation to end (R650): a swap-history record, with whether its sector is erased
first, or the calibrations. -/
inductive OwnWrite | swap (addr : Nat) (eraseFirst : Bool) (record : List Byte) | calibration
  deriving DecidableEq, Repr

/-- The identity store and the profile in force (chapter 17). -/
structure IdsUnit where
  /-- Contents of the 16 MiB flash: sorted cells, an unlisted byte reads 0xFF. -/
  flash : List Host.Cell
  op : Option FlashOp
  keyPending : Bool
  keyInvalid : Bool
  partialSel : Bool
  profFault : Bool
  selCmd : Bool
  activeProf : BitVec 2
  digest : Word
  serial : Word
  histSeq : Word
  /-- Place of the next swap-history record, of the 327,680 it holds (R658). -/
  histPos : Nat
  /-- Own writes that wait for the host operation in progress, oldest first (R650). -/
  held : List OwnWrite
  fwA : FwState
  fwB : FwState
  deriving DecidableEq, Repr

/-! ### Store room and ledger -/

/-- A record the writer has formed and not yet handed to the SR-1 (R670, R681). -/
structure PendRec where
  code : Half
  deferred : Bool
  /-- It goes to the permanent area (R674). -/
  perm : Bool
  fatal : Bool
  supp : Option Half
  payload : List Byte
  deriving DecidableEq, Repr

/-- The token bucket of one code (R677). -/
structure Bucket where
  tokens : Nat
  suppressed : Nat
  /-- When the next token comes, Cellar ticks. -/
  refillAt : Option Ns
  deriving DecidableEq, Repr

/-- An event raised while Attic was stopped (R375, R688). -/
structure DeferredEvent where
  code : Half
  data : List Byte
  mono : Dword
  time : Dword
  deriving DecidableEq, Repr

/-- The store-room writer and the SR-1 (Table 18.11). -/
structure SrmUnit where
  sr1 : Sr1
  writerOn : Bool
  pend : List PendRec
  /-- Records dropped since the last record 0xE006 (R681). -/
  dropped : Nat
  buckets : Tab Bucket
  /-- Codes already recorded since the last epoch switch or writer start (R674). -/
  seen : List Half
  permLow : Bool
  permFull : Bool
  /-- When the next time mark is due (R676). -/
  markDue : Option Ns
  /-- An SR-1 has been seated since the writer last ran: record 0xE005 is due (R683). -/
  seatDue : Bool
  deferred : List DeferredEvent
  /-- When the WR LED last began to flash for a record (Table 2.11). -/
  flashAt : Option Ns
  cntWritten : Word
  cntSuppressed : Word
  cntLost : Word
  cntRecycle : Word
  deriving DecidableEq, Repr

/-- Counts of one client in the open interval (R695). -/
structure ClientCount where
  txFrames : Nat
  rxFrames : Nat
  txOctets : Nat
  rxOctets : Nat
  deriving DecidableEq, Repr

/-- The energy share of one PW-2 in an interval: totals at its open, and what earlier cartridges of the slot gave (R696). -/
structure PwShare where
  serial : Key
  mains : Dword
  batt : Dword
  bank : Dword
  out : Dword
  accMains : Nat
  accBatt : Nat
  accBank : Nat
  accOut : Nat
  /-- It waits for the next reading of its PW-2: in the open interval for the one that begins it, in a closed one for the one that
  ends it (R696). -/
  wait : Bool
  deriving DecidableEq, Repr

/-- RUN_ID before the first time mark of a run has its SEQ (R690). -/
def runUnknown : Word := 0xFFFFFFFF

/-- One ledger interval, open or closed (R690, Tables 18.5 to 18.7). -/
structure Interval where
  runId : Word
  startMono : Dword
  startTime : Dword
  lenCode : BitVec 2
  offsetS : Byte
  flags : Half
  pwA : PwShare
  pwB : PwShare
  /-- Counts by client: entry c for CQP c, 0x10000 for CQP 0 of H1, 0x10001 for CQP 0 of H2. -/
  counts : Tab ClientCount
  endMono : Dword
  endTime : Dword
  /-- Its open record has been handed to the writer (R691). -/
  written : Bool
  /-- Train time has stepped back in it (R697). -/
  back : Bool
  deriving DecidableEq, Repr

/-- The usage ledger (Table 18.11). -/
structure LdgUnit where
  /-- LDG_CFG.LEN and OFFSET_S. -/
  len : BitVec 2
  offsetS : Byte
  runId : Word
  open_ : Option Interval
  /-- Train time of the boundary the open interval is due to close at. -/
  due : Dword
  /-- Closed intervals that wait for their last energy readings, oldest first (R696). -/
  closing : List Interval
  /-- Closed intervals kept in Cellar while Attic is stopped (R700). -/
  kept : List Interval
  /-- The standby's copy of the open interval (R699), and when the next copy is due. -/
  copy : Option Interval
  copyDue : Option Ns
  /-- The last run ended with its interval closed: in LAST_GASP, or there was none (R701, R702). -/
  clean : Bool
  cntClosed : Word
  cntFlagged : Word
  deriving DecidableEq, Repr

/-! ### Service ports and the return capsule -/

/-- The session of one service port (R718 to R720). -/
structure SpState where
  /-- The port asks for its link: set by a frame or a wake, cleared when its session closes with the link down. -/
  linkUp : Bool
  /-- Session open: Mibry's address and the time of its last frame. -/
  peer : Option Key
  lastFrame : Ns
  /-- Segments received of a message, in order, and when the first came (R718). -/
  parts : List (List Byte)
  partsAt : Option Ns
  /-- Requests answered in the last 10 s: TAG, response payload, when (R719). -/
  answered : List (Half × List Byte × Ns)
  /-- Requests taken and not answered. -/
  reqs : List MgmtReq
  /-- Events waiting for the session, and events dropped. -/
  events : List MgmtItem
  dropped : Nat
  deriving DecidableEq, Repr

/-- A return capsule in progress (R721 to R725). -/
structure CapsuleState where
  port : MgmtPort
  tag : Half
  rings : Bool
  note : Word
  /-- The capture starts at this cycle boundary, train time (R722). -/
  startAt : Nat
  deriving DecidableEq, Repr

/-- Service and capsule state (chapter 20). -/
structure SvcUnit where
  spA : SpState
  spB : SpState
  capsule : Option CapsuleState
  /-- End of the last capsule (R721). -/
  capsuleEnd : Option Ns
  deriving DecidableEq, Repr

/-! ### The node -/

/-- One TN-880 node. -/
structure State where
  /-- Commands waiting, first in first out. -/
  pending : List Instr
  /-- The model's clock, ns, and what an idle step adds to it (log entry 3). -/
  now : Ns
  quantum : Ns
  /-- How many free values have been drawn (log entry 6). -/
  freeCtr : Nat
  sys : SysUnit
  rlv : RlvUnit
  bbn : BbnUnit
  lp : Vector LinePort 8
  tc : TcUnit
  restores : List RestoreState
  plc : Vector PlcChan 2
  vx : VxUnit
  hif : HifUnit
  arb : ArbUnit
  rrw : RrwUnit
  pwr : PwrUnit
  cel : CelUnit
  bgt : BgtUnit
  slp : SlpUnit
  red : RedUnit
  sec : SecUnit
  ids : IdsUnit
  srm : SrmUnit
  ldg : LdgUnit
  svc : SvcUnit
  /-- What has left the node, oldest first. -/
  out : List Emission
  deriving DecidableEq, Repr

/-! ### Reset -/

/-- A slot with no cartridge (log entry 7). -/
def SlotState.empty : SlotState := ⟨0, false, 0, 0, 0, 0⟩

/-- A relay set as power leaves it: closed (R50). -/
def BypassState.reset : BypassState := ⟨none, true, false, false⟩

def SysUnit.reset : SysUnit :=
  { slots := Vector.replicate 11 SlotState.empty, psel := 0, plock := false, pselLive := 0, plockLive := false,
    strapChanged := false, strapMarginal := false, strapDue := none, bypA := BypassState.reset, bypB := BypassState.reset,
    fvLive := 0, fvSeen := 0, battARev := false, battBRev := false, locateUntil := none, vkey := 0, bpBuild := 0,
    hostPrsntA := false, hostPrsntB := false }

def SpanState.reset : SpanState :=
  { watch := none, nbrAt := none, hello := none, helloLast := none, foreign := false, ringEvAt := none, badEvAt := none,
    helloEvAt := none }

def EndState.reset : EndState :=
  { accepted := none, spanA := SpanState.reset, spanB := SpanState.reset, disagree := false, corr := false,
    barredHere := false, condSince := none, condKey := 0, conflict := false, withheld := false, inputsSince := none,
    disagreeSince := none, lost := none, corrDue := none, hold := none, epochDiffs := 0 }

/-- No ETB: the node has not been in interop mode. -/
def EtbUnit.reset : EtbUnit :=
  { runs := false, valid := false, counter := 0, foreign := [], native := none, helloDue := Vector.replicate 8 none }

/-- RLV after passing from OFF: ALONE at epoch 0 (R111); COUNT and ORD read 1 (Table 3.11). -/
def RlvUnit.reset : RlvUnit :=
  { st := .alone, epoch := 0, digest := 0, refKey := 0, ord := 1, refEnd := 0, estimated := false, pinned := false, barLast := false,
    interopAllow := true, plcOnly := false, poly := [], pinKey := 0, ownPin := none, pending := none, commitAt := none,
    msgNum := 0, seen := [], lastSweepAt := none, deferredSweepAt := none, backoffAt := none, gatherDue := none,
    pendingDue := none, gatherAtSwitch := false, graceUntil := none, foreignDist := 63, foreignQuietSince := none,
    end1 := EndState.reset, end2 := EndState.reset, sweepDue := Vector.replicate 8 none, etb := EtbUnit.reset, segments := [], announced := [], heldFrames := [],
    cntCommit := 0, cntAbandon := 0, cntStale := 0 }

def BbnUnit.reset : BbnUnit :=
  { laneSplit := false, gmPrio1 := 250, cycle1ms := false, speedA := 0, speedB := 0, restoredA := false, restoredB := false, cycleChangeAt := none, timeOff := 0,
    timeValid := false, syncOk := false, gm := true, offset := 0, lastSync := none, slew := 0, slewAt := 0,
    stepDue := none, firstSync := true, bmca := none, fdb := [], gmBase := 0, quietCycle := none, stepCycle := none,
    downSpans := [], uq := [], noticesA := [], noticesB := [],
    lastUA := none, lastUB := none, lastUAt := none, transit := [], txFlows := [], rxFlows := [], lateEvA := none, lateEvB := none,
    setOpen := [], setRef := [], cntUlate := 0, cntHchk := 0, cntStomp := 0, cntDup := 0, cntLate := 0, cntGap := 0,
    cntFailover := 0 }

def GateList.reset : GateList := ⟨0, 0, List.replicate 64 0⟩

/-- A port of the built-in configuration with the given role and binding (R641, Table 1.2). -/
def LinePort.reset (role : BitVec 3) : LinePort :=
  { role := role, speedCfg := 0, watch := false, wakeLink := false, csumCheck := false, maxLen := 1522, bind := 0,
    cntRestart := true, restricted := false, speedAborted := false, parDet := false, los := false, speed := .down,
    link := false, mdix := false, master := false, changing := false, test := none, phyOn := false, downInWatch := false,
    target := .down, forced := false, retryAt := none, abortNoted := false, overdueAt := none, changeAfterTest := false,
    half0 := 0, half1 := 0, cableRes0 := 0, cableRes1 := 0, wakeHit := 0, wake := Vector.replicate 4 ⟨false, 0, 0⟩,
    cnt := [], unboundEvAt := none, oversizeEvAt := none, gateEvAt := none, admitEvAt := none, sweepSince := none,
    queues := Vector.replicate 8 [], ctl := [], syncAt := none, pdelayAt := none, gptpSeq := 0, sending := none, part := none, qmap := 0x76543210,
    quanta := 0xFFFF, pfcEn := 0, defPcp := 0, fcMode := 0, xon := 128, xoff := 256, rxPauseUntil := none,
    rxPfcUntil := Vector.replicate 8 none, txPauseXoff := false, txXoff := 0, xoffRepeatAt := Vector.replicate 8 none, pauseRepeatAt := none, storm := false,
    stormUntil := none, stoppedSince := Vector.replicate 8 none, pauseFrom := none, preempt := 0x00C00A00, verify := .disabled, preemptActive := false,
    hold := false, verifyTries := 0, verifyDue := none, assembly := none, txFrame := 0, txFrag := 0, gateEn := false, activeBuf := false,
    gatePending := false, gateSwitch := 0, gcl0 := GateList.reset, gcl1 := GateList.reset, gateEntry := 0, gates := 0xFF,
    inQuota := 1024 }

def PlcChan.reset : PlcChan :=
  { cfg := 0x041E1E00, att := .detached, heldOff := false, line := .absent, freq := 0, thd := 0, volts := 0, stepAt := 0,
    retryAt := none, abortNoted := false, invalidNoted := false, heating := false, synth := false, zcOffset := 0,
    calValid := false, stale := false, cal := none, zcStored := 0, calSerial := 0, halfCycle := 10000000, winAt := 0, winStart := 0, missing := 0, slewedIn := 0, w := 5, nextW := none,
    sfNum := 0, winIdx := 0, winCount := 0, lead := 0, freeAllocs := [], role := 0, stn := 0, ownStn := 0, resignTo := none, coord := 0, coordLaneNbr := false, access := 0,
    mismatchNoted := false, timeSrc := false, firstBeacon := true, lastBeacon := 0, lastFrame := 0, gotBeacon := false, bcnSyms := 0, bcnBody := [], bcnStn := 0, rotation := 1,
    stations := [], chords := [], allocs := [], links := [], nbrs := [], urgents := [], dataQ := [], partSent := [], partial_ := [],
    txBsn := [], rxBsn := [], blocks := [], ctlQ := [], unreach := [], reported := false, soundDue := none, joinIn := none, heard := [], namedSince := none, badRlvAt := none, symbols := 0, lastDuty := 0, dutyLimit := 100,
    cntFramesTx := 0, cntFramesRx := 0, cntUTx := 0, cntURepeat := 0, cntRsCorr := 0, cntRsUncorr := 0, cntTmEarly := 0,
    cntAttachAbort := 0, cntBeaconMiss := 0, cntDeferred := 0 }

def CanChan.reset : CanChan :=
  { cfg := 0, nbt := 0, dbt := 0, cqp := 0, tec := 0, recCnt := 0, st := .stopped, busFault := false,
    bufs := Vector.replicate 3 none, mbx := 0, mbxCtrl := 0, txto := 100, flts := Vector.replicate 32 ⟨0, 0⟩, mbxPos := 0,
    mbxSeq := 1, recovering := false, integDue := 0, nextLoad := 0, nextOffer := 0, lastRx := none, evAt := [], cntRx := 0, cntTx := 0, cntTxto := 0, cntErrPassive := 0,
    cntBusoff := 0, cntMbxOvf := 0, cntRxNobuf := 0, cntRemote := 0, cntBusErr := 0 }

def PairInput.reset : PairInput :=
  { discMs := 100, debounce := 8, onLevel := 16, st := .settling, debA := false, debB := false, value := false,
    fault := false, hasA := false, hasB := false, everAgreed := false, sinceTick := none, broke := none }

def VxUnit.reset : VxUnit :=
  { can0 := CanChan.reset, can1 := CanChan.reset, pairs := Vector.replicate 4 PairInput.reset, out1Pulse := 10,
    out1Mode := 0, healthMask := 0, out0Test := none, out1Test := none, out0HoldUntil := none,
    out0Closed := false, out1Closed := false, out1Until := none }

/-- A context entry with every ring STOPPED (Tables 9.14 and 10.8). -/
def Ctx.reset : Ctx :=
  { txBase := 0, rxBase := 0, ctrl := 0, admTx := 0x01000000, admRx := 0x01000000, txState := .stopped,
    rxState := .stopped, haltIdx := 0, haltWhy := .malformed, haltTx := false, haltRx := false, txFetch := 0, txProd := 0,
    txDone := 0, rxFetch := 0, rxProd := 0, rxDone := 0, cntRxNobuf := 0, cntTx := 0, cntRx := 0, txPend := [],
    rxFree := [], rxWait := [], stopReqs := [], redo := [] }

def CqState.reset : CqState :=
  { base := 0, en := false, link := .h1, vec := 0, sizeLog2 := 0, urgNow := false, timer := 0, count := 1, pos := 0,
    pass := false, full := false, pend := [], since := 0, firstAt := none }

def EndpointState.reset : EndpointState :=
  { power := .down, gen := 0, width := 0, pendingLo := [], latchHi := [], msix := [], pba := 0, aspmL1 := false,
    d3hot := false, atomicOp := false, memSpace := false, busMaster := false, maxPayload := 128, maxRead := 512, wakeN := false }

def HifLink.reset : HifLink :=
  { mgmtEn := false, db := 0, shadow := 0, ctx0 := Ctx.reset, hmem := [], items := [], dropped := 0, reqs := [],
    scanNoted := false, readFailAt := none, wakeLatch := 0, wakeDue := false }

def HifUnit.reset : HifUnit :=
  { h1 := HifLink.reset, h2 := HifLink.reset, ctxs := [], cqs := Vector.replicate 16 CqState.reset, h2Base := 768,
    epH1A := EndpointState.reset, epH2A := EndpointState.reset, epH1B := EndpointState.reset,
    epH2B := EndpointState.reset }

def ArbUnit.reset : ArbUnit :=
  { burst := 2, fixed := false, ageN := 16, cls := 0xFFFA9400, req := 0, grant := 0, grantValid := false, ageCount := 0,
    pointers := Vector.replicate 4 15, waitSince := Vector.replicate 16 none, decisions := 0, bLimit := 640,
    cntCongestion := 0, cntBudget := 0, cntTransit := 0, refusedAt := [] }

def RrwUnit.reset : RrwUnit :=
  { defTimeout := 20, accept := false, locked := false, broken := false, lockId := 0, lockKey := 0, grantAt := 0,
    leaseEnd := 0, leaseLen := 0, held := [], open_ := [], nextReqId := 0, cntSent := 0,
    cntTimeout := 0, cntLateRsp := 0, cntLateErr := 0, cntServed := 0, cntRefused := 0, cntBroken := 0 }

def PwUnit.reset : PwUnit :=
  { st := .absent, mainsPres := false, mainsQual := false, mainsInvalid := false, battPres := false, battQual := false,
    battRev := false, battOv := false, outFault := false, hbWait := false, bankFull := false, bankLow := false,
    test := none, mainsFreq := 0, mainsV := 0, battI := 0, battV := 0, cap := 0, energy := 0, inPower := 0,
    outPower := 0, serial := 0, eMains := 0, eBatt := 0, eBank := 0, eOut := 0, cntHandover := 0, cntHandback := 0,
    cntQualRestart := 0, mainsSince := none, battSince := none, lowHalves := 0, oddHalves := 0, slowLine := false, moving := none, lastHandback := none, restartEvM := none,
    restartEvB := none }

def PwrUnit.reset : PwrUnit :=
  { a := PwUnit.reset, b := PwUnit.reset, mainsBand := 0, chgOnBatt := true, rideS := 0, load := 0, bankEmpty := false }

def CelUnit.reset : CelUnit :=
  { pstate := .off, step := 0, stepAt := 0, latch := .none, warm := false, stepFail := false, fails := 0,
    retryAt := none, monoRestart := false, xtalFault := false, xtalPpm := 0, xtalOk := false, refOk := false,
    coreLock := false, serdesLock := false, bootHold := false, cfgNext := none, inWake := 0, monoBase := 0, monoAt := 0, wakeCause := 0,
    wakeFirst := 0, wakeTick := 0, timerAt := none, energyHold := false, heatHold := false, coldNext := true, offSince := none, gaspState := 0,
    gaspStep := 0, gaspSource := 0, fromRun := false, turnCause := 0, turnFirst := 0, cntRise := 0, cntFall := 0,
    cntReverse := 0, cntLastgasp := 0, cntStepFail := 0 }

def BgtUnit.reset : BgtUnit :=
  { level := 0, srcCap := 0, energyCap := 0, heatCap := 0, loadCap := 0, hostCap := 0, hostCapUntil := none,
    holdUntil := none, hotOff := false, restoreHold := 2,
    rideTarget := 60, battLevel := 1, heatBase := 100, tChassis := 0, tCx2 := 0, lowSince := none, overSince := none,
    hotSince := none, mCycle := 0, mBytesA := 0, mBytesB := 0,
    cntDeeper := 0, cntShallower := 0, cntShed := 0, cntOverrun := 0, timeNs := Vector.replicate 6 0, levelSince := 0 }

def SlpUnit.reset : SlpUnit :=
  { st := .awake, holdH1 := false, holdH2 := false, localWake := false, masterArmed := false, demandCfg := 2,
    sleepDelay := 30, group := 0, agree := 1, trainWake := 0x1BFE, sleepAt := none, kaSince := 0, kaDue := none,
    msgNum := 0, seen := [], armedAt := none, noticeSeen := false, noticeMade := false,
    wakeSend := Vector.replicate 2 none, wakePend := Vector.replicate 2 false, wakeTrain := false, localWakeDue := none, malformedAt := none, cntSleep := 0,
    cntCancel := 0, cntWakeTrain := 0, cntWakeRelay := 0, cntWakeLocal := 0 }

def RedUnit.reset : RedUnit :=
  { activeB := false, pair := .none, peerPresent := false, minorDiff := false, hbLinkFault := false,
    lever := Vector.replicate 11 .none, leverReq := Vector.replicate 11 none, differs := 0, dataSeen := 0, viewDiff := 0,
    cfgState := .empty, cfgOwner := .h1, cfgItems := [], cfgNext := 0, cfgCycle := 0, cfgReq := none, cfgStatuses := [],
    itemAt := none, orderWait := none, cfgIsProfile := none, cfgWaitAt := 0, lastFo := 0, gapUs := none, cntTakeover := 0, cntSwitchover := 0,
    cntReexec := 0, cntUnannounced := 0, toStep := 0, toCause := 0, toAt := 0, joinStep := 0, joinFails := 0,
    rejoinAt := none, hbNextAt := 0, lastToken := 0, yield := false, token := false, switchReq := none }

def SecUnit.reset : SecUnit :=
  { cntDeniedMsg := 0, cntDeniedWr := 0, lastDenied := 0, msgEvAt := [], wrEvAt := none, makerAt := [], makerHeld := [] }

/-- Firmware as the model takes it: bank 0 runs and is committed, bank 1 is erased (log entry 8). -/
def FwState.reset : FwState :=
  { bank0 := [], bank1 := [], running := false, committed := false, trial := none, failedStarts := 0, reverted := false,
    valid0 := true, valid1 := false, major0 := 1, minor0 := 0, major1 := 0, minor1 := 0, op := none, fixture := false }

def IdsUnit.reset : IdsUnit :=
  { flash := [], op := none, keyPending := false, keyInvalid := false, partialSel := false, profFault := false,
    selCmd := false, activeProf := 0, digest := 0, serial := 0, histSeq := 0, histPos := 0, held := [], fwA := FwState.reset,
    fwB := FwState.reset }

/-- An MRAM segment that has never been written. -/
def Segment.blank : Segment := ⟨false, 0, 0, 0, []⟩

/-- An SR-1 that has never held a record (log entry 9). -/
def Sr1Blank : Sr1 :=
  { serial := 0, nextSeq := 0, perm := Segment.blank, detail := List.replicate 7 Segment.blank, cur := 0, seqEnd := false }

def SrmUnit.reset : SrmUnit :=
  { sr1 := Sr1Blank, writerOn := false, pend := [], dropped := 0, buckets := [], seen := [], permLow := false,
    permFull := false, markDue := none, seatDue := false, deferred := [], flashAt := none, cntWritten := 0, cntSuppressed := 0, cntLost := 0,
    cntRecycle := 0 }

def LdgUnit.reset : LdgUnit :=
  { len := 1, offsetS := 0, runId := runUnknown, open_ := none, due := 0, closing := [], kept := [], copy := none, copyDue := none,
    clean := true, cntClosed := 0, cntFlagged := 0 }

def SpState.reset : SpState :=
  { linkUp := false, peer := none, lastFrame := 0, parts := [], partsAt := none, answered := [], reqs := [], events := [], dropped := 0 }

def SvcUnit.reset : SvcUnit :=
  { spA := SpState.reset, spB := SpState.reset, capsule := none, capsuleEnd := none }

/-- The roles of Table 1.2: LP0 and LP1 lane A End 1 and End 2, LP2 and LP3 lane B End 1 and End 2, LP4 to LP7 consist. -/
def portRoles : Vector LinePort 8 :=
  #v[LinePort.reset 2, LinePort.reset 3, LinePort.reset 4, LinePort.reset 5, LinePort.reset 1, LinePort.reset 1,
    LinePort.reset 1, LinePort.reset 1]

/-- The node right after reset: OFF, every register at the value of its card, the built-in configuration, no cartridge
reported, no command waiting. -/
def State.reset : State :=
  { pending := [], now := 0, quantum := 1000, freeCtr := 0, sys := SysUnit.reset, rlv := RlvUnit.reset,
    bbn := BbnUnit.reset, lp := portRoles, tc := ⟨7, 6, 5, none⟩, restores := [], plc := Vector.replicate 2 PlcChan.reset,
    vx := VxUnit.reset, hif := HifUnit.reset, arb := ArbUnit.reset, rrw := RrwUnit.reset, pwr := PwrUnit.reset,
    cel := CelUnit.reset, bgt := BgtUnit.reset, slp := SlpUnit.reset, red := RedUnit.reset, sec := SecUnit.reset,
    ids := IdsUnit.reset, srm := SrmUnit.reset, ldg := LdgUnit.reset, svc := SvcUnit.reset, out := [] }

end Sys2Proof.Machine
end

