-- ==== Sys2Proof/Machine/Frames.lean ====
section
/-! DEFINITION. Layouts of what travels on the lanes: the native frame (Table 4.2), Rolavo messages (Tables 3.2 to 3.6), the
lane notice (Table 4.6) and the restore frame of R214, each as an encoder and a decoder that refuses what the spec refuses. -/
namespace Sys2Proof.Machine

/-! ### Native frame -/

/-- Destination key of the vertex at the other end of a span (R80). -/
def spanKey : Key := 0xFFFFFFFFFFFF
/-- Destination key of every vertex (Table 4.2, R400). -/
def allKey : Key := 0xFFFFFFFFFFFE
/-- Flow label of Rolavo messages and notices (R80). -/
def nodeLabel : BitVec 12 := 0xFFF

/-- Destination MAC address of a native frame on a lane (R150). -/
def natDst : List Byte := toBE 6 0x030088B50000
/-- The source MAC address: SRC_KEY with bit 0 of its first octet cleared and bit 1 set (R150). -/
def natSrcMac (k : Key) : List Byte := toBE 6 ((k ||| 0x020000000000) &&& 0xFEFFFFFFFFFF).toNat
/-- EtherType of native frames and of SP frames. -/
def nativeType : List Byte := [0x88, 0xB5]

/-- Bytes 0 to 25 of the native header (Table 4.2). -/
def natHead (f : NatFrame) : List Byte :=
  toBE 1 (0x10 + f.cls.toNat * 4 + bit f.raw * 2 + bit f.lane)
  ++ toBE 1 (f.pcp.toNat * 32 + bit f.sync * 16 + bit f.retx * 8)
  ++ toBE 2 f.epoch.toNat ++ toBE 6 f.src.toNat ++ toBE 6 f.dst.toNat ++ toBE 2 f.srcCqp.toNat ++ toBE 2 f.dstCqp.toNat
  ++ toBE 2 (f.label.toNat * 16) ++ toBE 2 f.fseq.toNat ++ toBE 2 f.payload.length

/-- The native header with HCHK (Table 4.2). -/
def natHeader (f : NatFrame) : List Byte := natHead f ++ toBE 2 (crc16 (natHead f)).toNat

/-- Header and payload, as PLC segments carry a native frame (R312). -/
def natBytes (f : NatFrame) : List Byte := natHeader f ++ f.payload

/-- A native frame on a lane, without FCS: padded with zeros to the 64-byte minimum (R150, R152). -/
def encodeNative (f : NatFrame) : List Byte :=
  let b := natDst ++ natSrcMac f.src ++ nativeType ++ natBytes f
  b ++ List.replicate (60 - b.length) 0

/-- The fields of a header and what follows it, with R153's checks on the header: HCHK, VERSION, reserved encodings. -/
def decodeHeader (h : List Byte) : Option NatFrame :=
  if h.length < 28 then none
  else if toBE 2 (crc16 (h.take 26)).toNat != slice h 26 2 then none
  else
    let b0 := byteAt h 0
    let b1 := byteAt h 1
    let sc := beAt h 16 2
    let dc := beAt h 18 2
    let fl := beAt h 20 2
    let src := beAt h 4 6
    let dst := beAt h 10 6
    if b0 / 16 ≠ 1 || b1 % 8 ≠ 0 || 1024 ≤ sc || 1024 ≤ dc || fl % 16 ≠ 0 || src = 0 || dst = 0 then none
    else some
      { cls := BitVec.ofNat 2 (bitsOf b0 2 2), raw := bitOf b0 1, lane := bitOf b0 0, pcp := BitVec.ofNat 3 (b1 / 32),
        sync := bitOf b1 4, retx := bitOf b1 3, epoch := BitVec.ofNat 16 (beAt h 2 2), src := mkKey src, dst := mkKey dst,
        srcCqp := BitVec.ofNat 10 sc, dstCqp := BitVec.ofNat 10 dc, label := BitVec.ofNat 12 (fl / 16),
        fseq := BitVec.ofNat 16 (beAt h 22 2), payload := [] }

/-- A native frame received on a lane, whole and without FCS (R150 to R153): none where it is discarded. -/
def decodeNative (b : List Byte) : Option NatFrame :=
  if b.take 6 != natDst then none
  else
    let rest := b.drop 14
    match decodeHeader rest with
    | none => none
    | some f =>
      let n := beAt rest 24 2
      let have_ := rest.length - 28
      if have_ < n then none
      else if 60 < b.length && have_ ≠ n then none
      else some { f with payload := slice rest 28 n }

/-- A native frame as carried by PLC segments: exactly PAY_LEN bytes follow the header (R312). -/
def decodeNatBytes (b : List Byte) : Option NatFrame :=
  match decodeHeader b with
  | none => none
  | some f => if b.length - 28 ≠ beAt b 24 2 then none else some { f with payload := b.drop 28 }

/-! ### Rolavo messages -/

/-- A polyline entry, 16 bytes (Table 3.3). -/
def encodeEntry (e : PolyEntry) : List Byte :=
  toBE 6 e.key.toNat ++ toBE 1 e.ord.toNat
  ++ toBE 1 (bit e.held * 128 + bit e.plcOnly * 64 + bit e.corr * 32 + bit e.laneB * 16 + bit e.laneA * 8
      + bit e.duplex * 4 + e.endF.toNat)
  ++ toBE 4 e.epoch.toNat ++ toBE 1 (e.speedB.toNat * 16 + e.speedA.toNat) ++ toBE 1 (bit e.interopOk) ++ [0, 0]

/-- A polyline entry, none for a reserved encoding (Table 3.3, R118). -/
def decodeEntry (b : List Byte) : Option PolyEntry :=
  let f := byteAt b 7
  let sp := byteAt b 12
  if b.length ≠ 16 || f % 4 = 0 || 2 < sp / 16 || 2 < sp % 16 || 1 < byteAt b 13 || leAt b 14 2 ≠ 0 then none
  else some
    { key := mkKey (beAt b 0 6), ord := BitVec.ofNat 8 (byteAt b 6), held := bitOf f 7, plcOnly := bitOf f 6,
      corr := bitOf f 5, laneB := bitOf f 4, laneA := bitOf f 3, duplex := bitOf f 2, endF := BitVec.ofNat 2 f,
      epoch := BitVec.ofNat 32 (beAt b 8 4), speedB := BitVec.ofNat 4 (sp / 16), speedA := BitVec.ofNat 4 (sp % 16),
      interopOk := bitOf (byteAt b 13) 0 }

/-- `n` entries one after another. -/
def decodeEntries : Nat → List Byte → Option (List PolyEntry)
  | 0, [] => some []
  | 0, _ => none
  | n + 1, b =>
    match decodeEntry (b.take 16), decodeEntries n (b.drop 16) with
    | some e, some es => some (e :: es)
    | _, _ => none

/-- Body of `sweep` (Table 3.4). -/
def encodeSweep (w : Sweep) : List Byte :=
  toBE 1 (w.scope.toNat * 64 + bit w.end2 * 32 + bit w.cplOk * 16 + bit w.pinSet * 8 + bit w.barred * 4 + bit w.overflow * 2)
  ++ toBE 1 w.foreignDist.toNat ++ toBE 1 w.entries.length ++ [0] ++ toBE 4 w.epoch.toNat ++ toBE 4 w.digest.toNat
  ++ toBE 6 w.pinKey.toNat ++ [0, 0] ++ (w.entries.map encodeEntry).flatten

/-- Body of `sweep`, none for a reserved encoding (R118). -/
def decodeSweep (b : List Byte) : Option Sweep :=
  let f := byteAt b 0
  let n := byteAt b 2
  if b.length < 20 || f / 64 = 3 || f % 2 ≠ 0 || 63 < byteAt b 1 || 63 < n || (f / 64 ≠ 2 && n ≠ 0) || byteAt b 3 ≠ 0
      || leAt b 18 2 ≠ 0 then none
  else (decodeEntries n (b.drop 20)).map fun es =>
    { scope := BitVec.ofNat 2 (f / 64), end2 := bitOf f 5, cplOk := bitOf f 4, pinSet := bitOf f 3, barred := bitOf f 2,
      overflow := bitOf f 1, foreignDist := BitVec.ofNat 6 (byteAt b 1), epoch := BitVec.ofNat 32 (beAt b 4 4),
      digest := BitVec.ofNat 32 (beAt b 8 4), pinKey := mkKey (beAt b 12 6), entries := es }

/-- Body of `tally` (Table 3.5). -/
def encodeTally (t : Tally) : List Byte :=
  toBE 4 t.newEpoch.toNat ++ toBE 4 t.newDigest.toNat ++ toBE 6 t.refKey.toNat ++ toBE 6 t.pinKey.toNat
  ++ toBE 1 (bit t.nak * 128 + bit t.pinApplied * 64 + bit t.replay * 32 + bit t.estimated * 16 + bit t.barLast * 8)
  ++ toBE 1 t.entries.length ++ toBE 6 t.nakKey.toNat ++ toBE 1 t.nakReason.toNat ++ [0, 0, 0]
  ++ (t.entries.map encodeEntry).flatten

/-- Body of `tally`, none for a reserved encoding (R118). -/
def decodeTally (b : List Byte) : Option Tally :=
  let f := byteAt b 20
  let n := byteAt b 21
  if b.length < 32 || f % 8 ≠ 0 || n = 0 || 63 < n || 4 < byteAt b 28 || leAt b 29 3 ≠ 0 then none
  else (decodeEntries n (b.drop 32)).map fun es =>
    { newEpoch := BitVec.ofNat 32 (beAt b 0 4), newDigest := BitVec.ofNat 32 (beAt b 4 4), refKey := mkKey (beAt b 8 6),
      pinKey := mkKey (beAt b 14 6), nak := bitOf f 7, pinApplied := bitOf f 6, replay := bitOf f 5, estimated := bitOf f 4,
      barLast := bitOf f 3, nakKey := mkKey (beAt b 22 6), nakReason := BitVec.ofNat 8 (byteAt b 28), entries := es }

/-- Body of `commit` (R116). -/
def encodeCommit (c : Commit) : List Byte :=
  toBE 4 c.newEpoch.toNat ++ toBE 4 c.newDigest.toNat ++ toBE 4 c.cycle.toNat ++ List.replicate 8 0

/-- Body of `commit`. -/
def decodeCommit (b : List Byte) : Option Commit :=
  if b.length ≠ 20 || leAt b 12 8 ≠ 0 then none
  else some ⟨BitVec.ofNat 32 (beAt b 0 4), BitVec.ofNat 32 (beAt b 4 4), BitVec.ofNat 32 (beAt b 8 4)⟩

/-- Body of `hold_open` (Table 3.6). -/
def encodeHoldOpen (h : HoldOpen) : List Byte :=
  toBE 1 (h.action.toNat * 64) ++ toBE 1 h.ordFirst.toNat ++ toBE 1 h.ordLast.toNat ++ [0] ++ toBE 4 h.epoch.toNat
  ++ toBE 4 h.digest.toNat ++ toBE 2 h.remain.toNat ++ [0, 0]

/-- Body of `hold_open`, none for a reserved encoding (R118). -/
def decodeHoldOpen (b : List Byte) : Option HoldOpen :=
  let f := byteAt b 0
  if b.length ≠ 16 || f / 64 = 3 || f % 64 ≠ 0 || byteAt b 3 ≠ 0 || leAt b 14 2 ≠ 0 then none
  else some
    { action := BitVec.ofNat 2 (f / 64), ordFirst := BitVec.ofNat 8 (byteAt b 1), ordLast := BitVec.ofNat 8 (byteAt b 2),
      epoch := BitVec.ofNat 32 (beAt b 4 4), digest := BitVec.ofNat 32 (beAt b 8 4),
      remain := BitVec.ofNat 16 (beAt b 12 2) }

/-- TYPE of a body (Table 3.2). -/
def rlvType : RlvBody → Nat
  | .sweep _ => 1
  | .tally _ => 2
  | .commit _ => 3
  | .holdOpen _ => 4

/-- A body's bytes. -/
def encodeRlvBody : RlvBody → List Byte
  | .sweep b => encodeSweep b
  | .tally b => encodeTally b
  | .commit b => encodeCommit b
  | .holdOpen b => encodeHoldOpen b

/-- A Rolavo message: common header and body (Table 3.2). -/
def encodeRlv (m : RlvMsg) : List Byte :=
  toBE 1 (0x10 + rlvType m.body) ++ [0] ++ toBE 2 (encodeRlvBody m.body).length ++ toBE 6 m.origin.toNat
  ++ toBE 2 m.msgNum.toNat ++ toBE 1 m.hops.toNat ++ [0, 0, 0] ++ encodeRlvBody m.body

/-- A Rolavo message, none where R118 discards it: VERSION, a reserved encoding, or a LENGTH that does not match. -/
def decodeRlv (b : List Byte) : Option RlvMsg :=
  let body := b.drop 16
  if b.length < 16 || byteAt b 0 / 16 ≠ 1 || byteAt b 1 ≠ 0 || beAt b 2 2 ≠ body.length || leAt b 13 3 ≠ 0 then none
  else
    let parsed : Option RlvBody :=
      match byteAt b 0 % 16 with
      | 1 => (decodeSweep body).map .sweep
      | 2 => (decodeTally body).map .tally
      | 3 => (decodeCommit body).map .commit
      | 4 => (decodeHoldOpen body).map .holdOpen
      | _ => none
    parsed.map fun p =>
      { origin := mkKey (beAt b 4 6), msgNum := BitVec.ofNat 16 (beAt b 10 2), hops := BitVec.ofNat 8 (byteAt b 12), body := p }

/-- The digest of a polyline: CRC-32C over its keys from ordinal 1 upwards, each most significant byte first (R110). -/
def digestOf (keys : List Key) : Word := crc32c (keys.map fun k => toBE 6 k.toNat).flatten

/-! ### Lane notice and restore frame -/

/-- Payload of a lane notice (Table 4.6). -/
def encodeNotice (n : NoticeDue) (epoch : Word) : List Byte :=
  toBE 1 (Nat.add (match n.lane with | .a => 0 | .b => 128) (bit n.up * 64)) ++ toBE 1 n.low ++ toBE 1 n.high ++ [0]
  ++ toBE 4 epoch.toNat

/-- Payload of a lane notice, with the sender's epoch. -/
def decodeNotice (b : List Byte) : Option (NoticeDue × Word) :=
  if b.length ≠ 8 || byteAt b 0 % 64 ≠ 0 || byteAt b 3 ≠ 0 then none
  else some (⟨if bitOf (byteAt b 0) 7 then .b else .a, bitOf (byteAt b 0) 6, byteAt b 1, byteAt b 2⟩,
    BitVec.ofNat 32 (beAt b 4 4))

/-- Payload of the lane restore frame (R214). -/
def encodeRestore (l : Lane) (cycle : Nat) : List Byte :=
  toBE 1 (match l with | .a => 0 | .b => 128) ++ [0, 0, 0] ++ toBE 4 cycle

/-- Payload of the lane restore frame: its lane and the low 32 bits of its target cycle. -/
def decodeRestore (b : List Byte) : Option (Lane × Nat) :=
  if b.length ≠ 8 || byteAt b 0 % 128 ≠ 0 || leAt b 1 3 ≠ 0 then none
  else some (if bitOf (byteAt b 0) 7 then .b else .a, beAt b 4 4)

/-! ### Management messages -/

/-- A management message: header and body (Table 9.10). -/
def encodeMgmt (i : MgmtItem) : List Byte :=
  toLE 2 i.opcode.toNat ++ toLE 2 i.tag.toNat ++ toLE 2 i.body.length ++ toLE 1 i.status.toNat
  ++ toLE 1 (bit i.event * 2 + bit i.more) ++ i.body

/-- The size class of a frame and its minimum: bytes on the wire with FCS. -/
def wireLen (b : List Byte) : Nat := b.length + 4

end Sys2Proof.Machine
end

