-- ==== Sys2Proof/Config.lean ====
section
/-! DEFINITION. What one node fixes and the spec leaves open: constants without a body, so that no proof can see a value.
A statement about one of them holds for every value (log entries 6 and 8). -/
namespace Sys2Proof.Config

/-- SYS_ID.VENDOR: Oswaine's assigned ID, which the spec does not print (Table 0.7). -/
opaque vendorId : Half
/-- CX2_STEP of the controller of CT-A (false) or CT-B (true) (Table 0.8). -/
opaque cx2Step : Bool → Byte
/-- Whether a firmware bank with these contents passes the boot loader's check of its header, signature and CRC; the spec
gives no image format (R661, R663). -/
opaque fwImageValid : List Host.Cell → Bool
/-- FW_MAJOR and FW_MINOR that a valid image with these contents names (Table 17.10). -/
opaque fwImageMajor : List Host.Cell → Byte
opaque fwImageMinor : List Host.Cell → Byte
/-- BP_BUILD as the factory region of the identity store holds it; the spec gives the region no layout (Tables 0.8, 17.6). -/
opaque bpBuild : List Host.Cell → Byte
/-- The backplane serial as the factory region of the identity store holds it (R683). -/
opaque bpSerial : List Host.Cell → Key
/-- The MAC address of the service port of CT-A (false) or CT-B (true); the spec prints none (R718). -/
opaque spMac : Bool → Key
/-- The n-th free value a step draws where the spec states none. -/
opaque freeValue : Nat → Nat

end Sys2Proof.Config
end

