-- ==== Sys2Proof/Machine/Ops.lean ====
section
/-! DEFINITION. The named operations every meaning is written with: clocks, memory, the accessors of the state's parts,
the order of events on CQP 0 and the store-room writer. -/
namespace Sys2Proof.Machine

/-! ### Durations and clocks -/

/-- `n` microseconds in ns. -/
def us (n : Nat) : Ns := n * 1000
/-- `n` milliseconds in ns. -/
def ms (n : Nat) : Ns := n * 1000000
/-- `n` seconds in ns. -/
def sec (n : Nat) : Ns := n * 1000000000
/-- `n` Cellar ticks of 976,562.5 ns, rounded up to a whole ns (R4). -/
def ticksNs (n : Ticks) : Ns := (n * 1953125 + 1) / 2
/-- Whole Cellar ticks in a duration (R4). -/
def nsTicks (d : Ns) : Ticks := 2 * d / 1953125

/-- A timer is due. -/
def due (t : Option Ns) (s : State) : Bool :=
  match t with
  | some d => d ≤ s.now
  | none => false

/-- More than `d` has passed since `t`, or `t` never was: the spacing rules "at most once per". -/
def spaced (t : Option Ns) (d : Ns) (s : State) : Bool :=
  match t with
  | some x => x + d ≤ s.now
  | none => true

/-- The backbone cycle in ns (R156). -/
def cycleNs (s : State) : Ns := if s.bbn.cycle1ms then 1000000 else 500000
/-- How much of the correction in progress has been slewed: 50 ns in each cycle since it began (R188). -/
def slewDone (s : State) : Int :=
  let k : Nat := 50 * ((s.now - s.bbn.slewAt) / cycleNs s)
  if s.bbn.slew.natAbs ≤ k then s.bbn.slew else if s.bbn.slew < 0 then -(k : Int) else (k : Int)
/-- Train time (R5): the model's clock with the vertex's offset and what has been slewed, modulo 2^64. -/
def trainTime (s : State) : Dword := BitVec.ofNat 64 s.now + s.bbn.timeOff + BitVec.ofInt 64 (slewDone s)
/-- Train time as a number. -/
def ttime (s : State) : Nat := (trainTime s).toNat
/-- CEL_MONO, the Cellar monotonic count (R519). -/
def mono (s : State) : Nat := s.cel.monoBase + nsTicks (s.now - s.cel.monoAt)
/-- The cycle index: train time divided by the cycle length, rounded down (R116). -/
def cycleIdx (s : State) : Nat := ttime s / cycleNs s
/-- Train time since the start of the present cycle. -/
def cyclePos (s : State) : Ns := ttime s % cycleNs s

/-! ### What runs -/

/-- The controllers are changing over: from Step 2 to the end of Step `last` of Table 16.3, or from the cycle boundary of a planned
switchover on (R600, R608). -/
def handingOver (last : Nat) (s : State) : Bool :=
  decide (1 ≤ s.red.toStep) && decide (s.red.toStep ≤ last) && !(s.red.toStep == 1 && decide (s.now < s.red.toAt))

/-- Frames are forwarded and neighbours accepted: from the start of S6 to the end of F7 (R527, Table 13.6), not in Steps 1 to 3 of a
takeover (R602). -/
def lanesRun (s : State) : Bool :=
  (match s.cel.pstate with
   | .run => true
   | .rising => decide (6 ≤ s.cel.step)
   | .falling => decide (7 ≤ s.cel.step)
   | _ => false) && !handingOver 3 s

/-- Class U originates: in RUN (R527), not before Step 5 of a takeover (Table 16.3). -/
def urgentRuns (s : State) : Bool := s.cel.pstate == .run && !handingOver 5 s

/-! ### Memory -/

/-- The byte at `a`, `d` where none is listed. -/
def memGet (d : Byte) : List Host.Cell → Nat → Byte
  | [], _ => d
  | (i, v) :: rest, a => if i = a then v else memGet d rest a

/-- Byte `v` stored at `a`; a byte equal to `d` is not listed. -/
def memPut (d : Byte) : List Host.Cell → Nat → Byte → List Host.Cell
  | [], a, v => if v = d then [] else [(a, v)]
  | (i, x) :: rest, a, v =>
    if a < i then (if v = d then (i, x) :: rest else (a, v) :: (i, x) :: rest)
    else if a = i then (if v = d then rest else (a, v) :: rest)
    else (i, x) :: memPut d rest a v

/-- Every listed address lies above `lo` (none: from 0 on), addresses rise strictly, no listed byte is `d`. -/
def memWfFrom (d : Byte) : Option Nat → List Host.Cell → Bool
  | _, [] => true
  | lo, (i, v) :: rest =>
    (match lo with | none => true | some l => decide (l < i)) && decide (v ≠ d) && memWfFrom d (some i) rest

/-- The canonical form of a memory whose unlisted bytes read `d`. -/
def memWf (d : Byte) (m : List Host.Cell) : Bool := memWfFrom d none m

/-- Bytes stored from `a` upwards. -/
def memStore (d : Byte) : List Host.Cell → Nat → List Byte → List Host.Cell
  | m, _, [] => m
  | m, a, b :: bs => memStore d (memPut d m a b) (a + 1) bs

/-- `n` bytes read from `a` upwards. -/
def memLoad (d : Byte) (m : List Host.Cell) (a : Nat) : Nat → List Byte
  | 0 => []
  | n + 1 => memGet d m a :: memLoad d m (a + 1) n

/-- Single-byte stores in order, whatever their order and addresses: what a host's stores do. -/
def memMerge (d : Byte) : List Host.Cell → List Host.Cell → List Host.Cell
  | m, [] => m
  | m, (a, v) :: rest => memMerge d (memPut d m a v) rest

/-- What an unlisted byte of host memory reads as (log entry 4). -/
def hostFill : Byte := 0
/-- What an erased byte of flash reads as (chapter 17). -/
def flashFill : Byte := 0xFF

/-! ### Parts of the state -/

/-- A host link's own state. -/
def hlink (l : Link) (s : State) : HifLink := match l with | .h1 => s.hif.h1 | .h2 => s.hif.h2
/-- A host link's own state, changed. -/
def modLink (l : Link) (f : HifLink → HifLink) (s : State) : State :=
  match l with
  | .h1 => { s with hif.h1 := f s.hif.h1 }
  | .h2 => { s with hif.h2 := f s.hif.h2 }

/-- An endpoint's own state. -/
def endpoint (e : Endpoint) (s : State) : EndpointState :=
  match e.link, e.ct with
  | .h1, .a => s.hif.epH1A
  | .h2, .a => s.hif.epH2A
  | .h1, .b => s.hif.epH1B
  | .h2, .b => s.hif.epH2B
/-- An endpoint's own state, changed. -/
def modEndpoint (e : Endpoint) (f : EndpointState → EndpointState) (s : State) : State :=
  match e.link, e.ct with
  | .h1, .a => { s with hif.epH1A := f s.hif.epH1A }
  | .h2, .a => { s with hif.epH2A := f s.hif.epH2A }
  | .h1, .b => { s with hif.epH1B := f s.hif.epH1B }
  | .h2, .b => { s with hif.epH2B := f s.hif.epH2B }

/-- The active controller (RED_STATUS.ACTIVE_SLOT). -/
def activeCt (s : State) : Ct := if s.red.activeB then .b else .a
/-- The endpoint of a link that carries traffic: that of the active controller. -/
def activeEp (l : Link) (s : State) : Endpoint := ⟨l, activeCt s⟩
/-- The endpoint belongs to the active controller (R387). -/
def epActive (e : Endpoint) (s : State) : Bool := e.ct == activeCt s

/-- HOST_PRSNT# is low on a row (R78). -/
def prsnt (c : Ct) (s : State) : Bool := match c with | .a => s.sys.hostPrsntA | .b => s.sys.hostPrsntB

/-- HOST_PRSNT# of a row as it is found. -/
def setPrsnt (c : Ct) (v : Bool) (s : State) : State :=
  match c with
  | .a => { s with sys.hostPrsntA := v }
  | .b => { s with sys.hostPrsntB := v }

/-- The endpoint's link is in L0 with a host on its row, so that accesses through it reach the node (R78, R79). -/
def inL0 (e : Endpoint) (s : State) : Bool := (endpoint e s).power == .l0 && prsnt e.ct s

/-- What a controller's endpoints lose when it starts or restarts: pending _LO writes and latched _HI values (R731). -/
def endpointsStart (c : Ct) (s : State) : State :=
  let f := fun (e : EndpointState) => { e with pendingLo := [], latchHi := [] }
  modEndpoint ⟨.h2, c⟩ f (modEndpoint ⟨.h1, c⟩ f s)

/-- A line port. -/
def port (n : PortNo) (s : State) : LinePort := s.lp[n]
/-- A line port, changed. -/
def modPort (n : PortNo) (f : LinePort → LinePort) (s : State) : State := { s with lp := s.lp.set n (f s.lp[n]) }

/-- A power-line channel. -/
def plc (c : Chan) (s : State) : PlcChan := s.plc[c]
/-- A power-line channel, changed. -/
def modPlc (c : Chan) (f : PlcChan → PlcChan) (s : State) : State := { s with plc := s.plc.set c (f s.plc[c]) }

/-- A CAN channel. -/
def can (c : Chan) (s : State) : CanChan := if c = 0 then s.vx.can0 else s.vx.can1
/-- A CAN channel, changed. -/
def modCan (c : Chan) (f : CanChan → CanChan) (s : State) : State :=
  if c = 0 then { s with vx.can0 := f s.vx.can0 } else { s with vx.can1 := f s.vx.can1 }

/-- A PW-2. -/
def pw (m : PwNo) (s : State) : PwUnit := if m = 0 then s.pwr.a else s.pwr.b
/-- A PW-2, changed. -/
def modPw (m : PwNo) (f : PwUnit → PwUnit) (s : State) : State :=
  if m = 0 then { s with pwr.a := f s.pwr.a } else { s with pwr.b := f s.pwr.b }

/-- An end of this vertex. -/
def endOf (e : End) (s : State) : EndState := match e with | .e1 => s.rlv.end1 | .e2 => s.rlv.end2
/-- An end of this vertex, changed. -/
def modEnd (e : End) (f : EndState → EndState) (s : State) : State :=
  match e with
  | .e1 => { s with rlv.end1 := f s.rlv.end1 }
  | .e2 => { s with rlv.end2 := f s.rlv.end2 }
/-- A lane's span at an end of this vertex. -/
def spanOf (l : Lane) (e : End) (s : State) : SpanState :=
  match l with | .a => (endOf e s).spanA | .b => (endOf e s).spanB
/-- A lane's span at an end of this vertex, changed. -/
def modSpan (l : Lane) (e : End) (f : SpanState → SpanState) (s : State) : State :=
  modEnd e (fun x => match l with | .a => { x with spanA := f x.spanA } | .b => { x with spanB := f x.spanB }) s
/-- The other end. -/
def End.other : End → End | .e1 => .e2 | .e2 => .e1
/-- Ends as their event byte and END field count them: 1 and 2. -/
def End.num : End → Nat | .e1 => 1 | .e2 => 2
/-- Lanes as their event byte counts them: 0 A, 1 B. -/
def Lane.num : Lane → Nat | .a => 0 | .b => 1
/-- The other lane. -/
def Lane.other : Lane → Lane | .a => .b | .b => .a
/-- Links as their event byte counts them: 0 H1, 1 H2. -/
def Link.num : Link → Nat | .h1 => 0 | .h2 => 1

/-- A completion queue. -/
def cq (n : CqNo) (s : State) : CqState := s.hif.cqs[n]
/-- A completion queue, changed. -/
def modCq (n : CqNo) (f : CqState → CqState) (s : State) : State :=
  { s with hif.cqs := s.hif.cqs.set n (f s.hif.cqs[n]) }

/-- The link that owns a client CQP (R389). -/
def ownerOf (c : Nat) (s : State) : Link := if c < s.hif.h2Base then .h1 else .h2
/-- The context of a CQP seen from a link: entry 0 is the link's own (R390). -/
def ctx (l : Link) (c : Nat) (s : State) : Ctx :=
  if c = 0 then (hlink l s).ctx0 else Tab.getD Ctx.reset c s.hif.ctxs
/-- The context of a CQP, changed. -/
def modCtx (l : Link) (c : Nat) (f : Ctx → Ctx) (s : State) : State :=
  if c = 0 then modLink l (fun h => { h with ctx0 := f h.ctx0 }) s
  else { s with hif.ctxs := Tab.put c (f (Tab.getD Ctx.reset c s.hif.ctxs)) s.hif.ctxs }

/-- Something leaves the node. -/
def emit (e : Emission) (s : State) : State := { s with out := s.out ++ [e] }

/-- A fresh free value (log entry 6). -/
def drawFree (s : State) : Nat × State := (Config.freeValue s.freeCtr, { s with freeCtr := s.freeCtr + 1 })

/-- Bytes of a link's host memory. -/
def readHost (l : Link) (addr : Dword) (n : Nat) (s : State) : List Byte := memLoad hostFill (hlink l s).hmem addr.toNat n
/-- A little-endian word of a link's host memory. -/
def readHost32 (l : Link) (addr : Dword) (s : State) : Word := word (ofLE (readHost l addr 4 s))
/-- Bytes written to a link's host memory. -/
def writeHost (l : Link) (addr : Dword) (bs : List Byte) (s : State) : State :=
  modLink l (fun h => { h with hmem := memStore hostFill h.hmem addr.toNat bs }) s
/-- Stores of the host that have become visible to the node. -/
def hostStores (l : Link) (st : List Host.Cell) (s : State) : State :=
  modLink l (fun h => { h with hmem := memMerge hostFill h.hmem st }) s

/-- A slot. -/
def slot (n : Slot) (s : State) : SlotState := s.sys.slots[n]
/-- A slot, changed. -/
def modSlot (n : Slot) (f : SlotState → SlotState) (s : State) : State :=
  { s with sys.slots := s.sys.slots.set n (f s.sys.slots[n]) }
/-- The slot's cartridge is ready and in service. -/
def slotReady (n : Slot) (s : State) : Bool := (slot n s).st == 2
/-- The slot of a line port's cartridge: LP0 and LP1 in LP-1, and so on (Table 1.2). -/
def portSlot (n : PortNo) : Slot := ⟨4 + n.val / 2, by have := n.isLt; omega⟩

/-- The slot of a PW-2. -/
def pwSlot (m : PwNo) : Slot := if m = 0 then 0 else 1
/-- A PW-2 is ready. -/
def pwReady (m : PwNo) (s : State) : Bool := slotReady (pwSlot m) s

/-- This vertex's own key, as SYS_VKEY shows it. -/
def vkey (s : State) : Key := s.sys.vkey

/-- A slot is safe: no function starts on its cartridge (R611). -/
def leverSafe (n : Slot) (s : State) : Bool := s.red.lever[n] == .safe
/-- A slot's cartridge is being prepared for removal, or is safe (R611). -/
def leverBusy (n : Slot) (s : State) : Bool := s.red.lever[n] == .preparing || s.red.lever[n] == .safe
/-- Both views of a unit of Table 16.8 agree; a unit is up only when both say up (R616). -/
def viewsOk (u : Nat) (s : State) : Bool := !s.red.differs.getLsbD u || s.red.dataSeen.getLsbD u

/-! ### Store-room writer -/

/-- Codes of Fatal severity (Table 19.4). -/
def isFatal (code : Half) : Bool :=
  [0x0025, 0x1022, 0x1031, 0x1045, 0x2007, 0x5014, 0xC001, 0xD024, 0xF001].contains code.toNat

/-- Codes that record a cartridge change (R674). -/
def isSwap (code : Half) : Bool := [0x0020, 0x0021, 0xC014].contains code.toNat

/-- Codes of bucket Q1 (Table 19.4). -/
def q1Codes : List Nat :=
  [0x0023, 0x0024, 0x0026, 0x1008, 0x1009, 0x1010, 0x1011, 0x1012, 0x1021, 0x1030, 0x1044, 0x2008, 0x2020, 0x3060, 0x3061,
   0x3073, 0x3074, 0x4010, 0x4020, 0x4032, 0x5013, 0x5015, 0x5042, 0x6004, 0x6005, 0x6022, 0x7005, 0x7006, 0x7007, 0x7008,
   0x7040, 0x8020, 0x8032, 0x9001, 0x9002, 0x9003, 0xB021, 0xC005, 0xC006, 0xC007, 0xD001, 0xD002, 0xD003, 0xD011]
/-- Codes of bucket Q32. -/
def q32Codes : List Nat :=
  [0x1040, 0x1041, 0x2002, 0x2003, 0x2004, 0x2005, 0x2006, 0x2030, 0x3001, 0x3002, 0x3041, 0x3072, 0x4001, 0x4002, 0x4003,
   0x4004, 0x5001, 0x5002, 0x5010, 0x5020, 0x5021, 0x5022, 0x6031, 0x6040, 0x7022, 0x8041, 0xA020, 0xA021, 0xC010, 0xC011,
   0xC012, 0xC013, 0xC020, 0xC021, 0xD030, 0xD031, 0xD032]
/-- Codes of bucket Q255. -/
def q255Codes : List Nat := [0x3020, 0x6030, 0xC022, 0xD020, 0xD021]

/-- BURST and REFILL of a code's bucket (R711): every code that is in no other bucket is in Q8. -/
def bucketOf (code : Half) : Nat × Ticks :=
  if q1Codes.contains code.toNat then (1, 1024)
  else if q32Codes.contains code.toNat then (32, 128)
  else if q255Codes.contains code.toNat then (255, 32)
  else (8, 1024)

/-- Codes that take no token (R678). -/
def isLedgerCode (code : Half) : Bool := 0xE000 ≤ code.toNat && code.toNat ≤ 0xE1FF

/-- Length of a record in bytes: 16 plus the payload rounded up to a multiple of 4 (R666). -/
def recLen (payload : List Byte) : Nat := 16 + (payload.length + 3) / 4 * 4

/-- Bytes of pending records. -/
def pendBytes (p : List PendRec) : Nat := (p.map fun r => recLen r.payload).sum

/-- The pending buffer without its oldest detail record. -/
def dropDetail : List PendRec → Option (List PendRec)
  | [] => none
  | r :: rest => if r.perm then (dropDetail rest).map (r :: ·) else some rest

/-- A formed record joins the pending buffer of 1 MiB; a full buffer drops the record, or for a permanent one the oldest
detail record (R681). -/
def pendPush (r : PendRec) (s : State) : State :=
  if pendBytes s.srm.pend + recLen r.payload ≤ 1048576 then { s with srm.pend := s.srm.pend ++ [r] }
  else
    let lost := { s with srm.dropped := s.srm.dropped + 1, srm.cntLost := s.srm.cntLost + 1 }
    match r.perm, dropDetail s.srm.pend with
    | true, some p => { lost with srm.pend := p ++ [r] }
    | _, _ => lost

/-- The pending buffer has a place for a record, for a permanent one if need be that of a detail record. -/
def pendFits (perm : Bool) (payload : List Byte) (s : State) : Bool :=
  decide (pendBytes s.srm.pend + recLen payload ≤ 1048576) || (perm && (dropDetail s.srm.pend).isSome)

/-- The bucket of a code, full where nothing has been taken from it. -/
def bucket (code : Half) (s : State) : Bucket := Tab.getD ⟨(bucketOf code).1, 0, none⟩ code.toNat s.srm.buckets

/-- The writer takes a record: which area (R674, R675), a token where it needs one (R677), the suppressed count (R678),
which a record that the full buffer drops leaves as it is. -/
def writeRecord (deferred : Bool) (code : Half) (payload : List Byte) (s : State) : State :=
  let b := bucket code s
  let first := !s.srm.seen.contains code
  let perm := !s.srm.permFull && (isFatal code || isSwap code || (first && !s.srm.permLow))
  let free := isFatal code || isSwap code || perm || isLedgerCode code
  let seen := if first then code :: s.srm.seen else s.srm.seen
  if !free && b.tokens == 0 then
    { s with srm.buckets := Tab.put code.toNat { b with suppressed := b.suppressed + 1 } s.srm.buckets,
             srm.seen := seen, srm.cntSuppressed := s.srm.cntSuppressed + 1 }
  else if !pendFits perm payload s then pendPush ⟨code, deferred, perm, isFatal code, none, payload⟩ { s with srm.seen := seen }
  else
    let b' : Bucket :=
      { tokens := if free then b.tokens else b.tokens - 1, suppressed := 0,
        refillAt := if free then b.refillAt
          else match b.refillAt with
            | some t => some t
            | none => some (s.now + ticksNs (bucketOf code).2) }
    let supp : Option Half := if b.suppressed = 0 then none else some (BitVec.ofNat 16 (sat 65535 b.suppressed))
    pendPush ⟨code, deferred, perm, isFatal code, supp, payload⟩
      { s with srm.buckets := Tab.put code.toNat b' s.srm.buckets, srm.seen := seen }

/-- A record of the writer's own codes, or one deferred while Attic is stopped (R375, R688). -/
def record (code : Half) (payload : List Byte) (s : State) : State :=
  if s.srm.writerOn then writeRecord false code payload s
  else { s with srm.deferred := s.srm.deferred ++
      [⟨code, payload, BitVec.ofNat 64 (mono s), trainTime s⟩] }

/-! ### Events -/

/-- The body of an event (R420). -/
def eventBody (code : Half) (data : List Byte) (s : State) : List Byte :=
  toLE 2 code.toNat ++ [0, 0] ++ toLE 4 (mono s) ++ toLE 8 (if s.bbn.timeValid then ttime s else 0) ++ data

/-- An event placed among the waiting items: ahead of every waiting event of a later rank, behind everything else (R423). -/
def insertEvent (it : MgmtItem) : List MgmtItem → List MgmtItem
  | [] => [it]
  | x :: rest => if x.event && decide (it.rank < x.rank) then it :: x :: rest else x :: insertEvent it rest

/-- The waiting items without their oldest event. -/
def dropEvent : List MgmtItem → Option (List MgmtItem)
  | [] => none
  | x :: rest => if x.event then some rest else (dropEvent rest).map (x :: ·)

/-- A new event joins the items of a link or session: at 256 items the oldest event goes, never a response (R422). Answers
the items and how many events were dropped. -/
def offerEvent (it : MgmtItem) (items : List MgmtItem) : List MgmtItem × Nat :=
  if items.length < 256 then (insertEvent it items, 0)
  else match dropEvent items with
    | some rest => (insertEvent it rest, 1)
    | none => (items, 1)

/-- The item of an event (Table 9.10). -/
def eventItem (rank : Nat) (code : Half) (data : List Byte) (s : State) : MgmtItem :=
  { opcode := 0, tag := 0, status := 0, more := false, event := true, rank := rank, src := vkey s,
    body := eventBody code data s }

/-- An event offered on CQP 0 of one link. -/
def offerLink (l : Link) (it : MgmtItem) (s : State) : State :=
  modLink l (fun h => { h with items := (offerEvent it h.items).1, dropped := h.dropped + (offerEvent it h.items).2 }) s

/-- A service port's state. -/
def spOf (c : Ct) (s : State) : SpState := match c with | .a => s.svc.spA | .b => s.svc.spB
/-- A service port's state, changed. -/
def modSp (c : Ct) (f : SpState → SpState) (s : State) : State :=
  match c with
  | .a => { s with svc.spA := f s.svc.spA }
  | .b => { s with svc.spB := f s.svc.spB }

/-- The SP payloads that carry a message of a KIND: segments of at most 1,480 bytes, LAST on the last (Table 20.2). -/
def spSegments (kind : Nat) : Nat → Nat → List Byte → List (List Byte)
  | 0, _, _ => []
  | fuel + 1, seg, msg =>
    let part := msg.take 1480
    let rest := msg.drop 1480
    (toBE 1 (0x20 + kind) ++ toBE 1 (bit rest.isEmpty * 128 + seg % 128) ++ toBE 2 part.length ++ part)
      :: (if rest.isEmpty then [] else spSegments kind fuel (seg + 1) rest)

/-- A message sent on a service port to an address. -/
def spSend (c : Ct) (dst : Key) (kind : Nat) (msg : List Byte) (s : State) : State :=
  (spSegments kind 4 0 msg).foldl (fun t p => emit (.sp c dst p) t) s

/-- SP requests are served and answered: from the end of S4 of a rise to the end of F5 of a fall, by the engine of the active controller
(R720, Table 13.6). -/
def spServes (s : State) : Bool :=
  (match s.cel.pstate with
   | .run => true
   | .rising | .falling => decide (5 ≤ s.cel.step)
   | _ => false) && !handingOver 4 s

/-- An event for a service port: sent in its open session, else it waits for one (R719). -/
def offerSp (c : Ct) (it : MgmtItem) (s : State) : State :=
  match (spOf c s).peer, spServes s with
  | some mac, true => spSend c mac 3 (encodeMgmt it) s
  | _, _ =>
    modSp c (fun p => { p with events := (offerEvent it p.events).1, dropped := p.dropped + (offerEvent it p.events).2 }) s

/-- An event on CQP 0 of each link and on each service port, in a given place of R423, without a store-room record. -/
def deliverRank (rank : Nat) (code : Half) (data : List Byte) (s : State) : State :=
  let it := eventItem rank code data s
  offerSp .b it (offerSp .a it (offerLink .h2 it (offerLink .h1 it s)))

/-- An event raised in a given place of R423: delivered and recorded (R422); in OFF nothing runs that could write one (Table 13.1). -/
def raiseRank (rank : Nat) (code : Half) (data : List Byte) (s : State) : State :=
  if s.cel.pstate == .off then s else record code data (deliverRank rank code data s)

/-- An event raised: delivered on CQP 0 of each link and recorded in the store room (R422). -/
def raise (code : Half) (data : List Byte) (s : State) : State := raiseRank 4 code data s

/-- One byte of event data (R710). -/
def d1 (v : Nat) : List Byte := toLE 1 v
/-- Two bytes of event data. -/
def d2 (v : Nat) : List Byte := toLE 2 v
/-- Four bytes of event data. -/
def d4 (v : Nat) : List Byte := toLE 4 v
/-- A key or serial number as event data. -/
def d6 (k : Key) : List Byte := toLE 6 k.toNat
/-- A train time or step as event data. -/
def d8 (v : Nat) : List Byte := toLE 8 v

end Sys2Proof.Machine
end

