-- ==== Sys2Proof/Machine/Coding.lean ====
section
/-! DEFINITION. The coding of power-line frames (R307 to R314): frame control, the convolutional code, RS(255,223), the scrambler,
blocks and their slices, the decoded segments. -/
namespace Sys2Proof.Machine

/-! ### Bits -/

/-- The `n` bits of a number, most significant first. -/
def bitsOfNat (n v : Nat) : List Bool := (List.range n).map fun i => bitOf v (n - 1 - i)

/-- The bits of bytes, most significant bit of each first. -/
def bitsOfBytes (b : List Byte) : List Bool := (b.map bitsMsb).flatten

/-- The number bits spell, most significant first. -/
def natOfBits (b : List Bool) : Nat := b.foldl (fun a x => 2 * a + bit x) 0

/-- Bits packed into bytes, most significant first, the last byte filled with zeros. -/
def packBits : Nat → List Bool → List Byte
  | 0, _ => []
  | k + 1, b =>
    if b.isEmpty then []
    else BitVec.ofNat 8 (natOfBits (b.take 8 ++ List.replicate (8 - (b.take 8).length) false)) :: packBits k (b.drop 8)

/-- CRC-16 over bits (the CRC of R233). -/
def crc16Bits (b : List Bool) : BitVec 16 := b.foldl (crcBit (0x1021 : BitVec 16)) 0xFFFF

/-- The 121 bits of a frame control: 105 field bits and their CRC-16 (R307). -/
def fcBits (fields : Nat) : List Bool := bitsOfNat 105 fields ++ bitsOfNat 16 (crc16Bits (bitsOfNat 105 fields)).toNat

/-- A field of `w` bits whose first bit is bit `at_` of the 105, counted from the most significant. -/
def fcField (at_ w v : Nat) : Nat := v % 2 ^ w * 2 ^ (105 - at_ - w)

/-- The fields of a received frame control, none where its CRC fails. -/
def fcRead (fc : BitVec 121) : Option (BitVec 105) :=
  let f : BitVec 105 := fc.extractLsb' 16 105
  if crc16Bits (bitsOfNat 105 f.toNat) == fc.extractLsb' 0 16 then some f else none

/-- A field of a frame control. -/
def fcGet (fc : BitVec 105) (at_ w : Nat) : Nat := bitsOf fc.toNat (105 - at_ - w) w

/-! ### Convolutional code (R314) -/

/-- The parity of a number's bits under a mask. -/
def parity (mask reg : Nat) : Bool := ((List.range 7).map fun i => bit (bitOf mask i && bitOf reg i)).sum % 2 == 1

/-- Rate 1/2, constraint length 7, generators 133 and 171 octal, the 133 output first. -/
def convBits : Nat → List Bool → List Bool
  | _, [] => []
  | st, b :: rest =>
    let reg := bit b * 64 + st
    parity 0o133 reg :: parity 0o171 reg :: convBits (reg / 2) rest

/-- A stream terminated by 6 zero bits and coded from the all-zero state. -/
def convCode (b : List Bool) : List Bool := convBits 0 (b ++ List.replicate 6 false)

/-! ### RS(255,223) (R311) -/

/-- Twice an element of GF(2^8) with field polynomial 0x11D. -/
def gfDouble (a : Nat) : Nat := if 128 ≤ a then (2 * a) ^^^ 0x11D else 2 * a

/-- The product of two elements. -/
def gfMul (a b : Nat) : Nat :=
  ((List.range 8).reverse.foldl (fun acc i => let d := gfDouble acc; if bitOf b i then d ^^^ a else d) 0)

/-- α^n. -/
def gfAlpha : Nat → Nat
  | 0 => 1
  | n + 1 => gfDouble (gfAlpha n)

/-- A polynomial, highest coefficient first, times (x + r). -/
def polyRoot (r : Nat) (p : List Nat) : List Nat :=
  ((p ++ [0]).zip (0 :: p)).map fun (x : Nat × Nat) => x.1 ^^^ gfMul r x.2

/-- The generator with roots α^0 to α^31, without its leading 1. -/
def rsGenerator : List Nat := ((List.range 32).foldl (fun p i => polyRoot (gfAlpha i) p) [1]).drop 1

/-- The 32 parity bytes of data. -/
def rsParity (data : List Byte) : List Byte :=
  (data.foldl (fun (reg : List Nat) d =>
    let f := d.toNat ^^^ reg.headD 0
    ((reg.drop 1 ++ [0]).zip rsGenerator).map fun (x : Nat × Nat) => x.1 ^^^ gfMul f x.2) (List.replicate 32 0)).map (BitVec.ofNat 8)

/-! ### Scrambler -/

/-- The next state of the generator x^7 + x^4 + 1. -/
def scrNext (st : Nat) : Nat := (2 * st + bit (bitOf st 6 != bitOf st 3)) % 128

/-- `n` output bits from a state. -/
def scrBits : Nat → Nat → List Bool
  | 0, _ => []
  | n + 1, st => (bitOf st 6 != bitOf st 3) :: scrBits n (scrNext st)

/-- Data scrambled from all ones at the block's start; scrambling again restores it. -/
def scramble (b : List Byte) : List Byte :=
  let x := bitsOfBytes b
  packBits (b.length + 1) ((x.zip (scrBits x.length 127)).map fun p => p.1 != p.2)

/-! ### Blocks -/

/-- Codewords of a block of D slices of P symbols of b bits: K (R311). -/
def blockK (d p b : Nat) : Nat := (d * p * b / 2 - 6) / 2040

/-- Groups of 223 bytes. -/
def groups223 : Nat → List Byte → List (List Byte)
  | 0, _ => []
  | k + 1, b => b.take 223 :: groups223 k (b.drop 223)

/-- The coded bits of a block: scrambled, RS-coded, convolutionally coded, padded to L (R311, steps 2 to 4). -/
def blockBits (d p b : Nat) (data : List Byte) : List Bool :=
  let k := blockK d p b
  let words := (groups223 k (scramble data)).map fun w => w ++ rsParity w
  let c := convCode (bitsOfBytes words.flatten)
  c ++ List.replicate (d * p * b - c.length) false

/-- Slice `i` of the coded bits: those at places i modulo D (R311, step 5). -/
def sliceBits (d i : Nat) (bits : List Bool) : List Bool :=
  (bits.zipIdx.filter fun x => x.2 % d == i).map (·.1)

/-- A segment: FIRST, LAST, LENGTH and its bytes (R312). -/
def segmentBytes (first last : Bool) (b : List Byte) : List Byte :=
  toBE 2 (bit first * 32768 + bit last * 16384 + b.length) ++ b

/-- `n` data bytes from a place on lie in the block, and in no codeword that is bad. -/
def wordsGood (bad : List Bool) (at_ n : Nat) : Bool :=
  decide (at_ + n ≤ 223 * bad.length)
  && !(bad.zipIdx.any fun w => w.1 && decide (223 * w.2 < at_ + n) && decide (at_ < 223 * w.2 + 223))

/-- The segments of a block's data bytes, from a place on; none where one lies in a codeword that RS could not correct, and for the
whole rest where a header does (R312; whether segments cross codewords the spec does not say: they do, log entry 22). -/
def readSegments (bad : List Bool) (data : List Byte) : Nat → Nat → List (Option (Bool × Bool × List Byte))
  | 0, _ => []
  | k + 1, at_ =>
    if data.length < at_ + 2 then []
    else if !wordsGood bad at_ 2 then [none]
    else
      let h := beAt data at_ 2
      let n := h % 2048
      if n = 0 then []
      else (if wordsGood bad at_ (2 + n) then some (bitOf h 15, bitOf h 14, slice data (at_ + 2) n) else none)
        :: readSegments bad data k (at_ + 2 + n)

/-- The modulation of a tone by its SNR and the margin (R315). -/
def toneCode (margin snr : Nat) : BitVec 3 :=
  if 14 + margin ≤ snr then 4 else if 11 + margin ≤ snr then 3 else if 6 + margin ≤ snr then 2 else if 3 + margin ≤ snr then 1 else 0

end Sys2Proof.Machine
end

