-- ==== Sys2Proof/Machine/Tones.lean ====
section
/-! DEFINITION. The symbols of the power line (R303 to R308, R313, R314, R318): tones and their bins, the points of each modulation,
the priority resolution and SYNC symbols, robust and coherent symbols, and the samples a symbol is sent as. -/
namespace Sys2Proof.Machine

/-! ### Tones, bins and samples (R303) -/

/-- Frequency of a tone in Hz. -/
def toneHz (k : Nat) : Nat := 200000 + 6250 * k
/-- The bin of the 1,024-point transform that a tone lies in. -/
def toneBin (k : Nat) : Nat := 32 + k
/-- Length of a symbol with its cyclic prefix: 128 + 1,024 samples at 6.4 Msample/s. -/
def symbolNs : Ns := 180000

/-- The conjugate of a point. -/
def TonePoint.conj : TonePoint → TonePoint
  | .off => .off
  | .phase n => .phase (-n)
  | .qam i q => .qam i (-q)

/-- What a symbol puts into a bin: its tones in bins 32 to 287, and their Hermitian mirror. -/
def binPoint (x : PlcSymbol) (b : Nat) : TonePoint :=
  if 32 ≤ b && b < 288 then x.getD (b - 32) .off
  else if 736 < b && b ≤ 992 then (x.getD (992 - b) .off).conj
  else .off

/-- A sample, exactly: the sum of unit roots e^(2πi·n/1024), and of such roots times a level and 1/√10. The sum of all of a symbol's
roots is real, for its bins mirror each other. -/
structure Sample where
  unit : List (BitVec 10)
  scaled : List (Int × BitVec 10)
  deriving DecidableEq, Repr

/-- Sample `n` of the 1,024-point inverse transform, before any scaling by the transmitter. -/
def sampleAt (x : PlcSymbol) (n : Nat) : Sample :=
  (List.range 1024).foldl (fun (a : Sample) b =>
    let r : BitVec 10 := BitVec.ofNat 10 (b * n)
    match binPoint x b with
    | .off => a
    | .phase p => { a with unit := a.unit ++ [r + BitVec.ofNat 10 (2 * p.toNat)] }
    | .qam i q => { a with scaled := a.scaled ++ [(i, r), (q, r + 256)] }) ⟨[], []⟩

/-- The samples of a symbol: the last 128 of the transform as its cyclic prefix, then all 1,024. -/
def symbolSamples (x : PlcSymbol) : List Sample :=
  ((List.range 128).map fun n => sampleAt x (896 + n)) ++ (List.range 1024).map fun n => sampleAt x n

/-- What leaves the connector: when each symbol starts, and its samples. -/
def waveform : Emission → List (Ns × List Sample)
  | .plc _ start xs => xs.zipIdx.map fun x => (start + symbolNs * x.2, symbolSamples x.1)
  | _ => []

/-! ### Coherent symbols (R304, Table 7.7) -/

/-- Bits per tone of a modulation code. -/
def toneBits (m : BitVec 3) : Nat := if m.toNat ≤ 4 then m.toNat else 0

/-- Coded bits per symbol of a tone map; the robust map, written as no map, has 510 (R318). -/
def mapBits (map : List (BitVec 3)) : Nat := if map.isEmpty then 510 else (map.map toneBits).sum

/-- The level of two Gray-coded bits. -/
def grayLevel (hi lo : Bool) : Int :=
  match hi, lo with
  | false, false => -3
  | false, true => -1
  | true, true => 1
  | true, false => 3

/-- A Gray-coded number of three bits. -/
def grayDecode (g : Nat) : Nat := g ^^^ (g / 2) ^^^ (g / 4)

/-- The point of a label under a modulation, its first bit the most significant. -/
def labelPoint (m : BitVec 3) (bits : List Bool) : TonePoint :=
  let b := fun i => bits.getD i false
  match m.toNat with
  | 1 => .phase (if b 0 then 256 else 0)
  | 2 => .phase (match b 0, b 1 with | false, false => 64 | true, false => 192 | true, true => 320 | false, true => 448)
  | 3 => .phase (BitVec.ofNat 9 (64 * grayDecode (natOfBits [b 0, b 1, b 2])))
  | 4 => .qam (grayLevel (b 0) (b 1)) (grayLevel (b 2) (b 3))
  | _ => .off

/-- Coded bits given to tones in rising order. -/
def coherent : List (BitVec 3) → List Bool → PlcSymbol
  | [], _ => []
  | m :: rest, bits => labelPoint m (bits.take (toneBits m)) :: coherent rest (bits.drop (toneBits m))

/-! ### SYNC, robust symbols and the priority resolution (R305, R306) -/

/-- The SYNC symbol: phase π·k²/256. -/
def syncSymbol : PlcSymbol := (List.range 256).map fun k => .phase (BitVec.ofNat 9 (k * k))

/-- Tones from a phase on, each a step further than the one before. -/
def stepTones : BitVec 9 → List (BitVec 9) → PlcSymbol
  | at_, [] => [.phase at_]
  | at_, d :: rest => .phase at_ :: stepTones (at_ + d) rest

/-- The phase step of a BPSK bit, and of a QPSK label. -/
def bpskStep (b : Bool) : BitVec 9 := if b then 256 else 0
def qpskStep (hi lo : Bool) : BitVec 9 :=
  match hi, lo with
  | false, false => 64
  | false, true => 192
  | true, true => 320
  | true, false => 448

/-- A robust BPSK symbol of 255 coded bits. -/
def robustBpsk (bits : List Bool) : PlcSymbol := stepTones 0 ((List.range 255).map fun k => bpskStep (bits.getD k false))
/-- A robust QPSK symbol of 510 coded bits. -/
def robustQpsk (bits : List Bool) : PlcSymbol :=
  stepTones 0 ((List.range 255).map fun k => qpskStep (bits.getD (2 * k) false) (bits.getD (2 * k + 1) false))

/-- The priority resolution symbol as a station sends it: its two tones at +1. -/
def prsSymbol (stn : BitVec 7) : PlcSymbol :=
  (List.range 256).map fun k => if k + 2 = 2 * stn.toNat || k + 1 = 2 * stn.toNat then .phase 0 else .off

/-- `n` symbols of coded bits under a tone map, the robust map where it is empty: `b` bits a symbol, zeros after the last. -/
def dataSymbols (map : List (BitVec 3)) : Nat → List Bool → List PlcSymbol
  | 0, _ => []
  | n + 1, bits =>
    (if map.isEmpty then robustQpsk (bits.take 510) else coherent map (bits.take (mapBits map)))
      :: dataSymbols map n (bits.drop (mapBits map))

/-! ### Frames (R307 to R309, R313) -/

/-- The FC symbol: the 121 bits through the convolutional code on tones 1 to 254, a 0 on tone 255 (R307). -/
def fcSymbol (fields : Nat) : PlcSymbol := robustBpsk (convCode (fcBits fields))

/-- SYNC and FC of every frame but the Urgent frame. -/
def frameHead (fields : Nat) : List PlcSymbol := [syncSymbol, fcSymbol fields]

/-- Robust QPSK symbols that carry `n` bytes as one terminated stream: S symbols carry ⌊(255 × S − 6) / 8⌋ bytes (R309). -/
def bodySymbols (n : Nat) : Nat := (8 * n + 6 + 254) / 255

/-- The body of a beacon, poll-sync or join frame (R309). -/
def bodyPart (b : List Byte) : List PlcSymbol := dataSymbols [] (bodySymbols b.length) (convCode (bitsOfBytes b))

/-- An Urgent frame: FC and one payload symbol, no SYNC (R308). -/
def urgentSymbols (fields : Nat) (payload : List Bool) : List PlcSymbol := [fcSymbol fields, robustQpsk (convCode payload)]

/-- A WAKE transmission: five symbols of SYNC, no FC (R312a). -/
def wakeSymbols : List PlcSymbol := List.replicate 5 syncSymbol

end Sys2Proof.Machine
end

