-- ==== Sys2Proof/Machine/Lanes.lean ====
section
/-! DEFINITION. The committed polyline as forwarding sees it: ordinals, held vertices, lane map, egresses, the queues frames
join (chapters 3 to 6), and the choice of medium (R332). -/
namespace Sys2Proof.Machine

/-- The forced item in progress (R625). -/
def itemNowForced (s : State) : Option CfgItem :=
  if s.red.cfgState == .forcing && s.red.itemAt.isSome then s.red.cfgItems[s.red.cfgNext]? else none

/-- The forced item in progress quiesces this port (Table 16.9). -/
def quiescing (n : PortNo) (s : State) : Bool :=
  match itemNowForced s with
  | some i => decide (0x12 ≤ i.item.toNat) && decide (i.item.toNat ≤ 0x18) && i.target.toNat == n.val
  | none => false

/-- The forced item in progress drains this CAN channel (Table 16.9). -/
def draining (c : Chan) (s : State) : Bool :=
  match itemNowForced s with
  | some i => i.item == 0x19 && i.target.toNat == c.val
  | none => false

/-- The lane and end of a port's role (Table 5.7). -/
def roleLane (r : BitVec 3) : Option (Lane × End) :=
  match r.toNat with
  | 2 => some (.a, .e1)
  | 3 => some (.a, .e2)
  | 4 => some (.b, .e1)
  | 5 => some (.b, .e2)
  | _ => none

/-- The role value of a lane's end. -/
def laneRole (l : Lane) (e : End) : BitVec 3 :=
  match l, e with
  | .a, .e1 => 2
  | .a, .e2 => 3
  | .b, .e1 => 4
  | .b, .e2 => 5

/-- Lane and end of a port. -/
def portLane (n : PortNo) (s : State) : Option (Lane × End) := roleLane (port n s).role

/-- The port that holds a lane's end. -/
def lanePort (l : Lane) (e : End) (s : State) : Option PortNo :=
  (List.finRange 8).find? fun n => (port n s).role == laneRole l e

/-- The node is in native train mode (R133). -/
def isNative (s : State) : Bool := s.rlv.st != .interop
/-- Traffic runs natively: not in interop mode, nor on the ETB topology that lasts from its end to the first native commit (R147). -/
def nativeRun (s : State) : Bool := isNative s && !s.rlv.etb.runs

/-- Position of a key in the committed polyline, from 1. -/
def ordOf (k : Key) (s : State) : Option Nat := (s.rlv.poly.find? fun e => e.key == k).map fun e => e.ord.toNat

/-- An ordinal lies in a range this vertex holds, or in one another vertex holds: as `hold_open` last named it, or as the
committed tally marked it HELD (R93, R113). -/
def heldOrd (o : Nat) (s : State) : Bool :=
  ([s.rlv.end1.hold, s.rlv.end2.hold].any fun h => match h with | some x => x.first ≤ o && o ≤ x.last | none => false)
  || (s.rlv.announced.any fun h => decide (h.2.1 ≤ o) && decide (o ≤ h.2.2.1))

/-- From a loss to its decision the vertices beyond that end count as held (R92). -/
def beyondLost (o : Nat) (s : State) : Bool :=
  [End.e1, End.e2].any fun e =>
    match (endOf e s).lost with
    | some _ => (if End.num e == s.rlv.refEnd.toNat then decide (o < s.rlv.ord) else decide (s.rlv.ord < o))
        && s.rlv.refEnd != 3 && s.rlv.refEnd != 0
    | none => false

/-- A destination key is held (R98). -/
def heldKey (k : Key) (s : State) : Bool :=
  match ordOf k s with
  | some o => heldOrd o s || beyondLost o s
  | none => false

/-- The end of this vertex that faces an ordinal: REF_END towards lower ones, the other end towards higher ones. -/
def endTowards (o : Nat) (s : State) : Option End :=
  let refE : Option End := match s.rlv.refEnd.toNat with | 1 => some .e1 | 2 => some .e2 | _ => none
  match refE with
  | none => none
  | some e => if o < s.rlv.ord then some e else if s.rlv.ord < o then some (End.other e) else none

/-- A lane is up on every span between two ordinals (R170). -/
def laneUpBetween (l : Lane) (a b : Nat) (s : State) : Bool :=
  let lo := min a b
  let hi := max a b
  !(s.bbn.downSpans.any fun d => d.lane == l && decide (lo < d.high) && decide (d.low < hi))

/-- The home lane of a flow (R170). -/
def homeLane (label : BitVec 12) (s : State) : Lane :=
  if s.bbn.laneSplit && label.toNat % 2 == 1 then .b else .a

/-- The lane a flow with a home lane uses between two ordinals: the home lane while that is up on every span, else the other lane,
none where neither is (R170). -/
def laneBetween (h : Lane) (a b : Nat) (s : State) : Option Lane :=
  if laneUpBetween h a b s then some h
  else if laneUpBetween (Lane.other h) a b s then some (Lane.other h)
  else none

/-- The lane a flow of this vertex uses to an ordinal (R170). -/
def flowLane (label : BitVec 12) (o : Nat) (s : State) : Option Lane := laneBetween (homeLane label s) s.rlv.ord o s

/-- What span sweeps show at a lane's end. -/
def watchOf (l : Lane) (e : End) (s : State) : Option SweepWatch := (spanOf l e s).watch

/-- A watch that has seen a span sweep of another vertex within the last 50 ms (R85, R86, R89). -/
def fresh (w : Option SweepWatch) (s : State) : Bool :=
  match w with
  | some x => decide (s.now < x.last + ms 50) && x.key != vkey s
  | none => false

/-- The lane's port at an end has link and receives span sweeps. -/
def sweepsOn (l : Lane) (e : End) (s : State) : Bool :=
  (match lanePort l e s with | some n => (port n s).link | none => false) && fresh (watchOf l e s) s

/-- A span carries TTDP HELLO: the last one is no older than the 130 ms after which the standard's slow timer regime gives a
neighbour up (PRESUMED, log entry 67). -/
def carriesHello (l : Lane) (e : End) (s : State) : Bool :=
  match (spanOf l e s).helloLast with
  | some t => decide (s.now < t + ms 130)
  | none => false

/-- A foreign node's HELLO is seen on a span now (R141, R146). -/
def foreignOn (l : Lane) (e : End) (s : State) : Bool := (spanOf l e s).foreign && carriesHello l e s
/-- A foreign node's HELLO is seen at an end now (Table 3.13). -/
def foreignAtEnd (e : End) (s : State) : Bool := foreignOn .a e s || foreignOn .b e s

/-- FOREIGN_DIST shown by the span sweeps at an end, the smaller of the two lanes. -/
def shownDist (e : End) (s : State) : Nat :=
  let d := fun (w : Option SweepWatch) => match w with | some y => y.foreignDist.toNat | none => 63
  min (d (watchOf .a e s)) (d (watchOf .b e s))

/-- Spans to the nearest foreign node at an end, none where there is none; a distance that only echoes the other end's own
foreign node does not count (R146, R193, log entry 13). -/
def foreignDistAt (e : End) (s : State) : Option Nat :=
  if foreignAtEnd e s then some 0
  else
    let d := shownDist e s
    if 63 ≤ d || (foreignAtEnd (End.other e) s && d == 1) then none else some (d + 1)

/-- A vertex of the polyline lies beyond a foreign node, or is one (R193): by the ETB topology where it is valid, else by the
distances of the span sweeps (log entry 13). -/
def beyondForeign (o : Nat) (s : State) : Bool :=
  !nativeRun s &&
  if s.rlv.etb.valid then
    s.rlv.poly.any fun x => s.rlv.etb.foreign.contains x.key && x.ord.toNat != s.rlv.ord
      && decide (min o s.rlv.ord ≤ x.ord.toNat) && decide (x.ord.toNat ≤ max o s.rlv.ord)
  else match endTowards o s with
    | some e => (match foreignDistAt e s with | some d => decide (d < max o s.rlv.ord - min o s.rlv.ord) | none => false)
    | none => false

/-- The span at an end is barred by either side (R139). -/
def barredAt (e : End) (s : State) : Bool :=
  (endOf e s).barredHere
  || ([Lane.a, Lane.b].any fun l => fresh (watchOf l e s) s && (match watchOf l e s with | some w => w.barred | none => false))

/-- The ordinal of the polyline's vertex next to this one at an end, across held vertices it has rejoined; none next to
held vertices it has not (R734). -/
def nbrOrd (e : End) (s : State) : Option Nat :=
  if s.rlv.refEnd.toNat ≠ 1 && s.rlv.refEnd.toNat ≠ 2 then none
  else
    let lower := End.num e == s.rlv.refEnd.toNat
    let o := match (endOf e s).hold with
      | some h => if !h.rejoined then 0 else if lower then h.first - 1 else h.last + 1
      | none => if lower then s.rlv.ord - 1 else s.rlv.ord + 1
    if o = 0 || s.rlv.poly.length < o then none else some o

/-- A lane's span is declared down between two ordinals (R180 to R182). -/
def declaredDown (l : Lane) (a b : Nat) (s : State) : Bool :=
  s.bbn.downSpans.any fun d => d.lane == l && d.low == min a b && d.high == max a b

/-- Verify has failed on a port, or is repeated after a failure (R273). -/
def verifyBad (p : LinePort) : Bool := p.verify == .failed || decide (3 < p.verifyTries)

/-- The span at an end of this vertex is up on a lane: its port has link and signal in both views (R616), it is not barred, verify has not failed in
native mode (R273), and it is not declared down, or, next to no vertex of the polyline, carries span sweeps. -/
def spanIsUp (l : Lane) (e : End) (s : State) : Bool :=
  match lanePort l e s with
  | some n =>
    (port n s).link && !(port n s).los && viewsOk n.val s && !barredAt e s && !(isNative s && verifyBad (port n s))
    && (match nbrOrd e s with
        | some o => !declaredDown l s.rlv.ord o s
        | none => fresh (watchOf l e s) s)
  | none => false

/-- The queue of a frame at an egress (R249, R250). -/
def queueOf (n : PortNo) (cls : BitVec 2) (pcp : BitVec 3) (s : State) : Fin 8 :=
  let viaMap : Fin 8 := ⟨fieldOf (port n s).qmap (4 * pcp.toNat) 3 % 8, Nat.mod_lt _ (by decide)⟩
  if (portLane n s).isSome && nativeRun s then
    match cls.toNat with
    | 0 => 7
    | 1 => 6
    | 2 => 5
    | _ => viaMap
  else viaMap

/-- The PCP of a class (R245). -/
def classPcp (cls : BitVec 2) (pcp : BitVec 3) (s : State) : BitVec 3 :=
  match cls.toNat with
  | 0 => s.tc.pcpU
  | 1 => s.tc.pcpM
  | 2 => s.tc.pcpS
  | _ => pcp

/-- PCPs of class B (R245). -/
def bMask (s : State) : Nat :=
  255 - (2 ^ s.tc.pcpU.toNat + 2 ^ s.tc.pcpM.toNat + 2 ^ s.tc.pcpS.toNat)

/-- A frame joins the end of its queue at a port (R252). -/
def enqueue (n : PortNo) (f : OutFrame) (s : State) : State :=
  let q := queueOf n f.cls f.pcp s
  modPort n (fun p => { p with queues := p.queues.set q (p.queues[q] ++ [f]) }) s

/-- The pool of a class (Table 10.2). -/
def classPool (cls : BitVec 2) : Nat := match cls.toNat with | 0 => 0 | 1 => 1 | 2 => 2 | _ => 3
/-- The pool of a native frame: a raw frame that is not class U has the shared pool for its own (Table 10.2). -/
def framePool (cls : BitVec 2) (raw : Bool) : Nat := if raw && cls != 0 then 3 else classPool cls

/-- Bytes of the frame store a frame occupies: whole 64-byte units (R443). -/
def units64 (n : Nat) : Nat := (n + 63) / 64 * 64

/-- The frames queued anywhere for sending. -/
def storedOut (s : State) : List OutFrame :=
  (s.lp.toList.map fun p => p.queues.toList.flatten ++ (p.part.map (·.1)).toList ++ (p.sending.map (·.frame)).toList).flatten
  ++ s.bbn.uq.map (·.2) ++ s.rlv.heldFrames

/-- The frames that wait on the power line. -/
def storedPlc (s : State) : List PlcData := (s.plc.toList.map fun c => c.partSent ++ c.dataQ).flatten

/-- Items waiting for Receive descriptors, over all contexts. -/
def storedRx (s : State) : List RxItemDue :=
  s.hif.h1.ctx0.rxWait ++ s.hif.h2.ctx0.rxWait ++ (s.hif.ctxs.map fun e => e.2.rxWait).flatten

/-- Frames that pool U and pool M hold beside those: cut-through transit and class U for the power line, management items (Table 10.2). -/
def storedElse (k : Nat) (s : State) : Nat :=
  match k with
  | 0 => ((s.bbn.transit.map fun t => units64 t.bytes.length).sum)
      + ((s.plc.toList.map fun c => (c.urgents.map fun u => units64 (natBytes u.frame).length).sum).sum)
  | 1 => ((s.hif.h1.items ++ s.hif.h2.items).map fun i => units64 (8 + i.body.length)).sum
  | _ => 0

/-- Occupancy of a pool in bytes (R443). -/
def poolUse (k : Nat) (s : State) : Nat :=
  storedElse k s
  + (((storedOut s).filter fun f => f.pool == k).map fun f => units64 f.bytes.length).sum
  + (((storedPlc s).filter fun d => d.pool == k).map fun d => units64 d.bytes.length).sum
  + (((storedRx s).filter fun i => i.pool == k).map fun i => units64 i.data.length).sum
  + ((s.bbn.rxFlows.map fun r => ((r.held.filter fun h => h.pool == k).map fun h => units64 h.frame.payload.length).sum).sum)

/-- Bytes of frames that arrived on a port and are still stored (LP_ADM_USED, R452). -/
def inUse (n : PortNo) (s : State) : Nat :=
  (((storedOut s).filter fun f => f.inPort == some n).map fun f => units64 f.bytes.length).sum
  + (((storedPlc s).filter fun d => d.inPort == some n).map fun d => units64 d.bytes.length).sum
  + (((storedRx s).filter fun i => i.inPort == some n).map fun i => units64 i.data.length).sum
  + ((s.bbn.rxFlows.map fun r =>
      ((r.held.filter fun h => h.inPort == some n).map fun h => units64 h.frame.payload.length).sum).sum)

/-- Size of a pool in bytes (Table 10.2). -/
def poolSize (k : Nat) : Nat := match k with | 0 => 4194304 | 1 => 67108864 | 2 => 134217728 | _ => 838860800

/-- A pool has room for `n` more bytes. -/
def poolFits (k n : Nat) (s : State) : Bool := decide (poolUse k s + units64 n ≤ poolSize k)

/-- The pool that takes `n` bytes of a frame: its own, or the shared one once its own is full (Table 10.2). -/
def poolFor (own n : Nat) (s : State) : Nat := if own = 1 || own = 2 then (if poolFits own n s then own else 3) else own

/-- A native frame ready to leave this vertex. -/
def outOf (f : NatFrame) (origin : Option TxRef) (inPort : Option PortNo) (s : State) : OutFrame :=
  { bytes := encodeNative f, nat := some f, origin := origin, cls := f.cls, pcp := f.pcp, readyAt := s.now, sent := 0, firstAt := none, delayed := false,
    inPort := inPort, pool := poolFor (framePool f.cls f.raw) (encodeNative f).length s }

/-- A class M frame of this node: epoch, key and PCP as R80 and R247 give them. -/
def nodeFrame (dst : Key) (label : BitVec 12) (payload : List Byte) (s : State) : NatFrame :=
  { cls := 1, raw := false, lane := false, pcp := s.tc.pcpM, sync := false, retx := false,
    epoch := BitVec.ofNat 16 s.rlv.epoch.toNat, src := vkey s, dst := dst, srcCqp := 0, dstCqp := 0, label := label,
    fseq := 0, payload := payload }

/-- A frame leaves a lane's port at an end, with LANE as that lane. -/
def sendOnLane (l : Lane) (e : End) (f : NatFrame) (origin : Option TxRef) (inPort : Option PortNo) (s : State) : State :=
  match lanePort l e s with
  | some n => enqueue n (outOf { f with lane := l == .b } origin inPort s) s
  | none => s

/-- The map a station sends to a neighbour with: the slot the last TM_RSP filled (R316). -/
def txMap (n : PlcNbr) : List (BitVec 3) := if n.txTmi then n.tx1 else n.tx0

/-- A key is a station of a channel on which this vertex is associated. -/
def plcStation (c : Chan) (k : Key) (s : State) : Option Station :=
  let p := plc c s
  if p.att == .associated && p.stn != 0 && viewsOk (8 + c.val) s then p.stations.find? fun x => x.key == k && x.reservedUntil.isNone
  else none

/-- This station cannot reach another on a channel: the coordinator found the pair unreachable; another station knows it by a map that
carries too little and no chord (R330; what a station knows of it the spec does not say, DESIGN CHOICE, log entry 20). -/
def plcCut (c : Chan) (stn : BitVec 7) (s : State) : Bool :=
  let p := plc c s
  if p.role == 1 then p.unreach.contains (p.stn, stn)
  else p.access == 1 && !(p.chords.any fun x => x.orig == p.stn && x.dst == stn)
    && p.nbrs.any fun n => n.stn == stn && !(txMap n).isEmpty && decide (mapBits (txMap n) < 128)

/-- The channel and station that lead to a key: PL0 where it is associated there, else PL1 (R332); none where it is cut off there. -/
def plcTo (k : Key) (s : State) : Option (Chan × BitVec 7) :=
  match ([0, 1] : List Chan).findSome? fun c => (plcStation c k s).map fun x => (c, x.stn) with
  | some (c, n) => if plcCut c n s then none else some (c, n)
  | none => none

/-- The next hop towards a station: the first repeater of its chord, or the station itself (R330); between two slaves of a polling
master, the master (R323). -/
def plcNextHop (c : Chan) (dst : BitVec 7) (s : State) : BitVec 7 :=
  let p := plc c s
  if p.access == 2 && p.role == 0 then
    match p.stations.find? fun x => x.key == p.coord with
    | some m => m.stn
    | none => dst
  else match p.chords.find? fun x => x.orig == p.stn && x.dst == dst with
  | some ch => ch.reps.headD dst
  | none => dst

/-- A class M, S or B frame queued on a power-line channel (R312). -/
def plcQueue (c : Chan) (hop : BitVec 7) (f : NatFrame) (origin : Option TxRef) (inPort : Option PortNo) (s : State) : State :=
  let d : PlcData := { hop := hop, cls := f.cls, deep := f.cls == 2 || f.cls == 3, bytes := natBytes f, origin := origin, inPort := inPort,
                       pool := poolFor (framePool f.cls f.raw) (natBytes f).length s, pcp := f.pcp }
  modPlc c (fun p => { p with dataQ := p.dataQ ++ [d] }) s

/-- A class M frame of this node for one vertex: over the lanes where they lead there, else over the power line. -/
def sendNode (dst : Key) (payload : List Byte) (s : State) : State :=
  let f := nodeFrame dst nodeLabel payload s
  let overPlc := fun (t : State) => match plcTo dst t with
    | some (c, stn) => plcQueue c (plcNextHop c stn t) f none none t
    | none => t
  match ordOf dst s with
  | none => overPlc s
  | some o =>
    match endTowards o s with
    | none => overPlc s
    | some e =>
      if beyondForeign o s then s else
      let l := (flowLane nodeLabel o s).getD (if spanIsUp .a e s then .a else .b)
      if spanIsUp l e s then sendOnLane l e f none none s
      else if spanIsUp (Lane.other l) e s then sendOnLane (Lane.other l) e f none none s
      else overPlc s

/-- A message forwarded as R83 states: on each lane whose span at that end is up. -/
def sendBothLanes (e : End) (f : NatFrame) (s : State) : State :=
  let s1 := if spanIsUp .a e s then sendOnLane .a e f none none s else s
  if spanIsUp .b e s then sendOnLane .b e f none none s1 else s1

end Sys2Proof.Machine
end

