-- ==== Sys2Proof/Machine/Mgmt.lean ====
section
/-! DEFINITION. Management messages: the authority of a port (R630 to R634, Table 17.2), refusals and their counts, and
responses by the port the request came from (R421, R719). -/
namespace Sys2Proof.Machine

/-- An authority of Table 17.1. -/
inductive Authority | owner | peer | maintainer | train | trainLimited
  deriving DecidableEq, Repr

/-- The authority of a request by its port of arrival (R630): the management engine of the reference apex has Train. -/
def authorityOf (p : MgmtPort) (s : State) : Authority :=
  match p with
  | .h1 => .owner
  | .h2 => .peer
  | .sp _ _ => .maintainer
  | .lane _ src => if src == s.rlv.refKey then .train else .trainLimited
  | .powerLine _ _ => .trainLimited

/-- The port number of SEC_LAST_DENIED (Table 17.10). -/
def portCode (p : MgmtPort) : Nat :=
  match p with
  | .h1 => 0
  | .h2 => 1
  | .sp _ _ => 2
  | .lane _ _ => 3
  | .powerLine _ _ => 4

/-- The status values of Table 19.5 that responses use. -/
def stOk : Nat := 0x00
def stNoRoute : Nat := 0x04
def stAuthority : Nat := 0x05
def stMalformed : Nat := 0x06
def stTimeout : Nat := 0x07
def stRemoteError : Nat := 0x08
def stLockBroken : Nat := 0x09
def stNotErased : Nat := 0x0C
def stCalRefused : Nat := 0x0D
def stNotSwappable : Nat := 0x0E
def stBusy : Nat := 0x0F

/-- A request answered: it no longer counts among the open ones. -/
def dropReq (opcode tag : Half) (l : List MgmtReq) : List MgmtReq :=
  match l with
  | [] => []
  | r :: rest => if r.opcode == opcode && r.tag == tag then rest else r :: dropReq opcode tag rest

/-- One response, or one part of one: to the items of a link, as SP frames, to the source of the
session's latest request (R719), or as a class M frame to the asking vertex. -/
def respondPart (p : MgmtPort) (tag opcode : Half) (status : Nat) (more : Bool) (body : List Byte) (s : State) : State :=
  let it : MgmtItem :=
    { opcode := opcode, tag := tag, status := BitVec.ofNat 8 status, more := more, event := false, rank := 0, src := vkey s,
      body := body }
  let link := fun (l : Link) (t : State) =>
    modLink l (fun h => { h with items := h.items ++ [it],
                                 reqs := if more then h.reqs else dropReq opcode tag h.reqs }) t
  match p with
  | .h1 => link .h1 s
  | .h2 => link .h2 s
  | .sp c mac =>
    let msg := encodeMgmt it
    modSp c (fun x => { x with reqs := if more then x.reqs else dropReq opcode tag x.reqs,
                               answered := x.answered ++ [(tag, msg, s.now)] }) (spSend c ((spOf c s).peer.getD mac) 2 msg s)
  | .lane _ src => sendNode src (encodeMgmt it) s
  | .powerLine _ src => sendNode src (encodeMgmt it) s

/-- The final response of a request (R421). -/
def respond (p : MgmtPort) (tag opcode : Half) (status : Nat) (body : List Byte) (s : State) : State :=
  respondPart p tag opcode status false body s

/-- The answer to a request. -/
def answer (r : Req) (opcode : Half) (status : Nat) (body : List Byte) (s : State) : State :=
  respond r.port r.tag opcode status body s

/-- A request refused for authority or PLOCK: AUTHORITY with its reason, counted and latched, its event at most once per
second and port (R631, R634). -/
def refuse (r : Req) (opcode : Half) (reason : Nat) (event : Half) (s : State) : State :=
  let pc := portCode r.port
  let s1 := answer r opcode stAuthority (d1 reason) s
  let s2 := { s1 with sec.cntDeniedMsg := s1.sec.cntDeniedMsg + 1,
                      sec.lastDenied := word (putBits 12 20 opcode.toNat + putBits 0 4 pc) }
  if spaced (Tab.find pc s2.sec.msgEvAt) (sec 1) s2 then
    raise event (d2 opcode.toNat ++ d1 pc) { s2 with sec.msgEvAt := Tab.put pc s2.now s2.sec.msgEvAt }
  else s2

/-- Table 17.2: whether an opcode is allowed at an authority. The restricted forms (R391, R338, far execution) are the
message's own checks. None for an opcode Table 19.3 does not list. -/
def allowedAt (opcode : Nat) (a : Authority) : Option Bool :=
  let om := a == .owner || a == .maintainer
  let op := a == .owner || a == .peer
  let opm := om || a == .peer
  match opcode with
  | 0x0101 => some opm
  | 0x0110 => some om
  | 0x0120 => some om
  | 0x0301 => some om
  | 0x0302 => some om
  | 0x0401 => some (om || a == .train || a == .trainLimited)
  | 0x0501 => some opm
  | 0x0502 => some (a == .owner)
  | 0x0601 => some om
  | 0x0602 => some om
  | 0x0701 => some opm
  | 0x0702 => some om
  | 0x0801 => some op
  | 0x0802 => some op
  | 0x0803 => some op
  | 0x0A01 => some (a == .owner)
  | 0x0A02 => some (a == .owner)
  | 0x0A03 => some (a == .owner)
  | 0x0A04 => some (a == .owner)
  | 0x0B01 => some opm
  | 0x0C01 => some om
  | 0x0C02 => some om
  | 0x0C10 => some op
  | 0x0C11 => some op
  | 0x0C12 => some op
  | 0x0C20 => some om
  | 0x0D01 => some om
  | 0x0D10 => some opm
  | 0x0D11 => some om
  | 0x0D12 => some om
  | 0x0D21 => some om
  | 0x0D22 => some om
  | 0x0D23 => some om
  | 0x0E01 => some opm
  | n => if 0x0F00 ≤ n && n ≤ 0x0FFF then some false else none

/-- One attempt on the maker modes: Fatal event 0xF001, at most one per port per 1,024 Cellar ticks, the others counted for
the next (R727). -/
def makerAttempt (pc what : Nat) (s : State) : State :=
  if spaced (Tab.find pc s.sec.makerAt) (ticksNs 1024) s then
    let n := Tab.getD 0 pc s.sec.makerHeld
    let s1 := { s with sec.makerAt := Tab.put pc s.now s.sec.makerAt, sec.makerHeld := Tab.put pc 0 s.sec.makerHeld,
                       srm.buckets := Tab.put 0xF001
                         { bucket 0xF001 s with suppressed := (bucket 0xF001 s).suppressed + n } s.srm.buckets }
    raise 0xF001 (d1 pc ++ d2 what) s1
  else { s with sec.makerHeld := Tab.put pc (Tab.getD 0 pc s.sec.makerHeld + 1) s.sec.makerHeld }

/-- Checks 1 and 2 of R631 for an opcode: `k` runs the message where it is allowed. -/
def authorised (opcode : Half) (r : Req) (k : State → State) (s : State) : State :=
  match allowedAt opcode.toNat (authorityOf r.port s) with
  | none => answer r opcode stMalformed [] s
  | some true => k s
  | some false =>
    let s1 := refuse r opcode 0x01 0xD001 s
    if 0x0F00 ≤ opcode.toNat && opcode.toNat ≤ 0x0FFF then makerAttempt (portCode r.port) opcode.toNat s1 else s1

/-- A malformed request (R15, R631). -/
def malformed (r : Req) (opcode : Half) (s : State) : State := answer r opcode stMalformed [] s

/-- BUSY with a reason byte. -/
def busy (r : Req) (opcode : Half) (reason : Nat) (s : State) : State := answer r opcode stBusy (d1 reason) s

/-- A request whose ACTION, TARGET or the like is a reserved code, which no row of the table stands for (R15, R295, R533, R583, R611, R661;
the codes of `plc_attach` are the model's, log entry 17). -/
def reservedAction (opcode : Half) (b : List Byte) : Bool :=
  match opcode.toNat with
  | 0x0101 => byteAt b 0 == 0 || decide (2 < byteAt b 0)
  | 0x0602 => byteAt b 1 == 0 || decide (2 < byteAt b 1)
  | 0x0B01 => byteAt b 0 == 0 || decide (5 < byteAt b 0)
  | 0x0C01 => byteAt b 1 == 0 || decide (2 < byteAt b 1)
  | 0x0D23 => byteAt b 1 == 0 || decide (3 < byteAt b 1)
  | _ => false

/-- Table 17.2 allows every form of a message at an authority; of `power_request` and `sleep_command` an authority below Owner may be
allowed named forms only. -/
def everyForm (opcode : Half) (a : Authority) : Bool :=
  match opcode.toNat with
  | 0x0101 => a != .peer
  | 0x0B01 => a == .owner
  | _ => true

/-- A request with a reserved ACTION or TARGET is refused for its authority first (R631), else for its body. -/
def refuseReserved (r : Req) (opcode : Half) (s : State) : State :=
  if everyForm opcode (authorityOf r.port s) then malformed r opcode s else refuse r opcode 0x01 0xD001 s

/-- The link of a request from a host, H1 for every other port. -/
def reqLink (p : MgmtPort) : Link := match p with | .h2 => .h2 | _ => .h1

/-- A capture in progress stops without an end record: TIMEOUT (R725). -/
def capsuleStops (s : State) : State :=
  match s.svc.capsule with
  | some k => respond k.port k.tag 0x0C20 stTimeout [] { s with svc.capsule := none, svc.capsuleEnd := some s.now }
  | none => s

/-- Bytes `from_` to `to_ - 1` of a body are 0. -/
def zeros (b : List Byte) (from_ to_ : Nat) : Bool := (slice b from_ (to_ - from_)).all (· == 0)

end Sys2Proof.Machine
end

