-- ==== Sys2Proof/Machine/Rings.lean ====
section
/-! DEFINITION. Rings and completions: producing a Send or Receive completion in ring order (R407 to R413, R429), halting a
ring (R427), offering an item to a Receive ring (R405, R406), reporting a gap (R178). -/
namespace Sys2Proof.Machine

/-- RXWAIT of a context, in ms. -/
def ctxRxWait (c : Ctx) : Nat := fieldOf c.ctrl 25 7
/-- URG of a context's Send ring. -/
def ctxUrg (c : Ctx) : Bool := flagOf c.ctrl 24
/-- Completion queue of a ring of a context. -/
def ctxCq (r : Ring) (c : Ctx) : CqNo :=
  match r with
  | .tx => ⟨fieldOf c.ctrl 16 4 % 16, Nat.mod_lt _ (by decide)⟩
  | .rx => ⟨fieldOf c.ctrl 20 4 % 16, Nat.mod_lt _ (by decide)⟩
/-- Size of a ring in descriptors: 2 to its SIZE_LOG2. -/
def ctxSize (r : Ring) (c : Ctx) : Nat :=
  match r with
  | .tx => 2 ^ fieldOf c.ctrl 0 5
  | .rx => 2 ^ fieldOf c.ctrl 8 5

/-- The 64-bit address of entry `idx` of a table of 32-byte entries. -/
def entryAddr (base : Dword) (idx : Nat) : Dword := base + BitVec.ofNat 64 (32 * idx)

/-- A completion joins its queue's waiting completions (R411). -/
def cqPush (n : CqNo) (p : CqPend) (s : State) : State := modCq n (fun q => { q with pend := q.pend ++ [p] }) s

/-- The Send completion of a fetched descriptor (Table 9.6). -/
def txCompletion (l : Link) (c : Nat) (t : TxPend) (status : BitVec 8) : CqPend :=
  { link := l, cqp := c, isRx := false, d0 := lo32 t.cookie, d1 := hi32 t.cookie,
    d2 := word (putBit 29 t.hostErr + putBit 28 t.plc + putBit 27 t.lane + putBit 26 t.retx + putBit 25 t.delayed
      + putBit 24 t.csumSkipped + putBits 16 8 status.toNat + putBits 0 10 c),
    d3 := word (putBits 16 16 t.fseq.toNat + t.idx.toNat), d4 := lo32 t.time, d5 := hi32 t.time, d6 := word t.epoch.toNat,
    d7 := 0, uses := true, urgent := t.classU || status != 0, charge := t.charge,
    octets := t.len, localTx := none }

/-- The decided descriptors at the head of a Send ring, and the others (R429: completions in ring order). -/
def splitDone : List TxPend → List (TxPend × BitVec 8) × List TxPend
  | [] => ([], [])
  | t :: rest =>
    match t.result with
    | some st => ((t, st) :: (splitDone rest).1, (splitDone rest).2)
    | none => ([], t :: rest)

/-- Completions of decided descriptors at the head of a Send ring join the ring's completion queue. -/
def flushTx (l : Link) (c : Nat) (s : State) : State :=
  let x := ctx l c s
  let sp := splitDone x.txPend
  let s1 := modCtx l c (fun y => { y with txPend := sp.2 }) s
  sp.1.foldl (fun t d => cqPush (ctxCq .tx x) (txCompletion l c d.1 d.2) t) s1

/-- A fetched descriptor gets its result. -/
def setResult (idx : Half) (f : TxPend → TxPend) : List TxPend → List TxPend
  | [] => []
  | t :: rest => if t.idx == idx && t.result.isNone then f t :: rest else t :: setResult idx f rest

/-- The later of two train times. -/
def laterOf (a b : Dword) : Dword := if a.toNat < b.toNat then b else a

/-- The descriptor a frame came from is decided with a status; `f` gives the completion the time at which the first bit left, else it
carries the time of the decision. A frame with several egress copies is decided at its last, with the latest such time (R408). -/
def completeTx (r : TxRef) (status : Nat) (f : TxPend → TxPend) (s : State) : State :=
  let decided := fun (t : TxPend) =>
    if 1 < t.copies then { f t with copies := t.copies - 1, time := laterOf t.time (f t).time }
    else
      let u := f { t with copies := 0, result := some (BitVec.ofNat 8 status),
                          time := if status = 0 && t.time != 0 then t.time else trainTime s }
      { u with time := if status = 0 then laterOf t.time u.time else u.time }
  flushTx r.link r.cqp (modCtx r.link r.cqp (fun x => { x with txPend := setResult r.idx decided x.txPend }) s)

/-- As `completeTx` for a frame that may have no local descriptor. -/
def completeOrigin (o : Option TxRef) (status : Nat) (f : TxPend → TxPend) (s : State) : State :=
  match o with
  | some r => completeTx r status f s
  | none => s

/-- A ring halts (R427): HALT_IDX, HALT_WHY, HALT_RING, and its event. -/
def haltRing (l : Link) (c : Nat) (r : Ring) (idx : Half) (why : HaltWhy) (s : State) : State :=
  let code : Half := match why with | .malformed => 0x8001 | .hostRead => 0x8002 | .overrun => 0x8003
  let s1 := modCtx l c (fun x => match r with
    | .tx => { x with txState := .halted, haltIdx := idx, haltWhy := why, haltTx := true }
    | .rx => { x with rxState := .halted, haltIdx := idx, haltWhy := why, haltRx := true }) s
  raise code (d1 (Link.num l) ++ d2 c ++ d1 (match r with | .tx => 0 | .rx => 1) ++ d2 idx.toNat) s1

/-- The Receive completion of an item (Table 9.7). -/
def rxCompletion (l : Link) (c : Nat) (it : RxItemDue) (status : Nat) (idx : Half) (noBuf : Bool) (len : Nat) : CqPend :=
  { link := l, cqp := c, isRx := true, d0 := keyLo it.src,
    d1 := word (putBits 16 10 it.srcCqp.toNat + (keyHi it.src).toNat),
    d2 := word (putBit 28 noBuf + putBit 27 it.lane + putBit 26 it.viaPlc + putBit 25 it.bcast + putBit 24 it.raw
      + putBits 16 8 status + putBit 10 true + putBits 0 10 c),
    d3 := word (putBits 16 16 it.fseq.toNat + idx.toNat), d4 := lo32 it.time, d5 := hi32 it.time,
    d6 := if it.gapCount = 0 then word (putBits 16 14 (if status = 0x0B then it.fullLen else 0) + putBits 0 14 len) else word (it.gapCount % 65536),
    d7 := word (putBits 16 12 it.label.toNat + putBits 12 2 it.ipCsum.toNat + putBits 10 2 it.l4Csum.toNat
      + putBits 7 3 it.pcp.toNat + putBits 4 2 it.cls.toNat + putBits 0 4 it.srcPort.toNat),
    uses := !noBuf, urgent := it.cls == 0 || status ≠ 0, charge := 0, octets := len, localTx := it.localTx }

/-- A Receive completion without a descriptor joins its queue where that queue is enabled for the link. -/
def rxReport (l : Link) (c : Nat) (it : RxItemDue) (s : State) : State :=
  let x := ctx l c s
  let q := ctxCq .rx x
  if (cq q s).en && (cq q s).link == l then cqPush q (rxCompletion l c it 0x0A x.rxDone true 0) s else s

/-- Runs of missing numbers counted in BBN_CNT_GAP (R178). -/
def countGaps (n : Nat) (s : State) : State := { s with bbn.cntGap := s.bbn.cntGap + BitVec.ofNat 32 n }

/-- An item waits for a Receive descriptor of its client; a ring that is not RUNNING drops it, counts it and reports a flow's
number as GAP (R406, R178). A GAP report takes no descriptor and waits only for its turn. -/
def rxOffer (c : Nat) (it : RxItemDue) (s : State) : State :=
  let l := ownerOf c s
  let x := ctx l c s
  if x.rxState == .running then
    modCtx l c (fun y => { y with rxWait := y.rxWait ++ [{ it with waitUntil := s.now + ms (ctxRxWait x) }] }) s
  else if it.gapCount = 0 then
    let s1 := modCtx l c (fun y => { y with cntRxNobuf := y.cntRxNobuf + 1 }) s
    let s2 := completeOrigin it.localTx 0 id s1
    if it.isFlow then rxReport l c { it with gapCount := 1, fullLen := 0 } (countGaps 1 s2) else s2
  else rxReport l c it s

/-- The GAP report of `n` missing numbers of a flow from `first` on, to the CQP and with the fields of the frame that led to
it (R178). -/
def gapItem (f : NatFrame) (first : Half) (n : Nat) (s : State) : RxItemDue :=
  { src := f.src, srcCqp := f.srcCqp, srcPort := 0xF, raw := false, bcast := false, viaPlc := false, lane := false,
    cls := f.cls, pcp := f.pcp, label := f.label, fseq := first, isFlow := true, truncated := false, ipCsum := 0,
    l4Csum := 0, fullLen := 0, data := [], time := trainTime s, waitUntil := 0, gapCount := n, inPort := none,
    pool := 3, localTx := none }

/-- A run of missing numbers is reported and counted (R178). -/
def reportGap (f : NatFrame) (first : Half) (n : Nat) (s : State) : State :=
  if n = 0 then s
  else
    let s1 := countGaps 1 s
    if f.dstCqp = 0 then s1 else rxOffer f.dstCqp.toNat (gapItem f first n s1) s1

/-- Whole ring of a CQP idle: nothing fetched without a completion written (R425). -/
def ringIdle (l : Link) (c : Nat) (r : Ring) (s : State) : Bool :=
  let x := ctx l c s
  let waiting := (cq (ctxCq r x) s).pend.any fun p => p.link == l && p.cqp == c && p.isRx == (r == .rx)
  match r with
  | .tx => x.txPend.isEmpty && x.redo.isEmpty && !waiting
  | .rx => !waiting

/-- Frame-store bytes a client's Send ring occupies (TX_USED, R447). -/
def txUsed (l : Link) (c : Nat) (s : State) : Nat :=
  ((ctx l c s).txPend.map (·.charge)).sum
  + ((s.hif.cqs.toList.map fun q => ((q.pend.filter fun p => p.link == l && p.cqp == c).map (·.charge)).sum).sum)

/-- Frame-store bytes that wait for a client's Receive descriptors (RX_USED, R452); class U does not count. -/
def rxUsed (l : Link) (c : Nat) (s : State) : Nat :=
  (((ctx l c s).rxWait.filter fun i => i.cls != 0).map fun i => units64 i.data.length).sum

end Sys2Proof.Machine
end

