-- ==== Sys2Proof/Machine/Flows.lean ====
section
/-! DEFINITION. Flow sequence rules: numbering at the sender (R173), order, holding, duplicates and gaps at the receiver
(R174 to R178, R194, R197). -/
namespace Sys2Proof.Machine

/-! ### Sender -/

/-- The sender's entry of a flow. -/
def findTx (id : FlowId) : List TxFlow → Option TxFlow
  | [] => none
  | f :: rest => if f.id == id then some f else findTx id rest

/-- The sender's entry of a flow replaced, or added. -/
def putTx (f : TxFlow) : List TxFlow → List TxFlow
  | [] => [f]
  | x :: rest => if x.id == f.id then f :: rest else x :: putTx f rest

/-- The flow a frame belongs to (Table 0.4). -/
def flowOf (f : NatFrame) : FlowId := ⟨f.src, f.srcCqp, f.label⟩

/-- A frame of this vertex gets the next number of its flow; a flow without state starts at FSEQ 0 with SYNC 1 (R28, R173). -/
def stampFlow (f : NatFrame) (s : State) : NatFrame × State :=
  let id := flowOf f
  let e : TxFlow := match findTx id s.bbn.txFlows with
    | some e => e
    | none => ⟨id, 0, true, s.now, none⟩
  let e' : TxFlow := { e with next := e.next + 1, sync := false, last := s.now }
  ({ f with fseq := e.next, sync := e.sync }, { s with bbn.txFlows := putTx e' s.bbn.txFlows })

/-! ### Receiver -/

/-- What the receiver rules put out, in order: a frame delivered, or a run of missing numbers. -/
inductive FlowOut
  | deliver (h : HeldFrame)
  | gap (first : Half) (n : Nat)
  deriving DecidableEq, Repr

/-- (q − NEXT) mod 2^16 (R175). -/
def ahead (next q : Half) : Nat := (q - next).toNat

/-- A frame joins those held, in rising distance from NEXT. -/
def insertHeld (next : Half) (h : HeldFrame) : List HeldFrame → List HeldFrame
  | [] => [h]
  | x :: rest =>
    if ahead next h.frame.fseq < ahead next x.frame.fseq then h :: x :: rest else x :: insertHeld next h rest

/-- The first `n` numbers from `base` on, from the `cur`-th: held frames delivered, runs of missing ones as gaps in their
place (R175). Answers what is put out and what stays held. -/
def walkHeld (base : Half) (n cur : Nat) : List HeldFrame → List FlowOut × List HeldFrame
  | [] => (if cur < n then [.gap (base + BitVec.ofNat 16 cur) (n - cur)] else [], [])
  | h :: rest =>
    let d := ahead base h.frame.fseq
    if d < n then
      let r := walkHeld base n (d + 1) rest
      ((if cur < d then [.gap (base + BitVec.ofNat 16 cur) (d - cur)] else []) ++ .deliver h :: r.1, r.2)
    else (if cur < n then [.gap (base + BitVec.ofNat 16 cur) (n - cur)] else [], h :: rest)

/-- Held frames that are now next in order: the new NEXT, what is delivered, what stays held. -/
def drainHeld (next : Half) : List HeldFrame → Half × List FlowOut × List HeldFrame
  | [] => (next, [], [])
  | h :: rest =>
    if h.frame.fseq == next then
      let r := drainHeld (next + 1) rest
      (r.1, .deliver h :: r.2.1, r.2.2)
    else (next, [], h :: rest)

/-- The numbers put out as delivered. -/
def deliveredOf : List FlowOut → List Half
  | [] => []
  | .deliver h :: rest => h.frame.fseq :: deliveredOf rest
  | .gap _ _ :: rest => deliveredOf rest

/-- The receiver remembers deliveries only for NEXT − 64 to NEXT − 1 (R175). -/
def remember (next : Half) (l : List Half) : List Half := l.filter fun n => n != next && decide (ahead n next ≤ 64)

/-- The state of a flow at NEXT = `next` with `held` held, after `outs`. -/
def RxFlow.moved (r : RxFlow) (next : Half) (outs : List FlowOut) (held : List HeldFrame) : RxFlow :=
  { r with next := next, held := held, delivered := remember next (deliveredOf outs ++ r.delivered) }

/-- The first `n` numbers given up in order, then held frames that are next in order. -/
def giveUp (n : Nat) (r : RxFlow) : RxFlow × List FlowOut :=
  let w := walkHeld r.next n 0 r.held
  let d := drainHeld (r.next + BitVec.ofNat 16 n) w.2
  (r.moved d.1 (w.1 ++ d.2.1) d.2.2, w.1 ++ d.2.1)

/-- A frame less than 64 ahead of NEXT, or at it (R175, first two cases): second, it was held already. -/
def placeNear (h : HeldFrame) (r : RxFlow) : RxFlow × List FlowOut × Bool :=
  if h.frame.fseq == r.next then
    let d := drainHeld (r.next + 1) r.held
    (r.moved d.1 (.deliver h :: d.2.1) d.2.2, .deliver h :: d.2.1, false)
  else if r.held.any fun x => x.frame.fseq == h.frame.fseq then (r, [], true)
  else ({ r with held := insertHeld r.next h r.held }, [], false)

/-- Why a frame is dropped: a duplicate or late (R175). -/
inductive FlowDrop | none | dup | late
  deriving DecidableEq, Repr

/-- R175 for an arriving frame. -/
def placeFrame (h : HeldFrame) (r : RxFlow) : RxFlow × List FlowOut × FlowDrop :=
  let d := ahead r.next h.frame.fseq
  if d < 64 then
    let p := placeNear h r
    (p.1, p.2.1, if p.2.2 then .dup else .none)
  else if d < 32768 then
    let g := giveUp (d - 63) r
    let p := placeNear h g.1
    (p.1, g.2 ++ p.2.1, if p.2.2 then .dup else .none)
  else (r, [], if h.frame.retx || r.delivered.contains h.frame.fseq then .dup else .late)

/-- Everything held is delivered, with the gaps between: a flow that ends (R174, R197). -/
def flushHeld (r : RxFlow) : RxFlow × List FlowOut :=
  match r.held.getLast? with
  | some h => giveUp (ahead r.next h.frame.fseq + 1) r
  | none => (r, [])

/-- A gap of the outputs, and a delivery. -/
def isGap : FlowOut → Bool
  | .gap _ _ => true
  | .deliver _ => false

/-- Everything held before a SYNC frame: the gaps are reported first, then what was held is delivered (R176). -/
def syncHeld (r : RxFlow) : RxFlow × List FlowOut :=
  let g := flushHeld r
  (g.1, g.2.filter isGap ++ g.2.filter fun o => !isGap o)

/-- R176 and R175 for an arriving frame of a flow. The memory of delivered numbers (R175) begins anew at a SYNC frame: the spec does not
say whether it outlives one (DESIGN CHOICE, log entry 68). -/
def flowArrive (h : HeldFrame) (r : RxFlow) : RxFlow × List FlowOut × FlowDrop :=
  if h.frame.sync then
    if h.frame.retx && r.lastSync == some h.frame.fseq && decide (32768 ≤ ahead r.next h.frame.fseq) then (r, [], .dup)
    else
      let g := syncHeld r
      let p := placeFrame h { g.1 with next := h.frame.fseq, delivered := [], lastSync := some h.frame.fseq }
      (p.1, g.2 ++ p.2.1, p.2.2)
  else placeFrame h r

/-- Interop mode: arrival order, a number among the last 64 delivered is dropped, nothing is held and no gap is
reported (R194). -/
def flowArriveInterop (h : HeldFrame) (r : RxFlow) : RxFlow × List FlowOut × FlowDrop :=
  if r.delivered.contains h.frame.fseq then (r, [], .dup)
  else ({ r with next := h.frame.fseq + 1, delivered := h.frame.fseq :: r.delivered.take 63 }, [.deliver h], .none)

/-- The receiver's entry of a flow. -/
def findRx (id : FlowId) : List RxFlow → Option RxFlow
  | [] => none
  | f :: rest => if f.id == id then some f else findRx id rest

/-- The receiver's entry of a flow replaced, or added. -/
def putRx (f : RxFlow) : List RxFlow → List RxFlow
  | [] => [f]
  | x :: rest => if x.id == f.id then f :: rest else x :: putRx f rest

/-- Capacity of the receiver's table (R197). -/
def rxFlowCapacity : Nat := 65536

/-- The entry idle longest; of several equally long idle the one created first, where the spec names none (DESIGN CHOICE, log entry
68). -/
def oldestRx : List RxFlow → Option RxFlow
  | [] => none
  | f :: rest =>
    match oldestRx rest with
    | some g => if g.last < f.last then some g else some f
    | none => some f

/-- A frame whose place in the outputs a gap takes its fields from: the first frame delivered after it, else the frame that
led to the report; after a SYNC frame, the SYNC frame (R178). -/
def tieGaps (cause : NatFrame) (fixed : Bool) : List FlowOut → List (FlowOut × NatFrame)
  | [] => []
  | o :: rest =>
    let t := tieGaps cause fixed rest
    let next := (rest.findSome? fun x => match x with | .deliver h => some h.frame | .gap _ _ => none).getD cause
    match o with
    | .deliver h => (o, h.frame) :: t
    | .gap _ _ => (o, if fixed then cause else next) :: t

end Sys2Proof.Machine
end

