-- ==== Sys2Proof/Machine/Operands.lean ====
section
/-! DEFINITION. What a command reads from host memory: Send and Receive descriptors (Tables 9.4 and 9.5), management requests
(Table 9.10), with every check R401, R402 and R404 make on them. -/
namespace Sys2Proof.Machine

/-- A Send descriptor as read (Table 9.4). -/
structure SendDesc where
  buf : Dword
  len : Nat
  raw : Bool
  csumIp : Bool
  csumL4 : Bool
  guardEn : Bool
  cls : BitVec 2
  pcp : BitVec 3
  /-- A reserved bit is not 0. -/
  reserved : Bool
  dstPort : Nat
  label : BitVec 12
  guard : Half
  dst : Key
  dstCqp : BitVec 10
  cookie : Dword
  /-- Every field R402 reserves is 0. -/
  bareOk : Bool
  deriving DecidableEq, Repr

/-- The Send descriptor in 32 bytes (Table 9.4). -/
def sendDesc (b : List Byte) : SendDesc :=
  let w := fun (i : Nat) => leAt b (4 * i) 4
  let d2_ := w 2
  let d3_ := w 3
  let d5_ := w 5
  { buf := BitVec.ofNat 64 (leAt b 0 8), len := bitsOf d2_ 0 14, raw := bitOf d2_ 16, csumIp := bitOf d2_ 17,
    csumL4 := bitOf d2_ 18, guardEn := bitOf d2_ 19, cls := BitVec.ofNat 2 (bitsOf d2_ 20 2),
    pcp := BitVec.ofNat 3 (bitsOf d2_ 22 3),
    reserved := bitsOf d2_ 14 2 ≠ 0 || bitsOf d2_ 25 7 ≠ 0 || bitsOf d5_ 26 6 ≠ 0
      || (7 < bitsOf d3_ 28 4 && bitsOf d3_ 28 4 ≠ 15),
    dstPort := bitsOf d3_ 28 4, label := BitVec.ofNat 12 (bitsOf d3_ 16 12), guard := BitVec.ofNat 16 (bitsOf d3_ 0 16),
    dst := mkKey (w 4 + bitsOf d5_ 0 16 * 2 ^ 32), dstCqp := BitVec.ofNat 10 (bitsOf d5_ 16 10),
    cookie := BitVec.ofNat 64 (leAt b 24 8), bareOk := bitsOf d2_ 14 18 == 0 && d3_ == 0 && w 4 == 0 && d5_ == 0 }

/-- A PCP lies in B_MASK (R245). -/
def inBMask (p : BitVec 3) (s : State) : Bool := bitOf (bMask s) p.toNat

/-- LP_MAXLEN as it reads: 1,564 on a port with a lane role (R218, R219). -/
def effMaxLen (n : PortNo) (s : State) : Nat := if (portLane n s).isSome then 1564 else (port n s).maxLen.toNat

/-- A port number of DST_PORT. -/
def asPort (n : Nat) : PortNo := ⟨n % 8, Nat.mod_lt _ (by decide)⟩

/-- R401 for a descriptor of a client ring that is bound to nothing. -/
def sendMalformed (d : SendDesc) (urg : Bool) (s : State) : Bool :=
  let u := d.cls == 0
  d.reserved || d.cls == 1 || (u != urg) || (u && d.dst == allKey) || d.dst == 0
  || (!d.raw && decide (1518 < d.len)) || (u && decide (306 < d.len)) || (d.raw && decide (d.len < 14))
  || (d.dstPort ≠ 15 && !d.raw) || (d.cls != 3 && d.pcp != 0) || (d.cls == 3 && !inBMask d.pcp s)
  || d.label == nodeLabel || ((d.csumIp || d.csumL4) && !d.raw)
  || (d.dst == vkey s && d.dstPort ≠ 15 && decide (effMaxLen (asPort d.dstPort) s < d.len + 4))

/-- R402 for a descriptor of a CQP bound to a consist port: a raw frame within the port's LP_MAXLEN (R223). -/
def boundMalformed (d : SendDesc) (n : PortNo) (s : State) : Bool :=
  !d.bareOk || decide (d.len < 14) || decide (effMaxLen n s < d.len + 4)

/-- A Receive descriptor (Table 9.5): its buffer, its length, none where R404 refuses it. -/
def recvDesc (b : List Byte) : Option (Dword × Nat) :=
  let w2 := leAt b 8 4
  if 2 ^ 14 ≤ w2 || leAt b 12 20 ≠ 0 || w2 < 64 then none else some (BitVec.ofNat 64 (leAt b 0 8), w2)

/-- A management request as read from its buffer (Table 9.10), and whether its header is well formed. -/
structure MgmtMsg where
  opcode : Half
  tag : Half
  body : List Byte
  ok : Bool
  deriving DecidableEq, Repr

/-- The management request in a buffer. A header with a reserved field that is not 0, or a length that does not match, is not
well formed; it is answered MALFORMED (R15, log entry 12). -/
def mgmtMsg (b : List Byte) : MgmtMsg :=
  let n := leAt b 4 2
  { opcode := BitVec.ofNat 16 (leAt b 0 2), tag := BitVec.ofNat 16 (leAt b 2 2), body := b.drop 8,
    ok := decide (8 ≤ b.length) && b.length == 8 + n && decide (n ≤ 4088) && byteAt b 6 == 0 && byteAt b 7 == 0 }

/-- The CAN channel a CQP is bound to (R344). -/
def canOf (c : Nat) (s : State) : Option Chan :=
  if c = 0 then none
  else if s.vx.can0.cqp.toNat = c then some 0
  else if s.vx.can1.cqp.toNat = c then some 1
  else none

/-- The consist port a CQP is bound to by LP_BIND: the lowest-numbered one (R201, R402). -/
def bindOf (c : Nat) (s : State) : Option PortNo :=
  if c = 0 then none
  else (List.finRange 8).find? fun n => (port n s).role == 1 && (port n s).bind.toNat == c

/-- The bytes of ring entry `idx` of a Send or Receive ring. -/
def ringEntry (l : Link) (c : Nat) (r : Ring) (idx : Half) (s : State) : List Byte :=
  let x := ctx l c s
  match r with
  | .tx => readHost l (entryAddr x.txBase (idx.toNat % ctxSize .tx x)) 32 s
  | .rx => readHost l (entryAddr x.rxBase (idx.toNat % ctxSize .rx x)) 32 s

end Sys2Proof.Machine
end

