-- ==== Sys2Proof/Machine/Routes.lean ====
section
/-! DEFINITION. Where a frame of this vertex goes: the lanes and the power line (R23, R98, R170, R171, R193, R332), the
queues it joins, what its descriptor completes with where it goes nowhere. -/
namespace Sys2Proof.Machine

/-- A lane is down on the span above ordinal `o`. -/
def downAbove (l : Lane) (o : Nat) (s : State) : Bool :=
  s.bbn.downSpans.any fun d => d.lane == l && decide (d.low ≤ o) && decide (o < d.high)

/-- Both lanes are down on the span above ordinal `o`. -/
def cutAbove (o : Nat) (s : State) : Bool := downAbove .a o s && downAbove .b o s

/-- The entry of an ordinal joined over the power line only (R101). -/
def plcOnlyOrd (o : Nat) (s : State) : Bool := s.rlv.poly.any fun e => e.ord.toNat == o && e.plcOnly

/-- Every span between this vertex and an ordinal has a lane up (R171). -/
def laneReach (o : Nat) (s : State) : Bool :=
  let lo := min o s.rlv.ord
  !s.rlv.plcOnly && !plcOnlyOrd o s && (endTowards o s).isSome
  && (List.range (max o s.rlv.ord - lo)).all fun i => !cutAbove (lo + i) s

/-- Where a frame to one vertex goes. -/
inductive Route
  | self
  | lane (e : End) (l : Lane)
  | plc (c : Chan) (stn : BitVec 7)
  | held
  | nowhere
  deriving DecidableEq, Repr

/-- The route over the power line, if any; in interop mode it carries no client frames (R334). -/
def plcRoute (cls : BitVec 2) (k : Key) (s : State) : Route :=
  if cls != 1 && !nativeRun s then .nowhere
  else match plcTo k s with
  | some (c, stn) => .plc c stn
  | none => .nowhere

/-- The route of a frame of a class and flow label to a vertex (R23, R98, R170, R171, R193, R332). -/
def routeTo (cls : BitVec 2) (label : BitVec 12) (k : Key) (s : State) : Route :=
  if k == vkey s then .self
  else match ordOf k s with
    | none => .nowhere
    | some o =>
      if heldKey k s then
        (if cls == 1 || cls == 3 then (match plcRoute cls k s with | .nowhere => .held | r => r) else .held)
      else if beyondForeign o s then .nowhere
      else if laneReach o s then
        match endTowards o s with
        | none => .nowhere
        | some e =>
          match if nativeRun s then flowLane label o s else none with
          | some l => .lane e l
          | none =>
            if cls == 0 && nativeRun s then .nowhere
            else .lane e (if spanIsUp (homeLane label s) e s then homeLane label s else Lane.other (homeLane label s))
      else plcRoute cls k s

/-- The lane of a frame in transit: its flow's, from its source to its destination; the one it came on where neither leads all the way,
changed where that lane is down at this span (R170, R171). -/
def transitLane (f : NatFrame) (arrived : Lane) (e : End) (s : State) : Lane :=
  let l := match ordOf f.src s, ordOf f.dst s with
    | some a, some b => (laneBetween (homeLane f.label s) a b s).getD arrived
    | _, _ => arrived
  if spanIsUp l e s then l else Lane.other l

/-- The lane on which a frame of a routed destination leaves an end: of this vertex's own the route's, of one in transit its
flow's (R170). -/
def egressLane (f : NatFrame) (routed arrived : Lane) (e : End) (s : State) : Lane :=
  if f.src == vkey s then routed else transitLane f arrived e s

/-- The speed of a lane is 100 Mbit/s (R157). -/
def laneSlow (l : Lane) (s : State) : Bool := (match l with | .a => s.bbn.speedA | .b => s.bbn.speedB) == 1

/-- A class U payload is too long for its path (R160, R333). -/
def uTooLong (r : Route) (n : Nat) (s : State) : Bool :=
  match r with
  | .lane _ l => decide ((if laneSlow l s then 30 else 306) < n)
  | .plc _ _ => decide (30 < n)
  | _ => false

/-- The origination queue of a lane (R259). -/
def uQueue (l : Lane) (s : State) : List OutFrame := (s.bbn.uq.filter fun x => x.1 == l).map (·.2)
/-- A frame joins a lane's origination queue. -/
def joinUQueue (l : Lane) (o : OutFrame) (s : State) : State := { s with bbn.uq := s.bbn.uq ++ [(l, o)] }
/-- Waiting class U frames without the first of a lane's origination queue. -/
def dropFirstU (l : Lane) : List (Lane × OutFrame) → List (Lane × OutFrame)
  | [] => []
  | x :: rest => if x.1 == l then rest else x :: dropFirstU l rest

/-- A class U frame joins a power-line channel's due frames (R319). -/
def plcUrgent (c : Chan) (stn : BitVec 7) (f : NatFrame) (origin : Option TxRef) (s : State) : State :=
  modPlc c (fun p => { p with urgents := p.urgents ++ [⟨f, 0, p.stn, stn, p.winCount + 1, origin⟩] }) s

/-- The channel and station a flow of this vertex uses: the channel it is on while that serves the destination, else the one of its
route, which it keeps (R332). -/
def flowChan (f : NatFrame) (c : Chan) (stn : BitVec 7) (s : State) : (Chan × BitVec 7) × State :=
  match findTx (flowOf f) s.bbn.txFlows with
  | none => ((c, stn), s)
  | some e =>
    let r : Chan × BitVec 7 := match e.chan with
      | some x => (match plcStation x f.dst s with | some y => if plcCut x y.stn s then (c, stn) else (x, y.stn) | none => (c, stn))
      | none => (c, stn)
    (r, { s with bbn.txFlows := putTx { e with chan := some r.1 } s.bbn.txFlows })

/-- A frame for one other vertex leaves on its route; `laneSet` has LANE written as the lane it originates on. -/
def launch (r : Route) (f : NatFrame) (origin : Option TxRef) (inPort : Option PortNo) (s : State) : State :=
  match r with
  | .self => s
  | .lane e l =>
    let f' := { f with lane := l == .b }
    if f.cls == 0 && nativeRun s then joinUQueue l (outOf f' origin inPort s) s
    else
      match lanePort l e s with
      | some n => enqueue n (outOf f' origin inPort s) s
      | none => completeOrigin origin stNoRoute id s
  | .plc c stn =>
    let r := flowChan f c stn s
    if f.cls == 0 && nativeRun s then plcUrgent r.1.1 r.1.2 f origin r.2
    else plcQueue r.1.1 (plcNextHop r.1.1 r.1.2 s) f origin inPort r.2
  | .held =>
    if f.cls == 1 || f.cls == 3 then { s with rlv.heldFrames := s.rlv.heldFrames ++ [outOf f origin inPort s] }
    else completeOrigin origin stTimeout id s
  | .nowhere => completeOrigin origin stNoRoute id s

/-- A class M frame of this node's own flow to another vertex: numbered, then routed (R461). -/
def sendFlowNode (label : BitVec 12) (dst : Key) (payload : List Byte) (s : State) : State :=
  let n := stampFlow (nodeFrame dst label payload s) s
  launch (routeTo 1 label dst s) n.1 none none n.2

/-- A vertex that frames reach over the lanes at an end: it did not join by power line, and no foreign node is in between (R193). -/
def overLanes (e : End) (s : State) (x : PolyEntry) : Bool :=
  !x.plcOnly && endTowards x.ord.toNat s == some e && !beyondForeign x.ord.toNat s

/-- The ends beyond which the committed polyline places a vertex. -/
def polyEnd (e : End) (s : State) : Bool := s.rlv.poly.any (overLanes e s)

/-- The outermost ordinal of the polyline at an end. -/
def outermost (e : End) (s : State) : Nat :=
  (s.rlv.poly.filter (overLanes e s)).foldl
    (fun m x => if s.rlv.ord < x.ord.toNat then max m x.ord.toNat else if m = 0 then x.ord.toNat else min m x.ord.toNat) 0

/-- The egress of a frame to every vertex at an end: the flow's lane all the way, else a lane up at this span (R171). -/
def everyLane (label : BitVec 12) (e : End) (s : State) : Lane :=
  match flowLane label (outermost e s) s with
  | some l => l
  | none => if spanIsUp (homeLane label s) e s then homeLane label s else Lane.other (homeLane label s)

/-- The egresses a frame to every vertex takes from this one: each end of the polyline, each power-line-only vertex, or from such a vertex each other one. -/
def everyEgress (label : BitVec 12) (s : State) : List (PortNo ⊕ (Chan × BitVec 7)) :=
  let lanes := [End.e1, End.e2].filterMap fun e =>
    if polyEnd e s then (lanePort (everyLane label e s) e s).map Sum.inl else none
  let plcs := (s.rlv.poly.filter fun x => (x.plcOnly || s.rlv.plcOnly) && x.key != vkey s).filterMap fun x => (plcTo x.key s).map Sum.inr
  lanes ++ plcs

/-- Frames to every vertex leave on those egresses. -/
def launchEvery (f : NatFrame) (origin : Option TxRef) (s : State) : State :=
  (everyEgress f.label s).foldl (fun t g =>
    match g with
    | .inl n =>
      let l : Lane := match portLane n t with | some (x, _) => x | none => .a
      enqueue n (outOf { f with lane := l == .b } origin none t) t
    | .inr (c, stn) => plcQueue c (plcNextHop c stn t) f origin none t) s

/-- Frames kept for held vertices whose hold has ended (R98): sent where they lead somewhere now, STALE_EPOCH where the key
has left the polyline, kept on where it is still held. -/
def releaseHeld (s : State) : State :=
  let all := s.rlv.heldFrames
  all.foldl (fun t o =>
    match o.nat with
    | none => t
    | some f =>
      if (ordOf f.dst t).isNone then completeOrigin o.origin 3 id t
      else launch (routeTo f.cls f.label f.dst t)
        { f with epoch := BitVec.ofNat 16 t.rlv.epoch.toNat } o.origin o.inPort t)
    { s with rlv.heldFrames := [] }

end Sys2Proof.Machine
end

