-- ==== Sys2Proof/Machine/Sends.lean ====
section
/-! DEFINITION. What becomes of a fetched Send descriptor (R399 to R402, R445 to R450): the checks in order, admission, the
frame built from it, its local delivery, the request it carries on CQP 0. -/
namespace Sys2Proof.Machine

/-! ### When a ring is fetched -/

/-- The node can reach a link's host memory: the active endpoint's link is up and Bus Master Enable set (R385, R386). -/
def dmaOk (l : Link) (s : State) : Bool :=
  let e := endpoint (activeEp l s) s
  (e.power == .l0 || e.power == .l1) && e.busMaster && !e.d3hot

/-- Attic runs rings: from the end of S4 of a rise through RUN (Table 13.5), and not in the first steps of a takeover
(R600, R418). -/
def ringsRun (s : State) : Bool :=
  (s.cel.pstate == .run || (s.cel.pstate == .rising && decide (5 ≤ s.cel.step))) && !handingOver 4 s

/-- Completions are written while rings run, and through F7 of a fall (Table 13.6). -/
def ringsWrite (s : State) : Bool :=
  ringsRun s || (s.cel.pstate == .falling && s.cel.step == 7 && !handingOver 4 s)

/-- The Send ring of a CQP may be fetched now: it is RUNNING with descriptors posted, or one is to be executed again (R418); its completion
queue is not full (R412), no config item holds fetch (R625), and in interop mode the ETB topology is valid (R144; the management ring
of CQP 0 goes on, DESIGN CHOICE, log entry 67). -/
def fetchAllowed (l : Link) (c : Nat) (s : State) : Bool :=
  let x := ctx l c s
  dmaOk l s && ringsRun s && !(cq (ctxCq .tx x) s).full && (c == 0 || nativeRun s || s.rlv.etb.valid)
  && ((x.txState == .running && x.txFetch != x.txProd) || (x.txState != .stopped && x.redo.any fun r => r.idx == x.txFetch))
  && (match s.tc.fetchHold with | some t => decide (t ≤ s.now) | none => true)

/-! ### Fetched descriptors -/

/-- A fetched descriptor without a result. -/
def newPend (idx : Half) (cookie : Dword) (len : Nat) (s : State) : TxPend :=
  { idx := idx, cookie := cookie, len := len, copies := 1, result := none, delayed := false, lane := false, plc := false,
    retx := false, csumSkipped := false, hostErr := false, fseq := 0, epoch := BitVec.ofNat 16 s.rlv.epoch.toNat, time := 0,
    classU := false, charge := 0 }

/-- A descriptor has been fetched: it joins those without a completion and the fetch position moves on. -/
def pushPend (l : Link) (c : Nat) (t : TxPend) (s : State) : State :=
  modCtx l c (fun x => { x with txPend := x.txPend ++ [t], txFetch := x.txFetch + 1,
                                redo := x.redo.filter fun r => r.idx != t.idx }) s

/-- A fetched descriptor decided at once with a status; FSEQ 0 and the time of the decision (R448, R408). -/
def decideNow (l : Link) (c : Nat) (t : TxPend) (status : Nat) (s : State) : State :=
  flushTx l c (pushPend l c { t with result := some (BitVec.ofNat 8 status), time := trainTime s } s)

/-- A malformed descriptor: MALFORMED, and the ring halts at it (R401, R427). -/
def decideMalformed (l : Link) (c : Nat) (t : TxPend) (s : State) : State :=
  haltRing l c .tx t.idx .malformed (decideNow l c t stMalformed s)

/-- What `setResult` callbacks give a completion for a frame that left over the power line. -/
def leftByPlc (t : TxPend) : TxPend := { t with plc := true }

/-! ### Admission -/

/-- What admission answers (Table 10.3). -/
inductive Admission | accept | wait | refused (status : Nat)
  deriving DecidableEq, Repr

/-- TX_QUOTA of a context in bytes (Table 10.8). -/
def txQuota (c : Ctx) : Nat := fieldOf c.admTx 16 16 * 4096
/-- RX_QUOTA of a context in bytes. -/
def rxQuota (c : Ctx) : Nat := fieldOf c.admRx 16 16 * 4096

/-- Checks 1 to 6 of Table 10.3 for `n` bytes of a class on a lane; a re-executed descriptor skips checks 1, 3, 4 and 5
(R450). At L4 class S fetch waits (Table 14.4). -/
def admission (l : Link) (c : Nat) (cls : BitVec 2) (raw : Bool) (lane : Option Lane) (n : Nat) (redo : Bool) (s : State) : Admission :=
  let used := txUsed l c s + units64 n
  let tooMuch := decide (txQuota (ctx l c s) < used)
  match cls.toNat with
  | 0 => (match lane with | some x => if 4 ≤ (uQueue x s).length then .wait else .accept | none => .accept)
  | 2 =>
    if redo then .accept
    else if s.bgt.level.val = 4 || tooMuch || (!poolFits (framePool 2 raw) n s && !poolFits 3 n s) then .wait
    else .accept
  | 3 =>
    if redo then .accept
    else if 2 ≤ s.bgt.level.val then .refused 2
    else if tooMuch || decide (s.arb.bLimit.toNat * 1048576 < poolUse 3 s) || !poolFits 3 n s then .refused 1
    else .accept
  | _ => if poolFits 1 n s || poolFits 3 n s then .accept else .wait

/-- A refusal counted, and its event after 1 s without a refusal of the same status on the CQP (R448). -/
def noteRefused (c status : Nat) (s : State) : State :=
  let key := 2 * c + (status - 1)
  let first := spaced (Tab.find key s.arb.refusedAt) (sec 1) s
  let s1 := { s with arb.refusedAt := Tab.put key s.now s.arb.refusedAt }
  let s2 := if status = 1 then { s1 with arb.cntCongestion := s1.arb.cntCongestion + 1 }
            else { s1 with arb.cntBudget := s1.arb.cntBudget + 1 }
  if first then raise (if status = 1 then 0x9001 else 0x9002) (d2 c) s2 else s2

/-! ### Client descriptors -/

/-- The item of a frame delivered to a client of its own vertex (R400). -/
def localItem (f : NatFrame) (bcast : Bool) (origin : Option TxRef) (s : State) : RxItemDue :=
  { src := f.src, srcCqp := f.srcCqp, srcPort := 0xF, raw := f.raw, bcast := bcast, viaPlc := false, lane := f.lane,
    cls := f.cls, pcp := f.pcp, label := f.label, fseq := f.fseq, isFlow := true, truncated := false, ipCsum := 0,
    l4Csum := 0, fullLen := f.payload.length, data := f.payload, time := trainTime s, waitUntil := 0, gapCount := 0,
    inPort := none, pool := poolFor (framePool f.cls f.raw) f.payload.length s, localTx := origin }

/-- A raw frame for a consist port of this vertex. -/
def rawOut (b : List Byte) (cls : BitVec 2) (pcp : BitVec 3) (origin : Option TxRef) (s : State) : OutFrame :=
  { bytes := b ++ List.replicate (60 - b.length) 0, nat := none, origin := origin, cls := cls, pcp := pcp, readyAt := s.now,
    sent := 0, firstAt := none, delayed := false, inPort := none, pool := poolFor (framePool cls true) b.length s }

/-- A raw frame of a host may leave a port: a consist port, and while traffic does not run natively a lane port (R25, R193). -/
def takesRaw (n : PortNo) (s : State) : Bool := (port n s).role == 1 || ((portLane n s).isSome && !nativeRun s)

/-- The bridge of interop mode learns where a source address lies: beyond an end, or among this vertex's hosts (R192). An address not
seen for 300 s is forgotten, the bridge standard's time (PRESUMED, log entry 67). -/
def learnMac (b : List Byte) (at_ : Option End) (s : State) : State :=
  if byteAt b 6 % 2 = 1 then s
  else
    let k := mkKey (beAt b 6 6)
    { s with bbn.fdb := (s.bbn.fdb.filter fun x => x.1 != k && decide (s.now < x.2.2 + sec 300)) ++ [(k, at_, s.now)] }

/-- A raw frame of a host leaves a port of this vertex; on a lane port of interop mode its source address is learned. -/
def sendRaw (n : PortNo) (f : OutFrame) (s : State) : State :=
  enqueue n f (if (portLane n s).isSome then learnMac f.bytes none s else s)

/-- Local delivery: to a port, to a client's Receive ring, or to the management engine, which takes it. A frame for every vertex that
names a port no raw frame leaves here ends here. -/
def deliverLocal (dstPort : Nat) (f : NatFrame) (bcast : Bool) (origin : Option TxRef) (s : State) : State :=
  if dstPort ≠ 15 then
    (if takesRaw (asPort dstPort) s then sendRaw (asPort dstPort) (rawOut f.payload f.cls f.pcp origin s) s
     else completeOrigin origin stOk id s)
  else if f.dstCqp == 0 then completeOrigin origin stOk id s
  else rxOffer f.dstCqp.toNat (localItem f bcast origin s) s

/-- The frame of a descriptor; a raw frame for a consist port of another vertex has no client (log entry 14). -/
def frameOf (d : SendDesc) (c : Nat) (payload : List Byte) (s : State) : NatFrame :=
  { cls := d.cls, raw := d.raw, lane := false, pcp := classPcp d.cls d.pcp s, sync := false, retx := false,
    epoch := BitVec.ofNat 16 s.rlv.epoch.toNat, src := vkey s, dst := d.dst, srcCqp := BitVec.ofNat 10 c,
    dstCqp := if d.dstPort = 15 then d.dstCqp else 0, label := d.label, fseq := 0, payload := payload }

/-- A frame gets its number: the next of its flow, or for a re-executed descriptor the one it had, with RETX (R173, R418). -/
def numberFrame (redo : Option TxPend) (f : NatFrame) (s : State) : NatFrame × State :=
  match redo with
  | some r =>
    let e : TxFlow := match findTx (flowOf f) s.bbn.txFlows with | some e => e | none => ⟨flowOf f, r.fseq + 1, false, s.now, none⟩
    let e' : TxFlow := if ahead e.next r.fseq < 32768 then { e with next := r.fseq + 1, last := s.now } else { e with last := s.now }
    ({ f with fseq := r.fseq, retx := true }, { s with bbn.txFlows := putTx e' s.bbn.txFlows })
  | none => stampFlow f s

/-- An admitted descriptor: its payload is read, checksums inserted, the frame numbered and sent on its way. One executed again whose
frame a client of this vertex already has is not delivered twice (R179). -/
def sendAdmitted (l : Link) (c : Nat) (d : SendDesc) (r : Route) (t : TxPend) (redo : Option TxPend) (s : State) : State :=
  let body := readHost l d.buf d.len s
  let cs := if d.raw then insertCsums d.csumIp d.csumL4 body else (body, false)
  let fs := numberFrame redo (frameOf d c cs.1 s) s
  let f := fs.1
  let every := d.dst == allKey
  let n := if every then (everyEgress d.label s).length + 1 else 1
  let onLane : Bool := match r with | .lane _ .b => true | _ => false
  let onPlc : Bool := match r with | .plc _ _ => true | _ => false
  let again := d.dstPort = 15 && (match redo with | some x => x.result == some 0 | none => false)
  let pend : TxPend := { t with copies := n, fseq := f.fseq, retx := f.retx, csumSkipped := cs.2, lane := onLane,
                                plc := onPlc, charge := if d.cls == 0 then 0 else units64 (42 + d.len) }
  let s1 := pushPend l c pend fs.2
  let o : Option TxRef := some ⟨l, c, t.idx⟩
  if every then deliverLocal d.dstPort f true o (launchEvery f o s1)
  else if r == .self then
    (if again then completeOrigin o stOk id s1 else deliverLocal d.dstPort f false o s1)
  else launch r f o none s1

/-- The lane of a route, for the origination queue of R445. -/
def routeLane (r : Route) : Option Lane := match r with | .lane _ l => some l | _ => none

/-- Where a well-formed descriptor goes, or the status it completes with: the epoch guard (R135), a held destination (R98), no
route (R23, R171, R193), a class U frame too long for its path (R160, R333), a long raw frame for another vertex (R223). `At origination'
of R135 is read as at the fetch: a guarded frame queued before a switch is stamped anew with the others and its guard is not compared
again (DESIGN CHOICE, log entry 68). A raw frame for a port of this vertex that no raw frame leaves, a lane port in native mode (R25) or
one that is off, goes nowhere (DESIGN CHOICE, log entry 68). -/
def routeDesc (d : SendDesc) (s : State) : Route × Option Nat :=
  let r := if d.dst == allKey then Route.nowhere else routeTo d.cls d.label d.dst s
  let other := d.dst != vkey s
  if d.guardEn && d.guard != BitVec.ofNat 16 s.rlv.epoch.toNat then (r, some 3)
  else if other && d.raw && decide (1518 < d.len) then (r, some stNoRoute)
  else if d.dst == vkey s && d.dstPort ≠ 15 && !takesRaw (asPort d.dstPort) s then (r, some stNoRoute)
  else if d.dst == allKey then (r, none)
  else match r with
    | .nowhere => (r, some stNoRoute)
    | .held => (r, if d.cls == 3 then none else some stTimeout)
    | _ => (r, if d.cls == 0 && uTooLong r d.len s then some stNoRoute else none)

/-- The next descriptor of a client ring that is bound to nothing. -/
def fetchClient (l : Link) (c : Nat) (s : State) : State :=
  let x := ctx l c s
  let d := sendDesc (ringEntry l c .tx x.txFetch s)
  let redo := x.redo.find? fun r => r.idx == x.txFetch
  let t : TxPend := { newPend x.txFetch d.cookie d.len s with classU := d.cls == 0 }
  if sendMalformed d (ctxUrg x) s then decideMalformed l c t s
  else
    let r := routeDesc d s
    match r.2 with
    | some st => decideNow l c { t with retx := redo.isSome } st s
    | none =>
      match admission l c d.cls d.raw (routeLane r.1) (42 + d.len) redo.isSome s with
      | .wait => s
      | .refused st => noteRefused c st (decideNow l c t st s)
      | .accept => sendAdmitted l c d r.1 t redo s

/-- The next descriptor of a CQP bound to a consist port: a raw frame of class B for that port (R402, R559). -/
def fetchBound (l : Link) (c : Nat) (n : PortNo) (s : State) : State :=
  let x := ctx l c s
  let d := sendDesc (ringEntry l c .tx x.txFetch s)
  let redo := x.redo.find? fun r => r.idx == x.txFetch
  let t := newPend x.txFetch d.cookie d.len s
  if boundMalformed d n s then decideMalformed l c t s
  else match admission l c 3 true none d.len redo.isSome s with
    | .wait => s
    | .refused st => noteRefused c st (decideNow l c t st s)
    | .accept =>
      let s1 := pushPend l c { t with retx := redo.isSome, charge := units64 d.len } s
      enqueue n (rawOut (readHost l d.buf d.len s) 3 0 (some ⟨l, c, t.idx⟩) s1) s1

/-- The next request of CQP 0 (R420, R421): taken by the management engine, which answers at once what no message of the table
answers, an unknown opcode, a refused one and a malformed header; at 32 open requests fetch waits. A request that the failed
controller had taken is not taken twice (R421, R604). -/
def fetchMgmt (l : Link) (s : State) : State :=
  let x := ctx l 0 s
  let d := sendDesc (ringEntry l 0 .tx x.txFetch s)
  let t := newPend x.txFetch d.cookie d.len s
  let again := x.redo.any fun r => r.idx == x.txFetch
  if !d.bareOk then decideMalformed l 0 t s
  else if again then decideNow l 0 { t with retx := true } stOk s
  else if 32 ≤ (hlink l s).reqs.length then s
  else if admission l 0 1 false none d.len false s == .wait then s
  else
    let m := mgmtMsg (readHost l d.buf d.len s)
    let r : Req := ⟨match l with | .h1 => .h1 | .h2 => .h2, m.tag, m.body⟩
    let s1 := decideNow l 0 t stOk s
    let s2 := modLink l (fun h => { h with reqs := h.reqs ++ [⟨m.opcode, m.tag, m.body⟩] }) s1
    if !m.ok then malformed r m.opcode s2
    else if allowedAt m.opcode.toNat (authorityOf r.port s2) == some true then
      (if reservedAction m.opcode m.body then refuseReserved r m.opcode s2 else s2)
    else authorised m.opcode r id s2

end Sys2Proof.Machine
end

