-- ==== Sys2Proof/Machine/Vectors.lean ====
section
/-! DEFINITION. MSI-X vectors and their moderation (R414): masking, pending bits, when a queue's vector is raised; and spacing
helpers for events written at most once per interval. -/
namespace Sys2Proof.Machine

/-- What meanings answer. -/
abbrev Out := Host.Outcome State Fault Refusal

/-- A word of an endpoint's MSI-X table; an entry comes out of reset masked, as PCIe has it (log entry 15). -/
def msixWord (e : EndpointState) (i : Nat) : Word := Tab.getD (if i % 4 = 3 then 1 else 0) i e.msix

/-- Bit `v` of a 64-bit pending array. -/
def pbaBit (v : Nat) : BitVec 64 := 1 <<< v

/-- A vector of an endpoint is raised: the message is sent, or with the vector masked its pending bit is set (R414). -/
def raiseVecAt (ep : Endpoint) (v : Nat) (s : State) : State :=
  let e := endpoint ep s
  if !(e.power == .l0 || e.power == .l1) then s
  else if flagOf (msixWord e (4 * v + 3)) 0 then modEndpoint ep (fun x => { x with pba := x.pba ||| pbaBit v }) s
  else emit (.msix ep v) s

/-- A vector of a link, at its active endpoint. -/
def raiseVec (l : Link) (v : Nat) (s : State) : State := raiseVecAt (activeEp l s) v s

/-- A queue's vector is raised and its counts start anew. -/
def cqFire (n : CqNo) (s : State) : State :=
  let q := cq n s
  raiseVec q.link q.vec.toNat (modCq n (fun x => { x with since := 0, firstAt := none }) s)

/-- COUNT reached, or TIMER passed since the first completion (R414). -/
def cqModerated (q : CqState) (s : State) : Bool :=
  decide (0 < q.since)
  && (decide (q.count.toNat ≤ q.since)
    || (match q.firstAt with | some t => decide (t + us q.timer.toNat ≤ s.now) | none => false))

/-- One more completion of a queue is visible: its vector follows now or later (R414). -/
def cqNote (n : CqNo) (urgent : Bool) (s : State) : State :=
  let s1 := modCq n (fun q => { q with since := q.since + 1, firstAt := some (q.firstAt.getD s.now) }) s
  if ((cq n s1).urgNow && urgent) || cqModerated (cq n s1) s1 then cqFire n s1 else s1

/-- A mailbox vector: the moderation of an enabled queue that shares it, else at once (R357, R414). -/
def mailboxVec (l : Link) (v : Nat) (s : State) : State :=
  match (List.finRange 16).find? fun n => (cq n s).en && (cq n s).link == l && (cq n s).vec.toNat == v with
  | some n => cqNote n false s
  | none => raiseVec l v s

/-- An event written at most once per interval: `get` gives when it was last written, `set` notes it. -/
def raiseSpaced (last : Option Ns) (d : Ns) (note : State → State) (code : Half) (data : List Byte) (s : State) : State :=
  if spaced last d s then raise code data (note s) else s

end Sys2Proof.Machine
end

