-- ==== Sys2Proof/Machine/Arbiter.lean ====
section
/-! DEFINITION. The arbiter of host memory (R432 to R442): one decision at a burst boundary, its settings. -/
namespace Sys2Proof.Machine

/-- The class of an input in ARB_CLASS. -/
def inputClass (i : Fin 16) (s : State) : Nat := fieldOf s.arb.cls (2 * i.val) 2

/-- The highest-numbered of some inputs. -/
def highestInput (l : List (Fin 16)) : Option (Fin 16) := l.getLast?

/-- The inputs counted down from the one below a pointer, wrapping from 0 to 15 (R436). -/
def countDown (p : BitVec 4) : List (Fin 16) :=
  (List.range 16).map fun k => ⟨(p.toNat + 15 + 16 - k) % 16, Nat.mod_lt _ (by decide)⟩

/-- The class pick: the highest class with a request, first below its pointer (R435, R436). -/
def classPick (l : List (Fin 16)) (s : State) : Option (Fin 16) :=
  let top := l.foldl (fun m i => max m (inputClass i s)) 0
  let c : Fin 4 := ⟨top % 4, Nat.mod_lt _ (by decide)⟩
  (countDown s.arb.pointers[c]).find? fun i => l.contains i && inputClass i s == top

/-- The input that has waited longest, the higher-numbered of equals (R437). -/
def oldestInput (l : List (Fin 16)) (s : State) : Option (Fin 16) :=
  l.foldl (fun m i =>
    match m with
    | none => some i
    | some j => if s.arb.waitSince[i].getD s.arb.decisions ≤ s.arb.waitSince[j].getD s.arb.decisions then some i else some j) none

/-- The next class grant is an age grant (R437). -/
def ageGrant (s : State) : Bool := !s.arb.fixed && decide (s.arb.ageN.toNat ≤ s.arb.ageCount + 1)

/-- The winner of a decision among the requests that take part (R435 to R437). -/
def winner (l : List (Fin 16)) (s : State) : Option (Fin 16) :=
  if s.arb.fixed then highestInput l else if ageGrant s then oldestInput l s else classPick l s

/-- Inputs that raise their requests at one moment begin to wait, at the next place in the order of moments (R437). -/
def noteRaised (m : BitVec 16) (s : State) : State :=
  { s with arb.decisions := s.arb.decisions + 1, arb.waitSince := Vector.ofFn fun (i : Fin 16) =>
      if m.getLsbD i.val then some (s.arb.waitSince[i].getD s.arb.decisions) else s.arb.waitSince[i] }

/-- The requests raised at this decision: those of earlier moments in their order, the others now; an input without a request does not
wait (R437). -/
def noteRequests (raised : List (BitVec 16)) (req : BitVec 16) (s : State) : State :=
  let t := noteRaised req (raised.foldl (fun u m => noteRaised (m &&& req) u) s)
  { t with arb.req := req, arb.waitSince := Vector.ofFn fun (i : Fin 16) => if req.getLsbD i.val then t.arb.waitSince[i] else none }

/-- A grant: its count, its class pointer unless it is an age grant, the waiting time that restarts (R436, R437). -/
def grantTo (i : Fin 16) (s : State) : State :=
  let c : Fin 4 := ⟨inputClass i s % 4, Nat.mod_lt _ (by decide)⟩
  let age := ageGrant s
  { s with arb.grant := BitVec.ofNat 4 i.val, arb.grantValid := true,
           arb.ageCount := if s.arb.fixed then s.arb.ageCount else if age then 0 else s.arb.ageCount + 1,
           arb.pointers := if s.arb.fixed || age then s.arb.pointers else s.arb.pointers.set c (BitVec.ofNat 4 i.val),
           arb.waitSince := s.arb.waitSince.set i (some (s.arb.decisions + 1)), arb.decisions := s.arb.decisions + 1 }

/-- One decision: `requests` are raised, `raised` tells which of them in what order since the last decision, `accept` whose link can take
a burst (R433); a winner that withdraws in its grant cycle loses the grant and nothing else (R438). -/
def decideArb (raised : List (BitVec 16)) (requests accept : BitVec 16) (withdrawn : Bool) (s : State) : State :=
  let s1 := noteRequests raised requests s
  let l := (List.finRange 16).filter fun i => requests.getLsbD i.val && accept.getLsbD i.val
  match winner l s1 with
  | none => { s1 with arb.grantValid := false }
  | some i =>
    if withdrawn then
      { s1 with arb.grantValid := false, arb.req := requests &&& ~~~(BitVec.ofNat 16 (2 ^ i.val)),
                arb.decisions := s1.arb.decisions + 1 }
    else grantTo i s1

/-- Bytes of a burst (R434). -/
def burstBytes (s : State) : Nat := 64 * 2 ^ s.arb.burst.toNat
/-- Bursts, and so decisions, that a transfer of `n` bytes takes (R434). -/
def burstsOf (n : Nat) (s : State) : Nat := (n + burstBytes s - 1) / burstBytes s

/-- ARB_CFG as it reads. -/
def arbCfg (s : State) : Word :=
  word (putBits 9 2 s.arb.burst.toNat + putBit 8 s.arb.fixed + putBits 0 7 s.arb.ageN.toNat)

/-- ARB_CFG's reserved values: BURST 0b11, AGE_N outside 2 to 64 (Table 10.7). -/
def arbCfgBad (v : Word) : Bool := fieldOf v 9 2 == 3 || fieldOf v 0 7 < 2 || 64 < fieldOf v 0 7

/-- Event 0x9010 for settings that have changed (R439). -/
def noteArb (was : State) (s : State) : State :=
  if arbCfg s == arbCfg was && s.arb.cls == was.arb.cls then s
  else raise 0x9010 (d4 (arbCfg s).toNat ++ d4 s.arb.cls.toNat) s

/-- New ARB_CFG and ARB_CLASS, one event for the write or commit that changes them (R439); the count of R437 returns to 0 when
MODE changes to 0. -/
def setArb (cfg cls : Word) (s : State) : State :=
  let fixed := flagOf cfg 8
  noteArb s { s with arb.burst := BitVec.ofNat 2 (fieldOf cfg 9 2), arb.fixed := fixed, arb.ageN := BitVec.ofNat 7 (fieldOf cfg 0 7),
                     arb.ageCount := if s.arb.fixed && !fixed then 0 else s.arb.ageCount, arb.cls := cls }

/-- R435. -/
def execArbiterDecision (requests : ArbRequests) (accept : BitVec 16) (withdrawn : Bool) (s : State) : Out :=
  .next (decideArb requests.raised requests.now accept withdrawn s)

end Sys2Proof.Machine
end

