-- ==== Sys2Proof/Machine/Counters.lean ====
section
/-! DEFINITION. The counters of a line port (Tables 5.4 and 6.10, R228 to R231): counting, half-range events, classification of
frames by address, type and size. -/
namespace Sys2Proof.Machine

/-- A counter of a port. -/
def portCount (n : PortNo) (off : Nat) (s : State) : Word := Tab.getD 0 off (port n s).cnt

/-- The bit of a counter in LP_HALF0 or LP_HALF1 (Table 5.9). -/
def halfBit (off : Nat) : Word := 1 <<< (off % 0x80 / 4)

/-- A 32-bit counter goes up by `k`; a change of its bit 31 sets its half-range bit and writes event 0x3020 (R230). -/
def addCount (n : PortNo) (off k : Nat) (s : State) : State :=
  let old := portCount n off s
  let v := old + BitVec.ofNat 32 k
  let s1 := modPort n (fun p => { p with cnt := Tab.put off v p.cnt }) s
  if old.msb == v.msb then s1
  else
    let s2 := modPort n (fun p =>
      if off < 0x480 then { p with half0 := p.half0 ||| halfBit off } else { p with half1 := p.half1 ||| halfBit off }) s1
    raise 0x3020 (d1 n.val ++ d2 off ++ d1 (bit v.msb)) s2

/-- A counter goes up by one. -/
def bump (n : PortNo) (off : Nat) (s : State) : State := addCount n off 1 s

/-- The 64-bit octet counter at `off` goes up by `k` (R228). -/
def addOctets (n : PortNo) (off k : Nat) (s : State) : State :=
  let v := (portCount n off s).toNat + 2 ^ 32 * (portCount n (off + 4) s).toNat + k
  modPort n (fun p => { p with cnt := Tab.put (off + 4) (word (v / 2 ^ 32)) (Tab.put off (word (v % 2 ^ 32)) p.cnt) }) s

/-- The size bin of a frame of `len` bytes with FCS, as a place from 0 to 8. -/
def sizeBin (len : Nat) : Nat :=
  if len ≤ 64 then 0 else if len ≤ 127 then 1 else if len ≤ 255 then 2 else if len ≤ 511 then 3 else if len ≤ 1023 then 4
  else if len ≤ 1518 then 5 else if len ≤ 2047 then 6 else if len ≤ 4095 then 7 else 8

/-- A frame is 802.3x pause or 802.1Qbb PFC: its opcode (R229). -/
def macControl (b : List Byte) : Option Nat :=
  if beAt b 12 2 = 0x8808 && (beAt b 14 2 = 0x0001 || beAt b 14 2 = 0x0101) then some (beAt b 14 2) else none

/-- The type counters of a good frame, by place from the direction's base (Table 5.4). -/
def typeCounters (b : List Byte) : List Nat :=
  let dst := b.take 6
  let t := beAt b 12 2
  let vlan := t == 0x8100 || t == 0x88A8
  let inner := (b.drop 12).length
  let et := if vlan && decide (6 ≤ inner) then
      (let t2 := beAt b 16 2; if t2 == 0x8100 || t2 == 0x88A8 then beAt b 20 2 else t2)
    else t
  (match macControl b with
    | some 0x0001 => [0x18]
    | some _ => [0x1C]
    | none => if dst == List.replicate 6 0xFF then [0x14] else if byteAt b 0 % 2 = 1 then [0x10] else [0x0C])
  ++ (if et = 0x88B5 then [0x20] else []) ++ (if et = 0x88F7 then [0x24] else []) ++ (if vlan then [0x28] else [])

/-- A good frame counted: `base` is 0x400 for received and 0x480 for sent frames (R228, R229). -/
def countFrame (n : PortNo) (base : Nat) (b : List Byte) (s : State) : State :=
  let s1 := addOctets n base (wireLen b) s
  ((0x08 :: typeCounters b) ++ [0x2C + 4 * sizeBin (wireLen b)]).foldl (fun t o => bump n (base + o) t) s1

/-- Every counter of every port restarts at 0, with its flag and event (R231). -/
def restartCounters (s : State) : State :=
  (List.finRange 8).foldl (fun t n =>
    raise 0x3021 (d1 n.val) (modPort n (fun p => { p with cnt := [], cntRestart := true, pauseFrom := p.pauseFrom.map fun _ => t.now }) t)) s

end Sys2Proof.Machine
end

