-- ==== Sys2Proof/Machine/Marks.lean ====
section
/-! DEFINITION. Time marks of the store room (R676, Table 18.4). -/
namespace Sys2Proof.Machine

/-- PSTATE as registers and records show it. -/
def pstateCode (p : PState) : Nat :=
  match p with
  | .off => 0
  | .cellar => 1
  | .rising => 2
  | .run => 3
  | .falling => 4
  | .lastGasp => 5

/-- Time comes from beacons (BCN). -/
def fromBeacons (s : State) : Bool := (s.plc[0]).timeSrc || (s.plc[1]).timeSrc

/-- The payload of a time mark for a train time and Cellar count (Table 18.4). -/
def markPayload (time mono_ cause : Nat) (step : Int) (s : State) : List Byte :=
  toLE 8 time ++ toLE 8 mono_ ++ toLE 6 (vkey s).toNat
  ++ toLE 1 (bit s.bbn.timeValid + 2 * bit s.bbn.syncOk + 4 * bit (fromBeacons s)) ++ toLE 1 cause
  ++ toLE 4 s.rlv.epoch.toNat ++ toLE 4 s.rlv.digest.toNat ++ toLE 1 s.rlv.ord ++ toLE 1 s.bgt.level.val
  ++ toLE 1 (pstateCode s.cel.pstate) ++ [0] ++ toLE 4 s.ldg.runId.toNat ++ toLE 8 (if cause = 3 then twos 64 step else 0)

/-- A time mark of now: CAUSE 1 period, 2 epoch, 3 step, 4 writer start (R676). -/
def timeMark (cause : Nat) (step : Int) (s : State) : State :=
  if s.srm.writerOn then writeRecord false 0xE001 (markPayload (ttime s) (mono s) cause step s) s else s

/-- A deferred record, behind the time mark that places it (R676, R688). -/
def writeDeferred (d : DeferredEvent) (s : State) : State :=
  writeRecord true d.code d.data (writeRecord false 0xE001 (markPayload d.time.toNat d.mono.toNat 5 0 s) s)

end Sys2Proof.Machine
end

