-- ==== Sys2Proof/Machine/Ledger.lean ====
section
/-! DEFINITION. The usage ledger (R689 to R703): intervals opening and closing, energy shares, steps of train time. -/
namespace Sys2Proof.Machine

/-! ### Lengths and boundaries -/

/-- Interval length P in seconds. -/
def ldgSecs (len : BitVec 2) : Nat := match len.toNat with | 0 => 60 | 1 => 300 | 2 => 900 | _ => 3600

/-- The first boundary after a train time (R689). -/
def nextBoundary (len : BitVec 2) (offsetS : Byte) (t : Nat) : Nat :=
  let p := sec (ldgSecs len)
  t + p - (t + p * 300 - sec offsetS.toNat) % p

/-- LDG_CFG as it reads. -/
def ldgCfg (s : State) : Word := word (putBits 8 8 s.ldg.offsetS.toNat + putBits 0 2 s.ldg.len.toNat)

/-! ### Energy -/

/-- The share of a PW-2 in an interval that opens: it begins with the next reading (R696). -/
def shareOpens (m : PwNo) (s : State) : PwShare :=
  if pwReady m s then ⟨(pw m s).serial, 0, 0, 0, 0, 0, 0, 0, 0, true⟩ else ⟨0, 0, 0, 0, 0, 0, 0, 0, 0, false⟩

/-- A share begins with a reading. -/
def shareBegins (m : PwNo) (s : State) (h : PwShare) : PwShare :=
  let p := pw m s
  if h.wait then { h with mains := p.eMains, batt := p.eBatt, bank := p.eBank, out := p.eOut, wait := false } else h

/-- A share ends with a reading: its energy, J, is added to what it gathered. -/
def shareEnds (m : PwNo) (s : State) (h : PwShare) : PwShare :=
  let p := pw m s
  let d := fun (a b : Dword) => (a - b).toNat
  if h.wait then
    { h with accMains := h.accMains + d p.eMains h.mains, accBatt := h.accBatt + d p.eBatt h.batt,
             accBank := h.accBank + d p.eBank h.bank, accOut := h.accOut + d p.eOut h.out, wait := false }
  else h

/-- A share as its interval closes: it waits for the next reading, unless it has none to wait for or opened at that very one (R696). -/
def shareCloses (m : PwNo) (s : State) (h : PwShare) : PwShare :=
  { h with wait := !h.wait && h.serial != 0 && h.serial == (pw m s).serial && pwReady m s }

/-- A share folded at the unseating of its cartridge: it ends with the last reading before (R696). -/
def foldShare (m : PwNo) (s : State) (h : PwShare) : PwShare :=
  let e := shareEnds m s { h with wait := !h.wait && h.serial != 0 }
  { e with serial := 0, mains := 0, batt := 0, bank := 0, out := 0 }

/-- The share of a slot in an interval, changed. -/
def modShare (m : PwNo) (f : PwShare → PwShare) (i : Interval) : Interval :=
  if m = 0 then { i with pwA := f i.pwA } else { i with pwB := f i.pwB }

/-- A share of the interval waits for a reading. -/
def awaits (i : Interval) : Bool := i.pwA.wait || i.pwB.wait

/-! ### Records -/

/-- A PW-2's share in an open record. -/
def shareRec (h : PwShare) : List Byte :=
  toLE 6 h.serial.toNat ++ [0, 0] ++ toLE 8 h.mains.toNat ++ toLE 8 h.batt.toNat ++ toLE 8 h.bank.toNat ++ toLE 8 h.out.toNat

/-- Payload of record 0xE100 (Table 18.6). -/
def openRec (i : Interval) : List Byte :=
  toLE 4 i.runId.toNat ++ toLE 1 i.lenCode.toNat ++ toLE 1 i.offsetS.toNat ++ toLE 2 i.flags.toNat ++ toLE 8 i.startMono.toNat
  ++ toLE 8 i.startTime.toNat ++ shareRec i.pwA ++ shareRec i.pwB

/-- The clients with any count, CQPs 1 to 1023 last: H1's and H2's CQP 0 come first (Table 18.7). -/
def countEntries (i : Interval) : List (Nat × ClientCount) :=
  let some_ := i.counts.filter fun e => e.2 != ⟨0, 0, 0, 0⟩
  ((some_.filter fun e => decide (0x10000 ≤ e.1)).map fun e => (if e.1 = 0x10000 then 0 else 0x8000, e.2))
  ++ some_.filter fun e => decide (e.1 < 0x10000)

/-- One entry of record 0xE101. -/
def entryRec (e : Nat × ClientCount) : List Byte :=
  toLE 2 e.1 ++ [0, 0] ++ toLE 6 e.2.txFrames ++ toLE 6 e.2.rxFrames ++ toLE 8 e.2.txOctets ++ toLE 8 e.2.rxOctets

/-- A list in runs of 124. -/
def runs124 : Nat → List (Nat × ClientCount) → List (List (Nat × ClientCount))
  | 0, _ => []
  | k + 1, l => l.take 124 :: (if (l.drop 124).isEmpty then [] else runs124 k (l.drop 124))

/-- Energy fields of a share as kept at its close: its totals hold the energy (J) and its serial. -/
def energyRec (h : PwShare) : List Byte := toLE 4 h.accMains ++ toLE 4 h.accBatt ++ toLE 4 h.accBank ++ toLE 4 h.accOut

/-- The payloads of record 0xE101 of a closed interval, part by part (Table 18.7). -/
def closeRecs (i : Interval) : List (List Byte) :=
  let rs := runs124 9 (countEntries i)
  rs.zipIdx.map fun r =>
    toLE 4 i.runId.toNat ++ toLE 8 i.startMono.toNat ++ toLE 8 i.endMono.toNat ++ toLE 8 i.startTime.toNat
    ++ toLE 8 i.endTime.toNat ++ toLE 1 i.lenCode.toNat ++ [0] ++ toLE 2 i.flags.toNat ++ toLE 1 r.2 ++ toLE 1 rs.length
    ++ toLE 2 r.1.length ++ [0, 0, 0, 0] ++ energyRec i.pwA ++ energyRec i.pwB ++ toLE 6 i.pwA.serial.toNat
    ++ toLE 6 i.pwB.serial.toNat ++ [0, 0, 0, 0] ++ (r.1.map entryRec).flatten

/-- A record of the ledger, written where the writer runs. -/
def ldgRecord (code : Half) (payload : List Byte) (s : State) : State :=
  if s.srm.writerOn then writeRecord false code payload s else s

/-- The records of a closed interval. -/
def writeClosed (i : Interval) (s : State) : State :=
  let s1 := if i.written then s else ldgRecord 0xE100 (openRec i) s
  (closeRecs i).foldl (fun t p => ldgRecord 0xE101 p t) s1

/-- The open interval's open record is written once its readings are there (R691, R696). -/
def writeOpen (s : State) : State :=
  match s.ldg.open_ with
  | some i =>
    if i.written || awaits i || !s.srm.writerOn then s
    else ldgRecord 0xE100 (openRec i) { s with ldg.open_ := some { i with written := true } }
  | none => s

/-! ### Opening and closing -/

/-- Closed intervals whose readings are there are written in order, or kept in Cellar while the writer does not run (R692, R696, R700). -/
def settleClosed : List Interval → State → State
  | [], s => { s with ldg.closing := [] }
  | i :: rest, s =>
    if awaits i then { s with ldg.closing := i :: rest }
    else settleClosed rest (if s.srm.writerOn then writeClosed i s else { s with ldg.kept := s.ldg.kept ++ [i] })

/-- Closed intervals, then the open one, as far as their readings are there. -/
def settleLedger (s : State) : State := writeOpen (settleClosed s.ldg.closing s)

/-- A reading of a PW-2, every 100 ms: shares that wait for it end or begin with it (R696). -/
def ldgReading (m : PwNo) (s : State) : State :=
  settleLedger { s with ldg.closing := s.ldg.closing.map (modShare m (shareEnds m s)),
                        ldg.open_ := s.ldg.open_.map (modShare m (shareBegins m s)) }

/-- A PW-2 is unseated: what waits for it ends with its last reading, its share closes and the interval carries PW_SWAPPED (R696). -/
def ldgPwOut (m : PwNo) (s : State) : State :=
  settleLedger { s with
    ldg.closing := s.ldg.closing.map (modShare m (shareEnds m s)),
    ldg.open_ := s.ldg.open_.map fun i => modShare m (foldShare m s) { i with flags := i.flags ||| 0x0080 } }

/-- A PW-2 is seated: it counts from its first reading (R696). -/
def ldgPwIn (m : PwNo) (s : State) : State :=
  { s with ldg.open_ := s.ldg.open_.map fun i =>
      modShare m (fun h => if h.serial == 0 && pwReady m s then { h with serial := (pw m s).serial, wait := true } else h) i }

/-- An interval opens now with some flags (R691); UNSET where TIME_VALID is 0. -/
def openInterval (flags : Half) (s : State) : State :=
  let i : Interval :=
    { runId := s.ldg.runId, startMono := BitVec.ofNat 64 (mono s), startTime := trainTime s, lenCode := s.ldg.len,
      offsetS := s.ldg.offsetS, flags := flags ||| (if s.bbn.timeValid then 0 else 0x0008), pwA := shareOpens 0 s,
      pwB := shareOpens 1 s, counts := [], endMono := 0, endTime := 0, written := false, back := false }
  writeOpen { s with ldg.open_ := some i, ldg.due := BitVec.ofNat 64 (nextBoundary s.ldg.len s.ldg.offsetS (ttime s)) }

/-- STRETCHED and SHORTENED by a length in Cellar ticks (R698). -/
def lengthFlags (len : BitVec 2) (ticks : Nat) : Half :=
  let p := ldgSecs len * 1024
  if p + 1024 < ticks then 0x0001 else if ticks + 1024 < p then 0x0002 else 0

/-- An interval as it closes now: its end, its flags, its shares waiting for the readings that end them. -/
def closedAs (i : Interval) (flags : Half) (s : State) : Interval :=
  { i with endMono := BitVec.ofNat 64 (mono s), endTime := trainTime s,
           flags := i.flags ||| flags ||| lengthFlags i.lenCode (mono s - i.startMono.toNat),
           pwA := shareCloses 0 s i.pwA, pwB := shareCloses 1 s i.pwB }

/-- The open interval closes (R692); it is written, or kept, with its energy readings (R696, R700). -/
def closeInterval (flags : Half) (s : State) : State :=
  match s.ldg.open_ with
  | none => s
  | some i =>
    let c := closedAs i flags s
    settleLedger { s with ldg.open_ := none, ldg.closing := s.ldg.closing ++ [c], ldg.cntClosed := s.ldg.cntClosed + 1,
                          ldg.cntFlagged := if c.flags == 0 then s.ldg.cntFlagged else s.ldg.cntFlagged + 1 }

/-- The open interval closes at this moment, with the readings at hand (R701). -/
def closeNow (flags : Half) (s : State) : State :=
  let s1 := closeInterval flags s
  settleLedger { s1 with ldg.closing := s1.ldg.closing.map fun i => modShare 1 (shareEnds 1 s1) (modShare 0 (shareEnds 0 s1) i) }

/-- The open interval closes and the next one opens at the same tick. -/
def turnInterval (flags : Half) (s : State) : State := openInterval 0 (closeInterval flags s)

/-- A boundary is reached (R692, R697, R700): after a step back the interval goes on while it is shorter than P; with 63 intervals
kept in Cellar the 64th goes on until the writer runs, and closes at the next boundary with MERGED. -/
def boundary (s : State) : State :=
  match s.ldg.open_ with
  | none => s
  | some i =>
    if ttime s < s.ldg.due.toNat then s
    else
      let on := { s with ldg.due := BitVec.ofNat 64 (nextBoundary s.ldg.len s.ldg.offsetS (ttime s)) }
      if i.back && decide (mono s - i.startMono.toNat < ldgSecs i.lenCode * 1024) then on
      else if !s.srm.writerOn && decide (63 ≤ s.ldg.kept.length + s.ldg.closing.length) then
        { on with ldg.open_ := some { i with flags := i.flags ||| 0x0100 } }
      else turnInterval 0 s

/-! ### Steps of train time -/

/-- What has been slewed so far becomes part of the offset. -/
def settleSlew (s : State) : State :=
  { s with bbn.timeOff := s.bbn.timeOff + BitVec.ofInt 64 (slewDone s), bbn.slew := 0, bbn.slewAt := s.now }

/-- Train time steps (R188, R697): record 0xE102 for more than 1 s, a time mark, the ledger. A boundary that is due comes first
(R694). -/
def stepTime (step : Int) (s0 : State) : State :=
  let s := settleSlew (boundary s0)
  let big := decide (1000000000 < step.natAbs)
  let s1 := { s with bbn.timeOff := s.bbn.timeOff + BitVec.ofInt 64 step }
  let s2 := { s1 with ldg.open_ := s1.ldg.open_.map fun i =>
      { i with flags := if big then i.flags ||| 0x0004 else i.flags, back := i.back || decide (step < 0) } }
  let (run, start) := match s2.ldg.open_ with | some i => (i.runId.toNat, i.startMono.toNat) | none => (s2.ldg.runId.toNat, 0)
  let s3 := if big then ldgRecord 0xE102 (toLE 8 (twos 64 step) ++ toLE 4 run ++ toLE 8 start) s2 else s2
  let s4 := timeMark 3 step s3
  if s4.ldg.open_.isNone then s4
  else if 0 < step && s4.ldg.due.toNat ≤ ttime s4 then turnInterval 0 s4
  else if step < 0 then { s4 with ldg.due := BitVec.ofNat 64 (nextBoundary s4.ldg.len s4.ldg.offsetS (ttime s4)) }
  else s4

/-- Train time at the start of the present cycle. -/
def cycleStart (s : State) : Nat := ttime s - cyclePos s
/-- Train time at the start of the next one. -/
def nextCycle (s : State) : Nat := cycleStart s + cycleNs s

/-- TIME_VALID becomes 1 (R190); nothing clears UNSET of the open interval. -/
def timeIsValid (s : State) : State := { s with bbn.timeValid := true }

/-! ### Configuration and copies -/

/-- LDG_CFG is written (R693): a change closes the open interval with CFG_CHANGED; record 0xE103. A boundary that is due comes first
(R694). -/
def writeLdgCfg (v : Word) (s0 : State) : State :=
  let s := boundary s0
  let len : BitVec 2 := BitVec.ofNat 2 (fieldOf v 0 2)
  let off : Byte := BitVec.ofNat 8 (fieldOf v 8 8)
  if len == s.ldg.len && off == s.ldg.offsetS then s
  else
    let s1 := closeInterval 0x0200 s
    let s2 := { s1 with ldg.len := len, ldg.offsetS := off }
    let s3 := ldgRecord 0xE103 (toLE 4 (ldgCfg s2).toNat) s2
    if s.ldg.open_.isSome then openInterval 0 s3 else s3

/-- The active controller copies the counts of the open interval to its standby every second (R699). -/
def copyInterval (s : State) : State :=
  if due s.ldg.copyDue s then
    { s with ldg.copyDue := some (s.now + sec 1), ldg.copy := if s.red.pair == .duplex then s.ldg.open_ else s.ldg.copy }
  else s

/-! ### Meanings -/

/-- R692. -/
def execLedgerBoundary (s : State) : Out := .next (boundary s)
/-- R699. -/
def execIntervalCopy (s : State) : Out := .next (copyInterval s)

end Sys2Proof.Machine
end

