-- ==== Sys2Proof/Machine/Spans.lean ====
section
/-! DEFINITION. Frames leaving a port, and the lane map: what has been sent completes and is counted (R228, R275, R408), a span
declared down or up, its notice, and the frames that move with it (R180 to R184). -/
namespace Sys2Proof.Machine

/-! ### A frame or fragment ends -/

/-- The Send completion of a frame that left on a port: its first bit's train time, DELAYED, LANE (R408). -/
def leftOnPort (n : PortNo) (f : OutFrame) (s : State) (t : TxPend) : TxPend :=
  { t with time := f.firstAt.getD (trainTime s), delayed := f.delayed,
           lane := (match portLane n s with | some (.b, _) => true | _ => false) }

/-- The mPacket of what was on the wire of the preemptable MAC: SMD-S at a frame's start, SMD-C with its fragment count behind; an FCS
at the frame's end, an mCRC before (R269). The frame count goes up with each frame, the fragment count from 0 with each continuation. -/
def sendPacket (n : PortNo) (x : Sending) (last : Bool) (s : State) : State :=
  let p := port n s
  let start := x.from_ == 0
  let upTo := x.frame.bytes.take x.upTo
  let e : Emission := .fragment n start p.txFrame (if start then 0 else p.txFrag) (upTo.drop x.from_) (if last then fcs upTo else mcrc upTo)
  modPort n (fun p => { p with txFrame := if last then p.txFrame + 1 else p.txFrame,
                               txFrag := if last || start then 0 else p.txFrag + 1 }) (emit e s)

/-- What was on the wire has ended: a whole frame is sent and counted, a fragment is sent and its frame stays part-sent, the
last fragment completes the frame (R228, R271, Tables 5.4 and 6.10). -/
def frameEnds (n : PortNo) (x : Sending) (s : State) : State :=
  let f := x.frame
  let last := decide (f.bytes.length ≤ x.upTo)
  let done := fun (t : State) => completeOrigin f.origin stOk (leftOnPort n f t) t
  if x.stomped then bump n 0x4D4 (emit (.frame n f.bytes true) s)
  else if x.from_ = 0 && last then
    done (countFrame n 0x480 f.bytes (if x.preemptable then sendPacket n x true s else emit (.frame n f.bytes false) s))
  else
    let s1 := bump n 0x4EC (sendPacket n x last s)
    let s2 := if x.from_ = 0 then bump n 0x4F0 s1 else s1
    if last then done (countFrame n 0x480 f.bytes s2)
    else modPort n (fun p => { p with part := some ({ f with sent := x.upTo }, x.queue) }) s2

/-- A transmission whose time is over is taken off the wire. -/
def retireSending (n : PortNo) (s : State) : State :=
  match (port n s).sending with
  | some x => if x.endAt ≤ s.now then frameEnds n x (modPort n (fun p => { p with sending := none }) s) else s
  | none => s

/-- Every port's. -/
def retireAll (s : State) : State := (List.finRange 8).foldl (fun t n => retireSending n t) s

/-! ### Frames of a span that went down -/

/-- A frame of a failed lane port goes where its destination leads now: the other lane, the power line, the store (R182,
R184). LANE stays what its source wrote. -/
def moveFrame (l : Lane) (e : End) (o : OutFrame) (s : State) : State :=
  match o.nat with
  | none => s
  | some f =>
    let whole := { o with sent := 0, firstAt := none }
    if f.dst == spanKey then s
    else if f.dst == allKey then
      match lanePort (Lane.other l) e s with
      | some n => if spanIsUp (Lane.other l) e s then enqueue n whole s else completeOrigin o.origin stOk id s
      | none => completeOrigin o.origin stOk id s
    else
      match routeTo f.cls f.label f.dst s with
      | .lane e_ l_ =>
        let k := egressLane f l_ l e_ s
        let g := if f.src == vkey s then { f with lane := k == .b } else f
        match lanePort k e_ s with
        | some n => enqueue n { whole with nat := some g, bytes := encodeNative g } s
        | none => completeOrigin o.origin stNoRoute id s
      | r => launch r f o.origin o.inPort s

/-- The frames a port holds, part-sent ones first, then by queue from the highest: a class U frame on the wire is lost. -/
def portFrames (p : LinePort) : List OutFrame :=
  (match p.part with | some x => [x.1] | none => [])
  ++ (match p.sending with | some x => if x.queue = 7 then [] else [x.frame] | none => [])
  ++ ((List.finRange 8).reverse.map fun q => p.queues[q]).flatten

/-- A lane port whose span is down keeps nothing: its frames move (R182). -/
def evacuate (l : Lane) (e : End) (s : State) : State :=
  match lanePort l e s with
  | none => s
  | some n =>
    let all := portFrames (port n s)
    let s1 := modPort n (fun p => { p with queues := Vector.replicate 8 [], part := none, sending := none, ctl := [] }) s
    all.foldl (fun t o => moveFrame l e o t) s1

/-- Some flow labels have their home on a lane (R170). -/
def homed (l : Lane) (s : State) : Bool := l == .a || s.bbn.laneSplit

/-- A class U frame in an origination queue goes to the queue of the lane its flow uses now (R182), or completes NO_ROUTE where no
lane leads there end to end or it is too long for that lane (R160, R171). -/
def moveUrgent (o : OutFrame) (s : State) : State :=
  match o.nat with
  | none => s
  | some f =>
    let r := routeTo 0 f.label f.dst s
    if uTooLong r f.payload.length s then completeOrigin o.origin stNoRoute id s
    else match r with
      | .lane _ l =>
        let g := { f with lane := l == .b }
        if nativeRun s then joinUQueue l { o with nat := some g, bytes := encodeNative g } s else launch r f o.origin o.inPort s
      | r => launch r f o.origin o.inPort s

/-- The origination queues sorted anew, in the order of descriptor fetch (R259). -/
def moveUrgents (s : State) : State := s.bbn.uq.foldl (fun t x => moveUrgent x.2 t) { s with bbn.uq := [] }

/-- A frame of a flow waiting on a port whose lane its flow no longer uses. -/
def offLane (l : Lane) (s : State) (o : OutFrame) : Bool :=
  match o.nat with
  | some f =>
    f.dst != spanKey && f.dst != allKey
    && (match routeTo f.cls f.label f.dst s with | .lane e k => egressLane f k l e s != l | _ => true)
  | none => false

/-- Queued frames of a port whose flows now use another lane go there, in order (R182). -/
def shiftPort (n : PortNo) (s : State) : State :=
  match portLane n s with
  | none => s
  | some (l, e) =>
    if !nativeRun s then s
    else
      let all := ((List.finRange 8).reverse.map fun q => (port n s).queues[q]).flatten.filter (offLane l s)
      let s1 := modPort n (fun p => { p with queues := p.queues.map fun q => q.filter fun o => !offLane l s o }) s
      all.foldl (fun t o => moveFrame l e o t) s1

/-- Every frame queued at this vertex goes where its flow goes now. -/
def shiftAll (s : State) : State := (List.finRange 8).foldl (fun t n => shiftPort n t) (moveUrgents s)

/-- The lane of some flow that crosses this vertex, or begins or ends here, differs between two lane maps (R182). -/
def flowsChange (old new : State) : Bool :=
  let os := new.rlv.poly.map fun x => x.ord.toNat
  (Lane.a :: (if new.bbn.laneSplit then [Lane.b] else [])).any fun h =>
    os.any fun a => os.any fun b =>
      decide (a ≤ new.rlv.ord) && decide (new.rlv.ord ≤ b) && decide (a < b) && laneBetween h a b old != laneBetween h a b new

/-- The lane map with a span taken down or up; the flows that this moves or returns are one event 0x4003 or 0x4004 and one count of
BBN_CNT_FAILOVER (R182). -/
def changeMap (l : Lane) (up : Bool) (low high : Nat) (s : State) : State :=
  let d : DownSpan := ⟨l, low, high⟩
  let s1 := if up then { s with bbn.downSpans := s.bbn.downSpans.filter fun x => x != d }
    else { s with bbn.downSpans := s.bbn.downSpans ++ [d] }
  if flowsChange s s1 then
    raise (if up then 0x4004 else 0x4003) (d1 (Lane.num l) ++ d1 low ++ d1 high)
      { s1 with bbn.cntFailover := s1.bbn.cntFailover + 1 }
  else s1

/-- The lane map takes a span down or up, and the frames queued here go with their flows (R182); a span next to a held vertex is no
part of the map (R734). -/
def mapSpan (l : Lane) (up : Bool) (low high : Nat) (s : State) : State :=
  if s.bbn.downSpans.contains (⟨l, low, high⟩ : DownSpan) != up || (!up && (heldOrd low s || heldOrd high s)) then s
  else shiftAll (changeMap l up low high s)

/-- The spans next to a held vertex leave the lane map (R734). -/
def dropHeldSpans (s : State) : State :=
  let keep := s.bbn.downSpans.filter fun d => !(heldOrd d.low s || heldOrd d.high s)
  if keep == s.bbn.downSpans then s else shiftAll { s with bbn.downSpans := keep }

/-! ### Declaring a span -/

/-- A lane notice waits for this vertex's next own slot on the other lane (R181). -/
def queueNotice (l : Lane) (up : Bool) (low high : Nat) (s : State) : State :=
  let n : NoticeDue := ⟨l, up, low, high⟩
  match Lane.other l with
  | .a => { s with bbn.noticesA := s.bbn.noticesA ++ [n] }
  | .b => { s with bbn.noticesB := s.bbn.noticesB ++ [n] }

/-- The ordinals of the span at an end, lower first; none next to no vertex of the polyline. -/
def spanOrds (e : End) (s : State) : Option (Nat × Nat) :=
  (nbrOrd e s).map fun o => (min o s.rlv.ord, max o s.rlv.ord)

/-- This vertex declares a span of its own down for a lane: event 0x4001, its notice, the frames that move (R180 to R182). What
its port holds moves first, a part-sent frame ahead of the later frames of its flow. A span outside the committed polyline has no
ordinals and nothing to declare; its port's frames leave it. -/
def declareDown (l : Lane) (e : End) (s : State) : State :=
  if !nativeRun s then s
  else match spanOrds e s with
    | none => evacuate l e s
    | some (lo, hi) =>
      if declaredDown l lo hi s then evacuate l e s
      else
        let s1 := queueNotice l false lo hi (raise 0x4001 (d1 (Lane.num l) ++ d1 lo ++ d1 hi) s)
        shiftAll (evacuate l e (changeMap l false lo hi s1))

/-- This vertex declares a span of its own up for a lane: event 0x4002, its notice, the flows that return (R180 to R182). -/
def declareUp (l : Lane) (e : End) (s : State) : State :=
  match spanOrds e s with
  | none => s
  | some (lo, hi) =>
    if !declaredDown l lo hi s then s
    else
      let s1 := raise 0x4002 (d1 (Lane.num l) ++ d1 lo ++ d1 hi) s
      mapSpan l true lo hi (queueNotice l true lo hi s1)

/-- A lane's span at an end cannot carry frames now: no link or signal in both views, or verify failed (R180, R273, R616). -/
def spanFails (l : Lane) (e : End) (s : State) : Bool :=
  match lanePort l e s with
  | some n => !(port n s).link || (port n s).los || !viewsOk n.val s || verifyBad (port n s)
  | none => false

/-- The spans of this vertex that failed since the sweep of the tally now in force, or next to a vertex it has rejoined carry no span
sweeps (R734), are declared down under the ordinals in force. -/
def recheckSpan (silent : Bool) (e : End) (s : State) : State :=
  [Lane.a, Lane.b].foldl (fun t l =>
    if (spanOrds e t).isSome && (spanFails l e t || (silent && !sweepsOn l e t)) then declareDown l e t else t) s

/-- A port's span, where it has a lane role, is declared down. -/
def portSpanDown (n : PortNo) (s : State) : State :=
  match portLane n s with
  | some (l, e) => declareDown l e (modPort n (fun p => { p with sweepSince := none }) s)
  | none => s

/-- Some flows homed on a lane run on the other: A_MOVED or B_MOVED (Table 4.10). -/
def movedNow (l : Lane) (s : State) : Bool :=
  homed l s && s.rlv.poly.any fun x =>
    x.key != vkey s && !laneUpBetween l s.rlv.ord x.ord.toNat s && laneUpBetween (Lane.other l) s.rlv.ord x.ord.toNat s

/-- Every span of a lane is up, of a polyline with at least one: A_SPANS or B_SPANS (Table 4.10, R734). -/
def spansUp (l : Lane) (s : State) : Bool :=
  decide (2 ≤ s.rlv.poly.length) && (match l with | .a => s.bbn.speedA != 0 | .b => s.bbn.speedB != 0)
  && !(s.bbn.downSpans.any fun d => d.lane == l)

end Sys2Proof.Machine
end

