-- ==== Sys2Proof/Machine/Speeds.lean ====
section
/-! DEFINITION. A line port's speed (R203 to R212): its target by Table 5.2, when its PHY is powered, a speed change from its
start to its end, a link that drops. -/
namespace Sys2Proof.Machine

/-! ### Bypass relay sets -/

/-- A relay set, changed. -/
def modByp (l : Lane) (f : BypassState → BypassState) (s : State) : State :=
  match l with
  | .a => { s with sys.bypA := f s.sys.bypA }
  | .b => { s with sys.bypB := f s.sys.bypB }
/-- A relay set. -/
def bypOf (l : Lane) (s : State) : BypassState := match l with | .a => s.sys.bypA | .b => s.sys.bypB

/-- The relay set on a port's connector: BYP-A on LP0 and LP1, BYP-B on LP2 and LP3 (R49). -/
def portSet (n : PortNo) : Option Lane := if n.val < 2 then some .a else if n.val < 4 then some .b else none

/-- The connector of a port is connected to its cartridge: no closed relay set stands between (R49). -/
def connected (n : PortNo) (s : State) : Bool :=
  match portSet n with
  | some l => !(bypOf l s).bridged
  | none => true

/-- The contacts follow the coil, unless the monitor contact has found them stuck (R56). -/
def moveContacts (closed : Bool) (b : BypassState) : BypassState := if b.stuck then b else { b with bridged := closed }

/-- Only watch ports are powered: from F5 of a fall to the end of S4 of the next rise (Table 13.6). -/
def portsRest (s : State) : Bool :=
  match s.cel.pstate with
  | .cellar => true
  | .falling => decide (s.cel.step ≤ 5)
  | .rising => decide (s.cel.step ≤ 4)
  | _ => false

/-- The watch limit of Table 5.2 holds: while only watch ports are powered, and while ASLEEP (R237, R238). -/
def lowWatch (s : State) : Bool := portsRest s || s.slp.st == .asleep

/-- From the end of F5 of a fall to the end of S4 of a rise a watch port passes on and counts nothing (R237). -/
def watchQuiet (s : State) : Bool :=
  match s.cel.pstate with
  | .off | .cellar | .lastGasp => true
  | .falling => decide (s.cel.step ≤ 4)
  | .rising => decide (s.cel.step ≤ 4)
  | .run => false

/-- FV_LIVE of a port (R75). -/
def fvLiveAt (n : PortNo) (s : State) : Bool := s.sys.fvLive.getLsbD n.val

/-- A port's PHY is to be powered: its role (R200), its cartridge, foreign voltage (R75), the unit's power state (F5, G1); ASLEEP and
the budget level leave a consist port its PHY only where it is a watch port (R237, R558). -/
def phyWanted (n : PortNo) (s : State) : Bool :=
  let p := port n s
  let up := match s.cel.pstate with | .off | .lastGasp => false | _ => true
  up && p.role != 0 && slotReady (portSlot n) s && !leverSafe (portSlot n) s && !fvLiveAt n s
  && ((p.watch && p.role == 1) || (!portsRest s && (p.role != 1 || (s.slp.st != .asleep && decide (s.bgt.level.val < 3)))))

/-- A speed's place: 10 Mbit/s below 100 below 1000. -/
def speedRank (v : LinkSpeed) : Nat := match v with | .down => 0 | .s10 => 1 | .s100 => 2 | .s1000 => 3

/-- Every row of Table 5.2 other than LP_CFG.SPEED permits a speed. -/
def permitted (n : PortNo) (s : State) (v : LinkSpeed) : Bool :=
  let p := port n s
  let lane := (portLane n s).isSome
  let top100 := (lane && p.restricted) || (!lane && (lowWatch s || decide (1 ≤ s.bgt.level.val)))
  (!(slot (portSlot n) s).lp2f || v == .s100) && !(lane && v == .s10) && !(top100 && v == .s1000)
  && !(lane && p.restricted && v != .s100)

/-- The highest speed of a list, in rising order, that the rows permit. -/
def bestOf (n : PortNo) (l : List LinkSpeed) (s : State) : Option LinkSpeed := (l.filter (permitted n s)).getLast?

/-- A port's target speed, and whether it runs forced (R205, R206). -/
def targetOf (n : PortNo) (s : State) : LinkSpeed × Bool :=
  let all : List LinkSpeed := [.s10, .s100, .s1000]
  match (port n s).speedCfg.toNat with
  | 0 => ((bestOf n all s).getD .s100, false)
  | c =>
    let f : LinkSpeed := match c with | 1 => .s10 | 2 => .s100 | _ => .s1000
    if permitted n s f then (f, true)
    else match bestOf n (all.filter fun v => speedRank v < speedRank f) s with
      | some v => (v, true)
      | none => (((all.filter (permitted n s)).head?).getD .s100, true)

/-- Link-up maximum of a target (Table 5.5). -/
def linkUpMax (v : LinkSpeed) (forced : Bool) : Ns :=
  match v, forced with
  | .s1000, _ => ms 3000
  | .s100, false => ms 1500
  | .s100, true => ms 600
  | _, false => ms 2000
  | _, true => ms 300

/-- LP_STATUS.SPEED and the speed byte of events. -/
def speedCode (v : LinkSpeed) : Nat := speedRank v

/-- Microseconds for which the pause in force has stopped a port so far (Table 6.10). -/
def pausedSoFar (p : LinePort) (s : State) : Nat :=
  match p.pauseFrom with
  | some t => (min s.now (p.rxPauseUntil.getD s.now) - t) / 1000
  | none => 0

/-- The time a pause has stopped a port is added to PAUSED_US, and the pause ends (Table 6.10). -/
def endPause (n : PortNo) (s : State) : State :=
  let p := port n s
  let s1 := modPort n (fun x => { x with rxPauseUntil := none, pauseFrom := none }) s
  addCount n 0x4F8 (pausedSoFar p s) s1

/-- Every stop and XOFF state of a port is cleared (R284). -/
def flowReset (n : PortNo) (s : State) : State :=
  modPort n (fun p => { p with rxPfcUntil := Vector.replicate 8 none, txPauseXoff := false, txXoff := 0,
                               xoffRepeatAt := Vector.replicate 8 none, pauseRepeatAt := none,
                               stoppedSince := Vector.replicate 8 none }) (endPause n s)

/-- A span whose link has dropped carries no span sweep and no HELLO any more. -/
def silenceSpan (l : Lane) (e : End) (s : State) : State :=
  modSpan l e (fun x => { x with watch := x.watch.map fun w => { w with last := min w.last (s.now - ms 50) },
                                 hello := none, helloLast := none, foreign := false }) s

/-- A port's link goes down: event 0x3002 with the speed it had, LINK_DOWN, flow control and verify state cleared, its span
down (R180, R217, R270, R284). -/
def linkDropped (n : PortNo) (s : State) : State :=
  let p := port n s
  if !p.link then s
  else
    let s1 := modPort n (fun x => { x with link := false, speed := .down, mdix := false, master := false, parDet := false,
                                           verify := if x.verify == .disabled then .disabled else .initial, preemptActive := false,
                                           verifyTries := 0, verifyDue := none, assembly := none, sweepSince := none,
                                           syncAt := none, pdelayAt := none, ctl := [] }) s
    let s2 := bump n 0x4E0 (raise 0x3002 (d1 n.val ++ d1 (speedCode p.speed)) s1)
    let s3 := match portLane n s2 with | some (l, e) => silenceSpan l e s2 | none => s2
    portSpanDown n (flowReset n s3)

/-- A port's PHY is powered down; a speed change ends unfinished. -/
def powerDown (n : PortNo) (s : State) : State :=
  modPort n (fun p => { p with phyOn := false, changing := false, target := .down, forced := false, retryAt := none,
                               abortNoted := false, overdueAt := none, changeAfterTest := false })
    (linkDropped n s)

/-- A port's PHY starts at its target. -/
def startPort (n : PortNo) (s : State) : State :=
  let t := targetOf n s
  modPort n (fun p => { p with phyOn := true, target := t.1, forced := t.2, retryAt := none }) s

/-- A speed change begins, or begins again with a newer target (R208, R209). -/
def beginChange (n : PortNo) (s : State) : State :=
  let t := targetOf n s
  let again := (port n s).changing
  modPort n (fun p => { p with phyOn := true, changing := true, target := t.1, forced := t.2, retryAt := none,
                               abortNoted := again && p.abortNoted, overdueAt := some (s.now + linkUpMax t.1 t.2) })
    (linkDropped n s)

/-- A port follows what its limits now say: powered down, started, or changed in speed; a change waits for a cable test
(R205, R208, R240), a silent pause runs on with the newer target (R210). `again` renegotiates at an unchanged target (R237). -/
def retarget (again : Bool) (n : PortNo) (s : State) : State :=
  let p := port n s
  let t := targetOf n s
  if !phyWanted n s then (if p.phyOn || p.changing then powerDown n s else s)
  else if p.test.isSome then
    (if p.target != t.1 || p.forced != t.2 || again then modPort n (fun x => { x with changeAfterTest := true }) s else s)
  else if p.retryAt.isSome then modPort n (fun x => { x with target := t.1, forced := t.2 }) s
  else if !p.phyOn then (if again then beginChange n s else startPort n s)
  else if again || p.target != t.1 || p.forced != t.2 then beginChange n s
  else s

/-- Every port follows its limits. -/
def retargetAll (s : State) : State := (List.finRange 8).foldl (fun t n => retarget false n t) s

/-- Watch ports renegotiate, every other port follows its limits: on entering CELLAR or ASLEEP and on the way back (R237,
R238). -/
def retargetWatch (s : State) : State :=
  (List.finRange 8).foldl (fun t n =>
    retarget (port n t).watch n (modPort n (fun p => { p with downInWatch := false }) t)) s

/-- A speed change is aborted: for want of a partner's energy (0) or with its cartridge gone (1) (R210, R211). Event 0x3040 is written
once for one change: not again at an unseating that ends a change whose abort it has told (DESIGN CHOICE, log entry 68). -/
def abortChange (n : PortNo) (cause : Nat) (s : State) : State :=
  let noted := (port n s).abortNoted
  let s1 := modPort n (fun p => { p with phyOn := false, speedAborted := true, abortNoted := true, overdueAt := none,
                                         retryAt := if cause = 0 then some (s.now + sec 2) else none,
                                         downInWatch := p.downInWatch || lowWatch s }) s
  let s2 := if cause = 0 then bump n 0x4E8 s1 else s1
  if noted then s2 else raise 0x3040 (d1 n.val ++ d1 cause) s2

end Sys2Proof.Machine
end

