-- ==== Sys2Proof/Machine/Timing.lean ====
section
/-! DEFINITION. When a frame may start: cycle layout and windows (R156 to R161), release and reserved instants (R163, R166),
gate lists (R261 to R268), transmission times. -/
namespace Sys2Proof.Machine

/-! ### Cycle layout (Table 4.3) -/

/-- Slot width s in ns. -/
def slotW (l : Lane) (s : State) : Ns := if laneSlowOf l s then 6400 else 3200
where
  /-- The lane runs at 100 Mbit/s. -/
  laneSlowOf (l : Lane) (s : State) : Bool := (match l with | .a => s.bbn.speedA | .b => s.bbn.speedB) == 1
/-- Hop period H in ns. -/
def hopP (l : Lane) (s : State) : Ns := if slotW l s = 6400 then 14200 else 6500
/-- Frame time T in ns. -/
def frameT (l : Lane) (s : State) : Ns := if slotW l s = 6400 then 7680 else 2976
/-- End of the Urgent window, in ns from the cycle's start. -/
def urgEnd (l : Lane) (s : State) : Ns := if slotW l s = 6400 then 420000 else 210000
/-- End of the Scheduled window. -/
def schedEnd (s : State) : Ns := if s.bbn.cycle1ms then 720000 else 360000
/-- End of the Open window: the guard begins. -/
def openEnd (s : State) : Ns := if s.bbn.cycle1ms then 992000 else 496000

/-- The release instant of a frame from ordinal j at this vertex, from the start of its cycle of origination (R163). -/
def releaseI (l : Lane) (j : Nat) (s : State) : Ns :=
  slotW l s * (j - 1) + (if j ≤ s.rlv.ord then s.rlv.ord - j else j - s.rlv.ord) * hopP l s

/-- A class is eligible at a position of the cycle on a lane (R161): S from the Scheduled window to the end of the Open window,
M and B in the Open window. -/
def inWindow (l : Lane) (cls : BitVec 2) (pos : Ns) (s : State) : Bool :=
  match cls.toNat with
  | 0 => true
  | 2 => decide (urgEnd l s ≤ pos) && decide (pos < openEnd s)
  | _ => decide (schedEnd s ≤ pos) && decide (pos < openEnd s)

/-- Ordinals whose instants an egress reserves (R166): every ordinal of the polyline that is not held, seen from this egress; none in the
cycle after a step (R188). -/
def reservedOrds (e : End) (s : State) : List Nat :=
  if (nbrOrd e s).isNone || barredAt e s || s.bbn.stepCycle == some (ttime s - cyclePos s) then []
  else
    let outbound := End.num e != s.rlv.refEnd.toNat
    (s.rlv.poly.map fun x => x.ord.toNat).filter fun o =>
      !heldOrd o s && (if outbound then decide (o ≤ s.rlv.ord) else decide (s.rlv.ord ≤ o))

/-- The next reserved instant of an egress at or after a position of the cycle, in ns from that position; none where it reserves
nothing. Frames of the previous cycle can still be in flight, so each instant counts modulo the cycle. -/
def nextInstant (l : Lane) (e : End) (pos : Ns) (s : State) : Option Ns :=
  (reservedOrds e s).foldl (fun best o =>
    let i := releaseI l o s % cycleNs s
    let d := if pos ≤ i then i - pos else i + cycleNs s - pos
    match best with
    | none => some d
    | some b => some (min b d)) none

/-- The position lies inside the reservation of some instant: I ≤ pos < I + T. -/
def inReservation (l : Lane) (e : End) (pos : Ns) (s : State) : Bool :=
  (reservedOrds e s).any fun o =>
    let i := releaseI l o s % cycleNs s
    let d := if i ≤ pos then pos - i else pos + cycleNs s - i
    decide (d < frameT l s)

/-! ### Transmission times -/

/-- Nanoseconds per byte at a speed. -/
def byteNs (v : LinkSpeed) : Ns := match v with | .s1000 => 8 | .s100 => 80 | .s10 => 800 | .down => 8
/-- Nanoseconds of `n` bit times at a speed. -/
def bitTimes (v : LinkSpeed) (n : Nat) : Ns := n * byteNs v / 8
/-- Time of `n` bytes on the wire with preamble and inter-frame gap. -/
def wireNs (v : LinkSpeed) (n : Nat) : Ns := (n + 20) * byteNs v

/-! ### Gate lists -/

/-- The active buffer of a port. -/
def activeList (p : LinePort) : GateList := if p.activeBuf then p.gcl1 else p.gcl0
/-- INTERVAL of an entry in ns. -/
def entryNs (w : Word) : Ns := fieldOf w 0 21 * 8
/-- GATES of an entry. -/
def entryGates (w : Word) : Byte := BitVec.ofNat 8 (fieldOf w 24 8)
/-- OP of an entry. -/
def entryOp (w : Word) : Nat := fieldOf w 22 2
/-- The entries a list runs. -/
def listEntries (g : GateList) : List Word := g.entries.take g.count.toNat
/-- Cycle time of a list (R262). -/
def listCycle (g : GateList) : Ns := g.mult.toNat * 500000

/-- The entry whose span covers an offset: its index and the time left in it. -/
def entryAt : List Word → Nat → Ns → Option (Nat × Ns)
  | [], _, _ => none
  | w :: rest, i, t => if t < entryNs w then some (i, entryNs w - t) else entryAt rest (i + 1) (t - entryNs w)

/-- The entry in force at this train time and the time left in it (R262). -/
def gateNow (p : LinePort) (s : State) : Option (Nat × Ns) :=
  let g := activeList p
  if listCycle g = 0 then none else entryAt (listEntries g) 0 (ttime s % listCycle g)

/-- How long the gate of a queue stays open over consecutive entries. -/
def openRun (q : Nat) : List Word → Ns
  | [] => 0
  | w :: rest => if (entryGates w).getLsbD q then entryNs w + openRun q rest else 0

/-- Time left until the gate of a queue closes, counted across the end of the list; none where it is closed. -/
def openLeft (p : LinePort) (q : Nat) (s : State) : Option Ns :=
  match gateNow p s with
  | none => none
  | some (i, left) =>
    let es := listEntries (activeList p)
    if (entryGates (es.getD i 0)).getLsbD q then some (left + openRun q (es.drop (i + 1) ++ es.take i)) else none

/-- The longest continuous open time of a queue's gate in the active list, across the end of the list (R256); none where the
gate never closes. -/
def longestOpen (p : LinePort) (q : Nat) : Option Ns :=
  let es := listEntries (activeList p)
  if es.all fun w => (entryGates w).getLsbD q then none
  else some ((List.range es.length).foldl (fun m i => max m (openRun q (es.drop i ++ es.take i))) 0)

end Sys2Proof.Machine
end

