-- ==== Sys2Proof/Machine/Mac.lean ====
section
/-! DEFINITION. The MAC of a line port: preemption settings and the verify exchange (R270, R273, R276), received pause and PFC
(R277 to R279, R281, R283), flow control the node sends (R280, R282, R284). -/
namespace Sys2Proof.Machine

/-! ### Preemption settings -/

/-- Lane and end of a lane port while traffic runs natively: cycle, windows, instants and class queues apply. -/
def laneNative (n : PortNo) (s : State) : Option (Lane × End) := if nativeRun s then portLane n s else none
/-- A lane port in native train mode: R273 decides how it preempts. -/
def laneMode (n : PortNo) (s : State) : Bool := isNative s && (portLane n s).isSome

/-- Preemption is enabled on a port (R273, Table 6.8). -/
def preemptOn (n : PortNo) (s : State) : Bool := laneMode n s || flagOf (port n s).preempt 0
/-- Preemption is used without verify. -/
def verifyDis (n : PortNo) (s : State) : Bool := !laneMode n s && flagOf (port n s).preempt 1
/-- ADD_FRAG in force. -/
def addFrag (n : PortNo) (s : State) : Nat := if laneMode n s then 0 else fieldOf (port n s).preempt 2 2
/-- VERIFY_TIME. -/
def verifyTime (n : PortNo) (s : State) : Ns := ms (fieldOf (port n s).preempt 8 8)
/-- A queue is express (R249, Table 6.1, LP_PREEMPT.EXPRESS). -/
def expressQ (n : PortNo) (q : Nat) (s : State) : Bool :=
  if (laneNative n s).isSome then decide (6 ≤ q) else flagOf (port n s).preempt (16 + q)

/-! ### Verify -/

/-- A verify mPacket is sent: the `k`-th of those counted since link-up or the last success. -/
def sendVerify (n : PortNo) (k : Nat) (s : State) : State :=
  emit (.verify n true)
    (modPort n (fun p => { p with verify := .verifying, verifyTries := k, verifyDue := some (s.now + verifyTime n s) }) s)

/-- Preemption as a link-up leaves it (R270). -/
def startVerify (n : PortNo) (s : State) : State :=
  if !preemptOn n s then
    modPort n (fun p => { p with verify := .disabled, preemptActive := false, verifyTries := 0, verifyDue := none }) s
  else if verifyDis n s then
    modPort n (fun p => { p with verify := .disabled, preemptActive := true, verifyTries := 0, verifyDue := none }) s
  else sendVerify n 1 (modPort n (fun p => { p with preemptActive := false }) s)

/-- A verify wait ends: the next verify, or after the third the state fails, which takes a lane's span down (R270); verify is repeated
every 1 s, counted from its first mPacket (R273). -/
def verifyWait (n : PortNo) (s : State) : State :=
  let p := port n s
  if p.verify != .verifying || !due p.verifyDue s then s
  else if p.verifyTries % 3 ≠ 0 then sendVerify n (p.verifyTries + 1) s
  else
    let s1 := modPort n (fun x => { x with verify := .failed,
                                           verifyDue := if laneMode n s then some (s.now + sec 1 - 3 * verifyTime n s) else none }) s
    let s2 := raise 0x3071 (d1 n.val) (bump n 0x4F4 s1)
    if laneMode n s2 then portSpanDown n s2 else s2

/-- Verify is repeated on a lane port (R273): the numbers 4 to 6 mark a repetition. -/
def verifyAgain (n : PortNo) (s : State) : State :=
  let p := port n s
  if p.link && p.verify == .failed && laneMode n s && due p.verifyDue s then sendVerify n 4 s else s

/-- A respond mPacket: preemption becomes active (R270). -/
def gotRespond (n : PortNo) (s : State) : State :=
  if (port n s).verify != .verifying then s
  else raise 0x3070 (d1 n.val)
    (modPort n (fun p => { p with verify := .succeeded, preemptActive := true, verifyTries := 0, verifyDue := none }) s)

/-- A verify mPacket is answered while preemption is enabled (R270). -/
def gotVerify (n : PortNo) (s : State) : State := if preemptOn n s && (port n s).link then emit (.verify n false) s else s

/-! ### Received pause and PFC -/

/-- The port's MODE honours 802.3x pause; PFC. -/
def honoursPause (p : LinePort) : Bool := p.fcMode == 1 || p.fcMode == 3
def honoursPfc (p : LinePort) : Bool := p.fcMode == 2 || p.fcMode == 3

/-- The queue of a priority at a port. -/
def prioQueue (n : PortNo) (p : Nat) (s : State) : Nat :=
  let pcp : BitVec 3 := BitVec.ofNat 3 p
  let cls : BitVec 2 := if pcp == s.tc.pcpU then 0 else if pcp == s.tc.pcpM then 1 else if pcp == s.tc.pcpS then 2 else 3
  (queueOf n cls pcp s).val

/-- The 802.3x pause stops a queue now (R279). -/
def pausedQ (n : PortNo) (q : Nat) (s : State) : Bool :=
  honoursPause (port n s) && ((portLane n s).isNone || decide (q ≤ 5))
  && (match (port n s).rxPauseUntil with | some t => decide (s.now < t) | none => false)
/-- A priority is stopped by PFC now. -/
def pfcStopped (n : PortNo) (p : Fin 8) (s : State) : Bool :=
  (match (port n s).rxPfcUntil[p] with | some t => decide (s.now < t) | none => false)
/-- PFC stops a queue now: it stops one of its priorities (R279, R281). -/
def pfcQ (n : PortNo) (q : Nat) (s : State) : Bool :=
  honoursPfc (port n s) && ((portLane n s).isNone || decide (q ≤ 5))
  && (List.finRange 8).any fun p => pfcStopped n p s && prioQueue n p.val s == q

/-- A queue of a port is stopped: while either kind stops it (R281). -/
def queueStopped (n : PortNo) (q : Nat) (s : State) : Bool := pausedQ n q s || pfcQ n q s

/-- The beginning of each queue's unbroken stop is kept up to date (R283). -/
def noteStopped (n : PortNo) (s : State) : State :=
  let since := fun (q : Fin 8) => if queueStopped n q.val s then some ((port n s).stoppedSince[q].getD s.now) else none
  modPort n (fun p => { p with stoppedSince := Vector.ofFn since }) s

/-- Nanoseconds of `q` quanta of 512 bit times. -/
def quantaNs (n : PortNo) (q : Nat) (s : State) : Ns := bitTimes (port n s).speed (512 * q)

/-- A received 802.3x pause with its quanta (R279). -/
def takePause (n : PortNo) (q : Nat) (s : State) : State :=
  let s1 := noteStopped n (if due (port n s).rxPauseUntil s then endPause n s else s)
  if q = 0 then noteStopped n (endPause n s1)
  else noteStopped n (modPort n (fun p => { p with rxPauseUntil := some (s.now + quantaNs n q s),
                                                       pauseFrom := some (p.pauseFrom.getD s.now) }) s1)

/-- A received PFC frame: its enable vector and eight quanta (R279). -/
def takePfc (n : PortNo) (vec : Nat) (quanta : List Nat) (s : State) : State :=
  noteStopped n ((List.finRange 8).foldl (fun t (p : Fin 8) =>
    if bitOf vec p.val && (port n t).pfcEn.getLsbD p.val && ((portLane n t).isNone || decide (prioQueue n p.val t ≤ 5)) then
      let q := quanta.getD p.val 0
      modPort n (fun x => { x with rxPfcUntil := x.rxPfcUntil.set p (if q = 0 then none else some (t.now + quantaNs n q t)) }) t
    else t) (noteStopped n s))

/-- A received MAC control frame, by its opcode (R278, R279, R283). -/
def takeMacControl (n : PortNo) (b : List Byte) (s : State) : State :=
  let p := port n s
  if p.stormUntil.isSome then s
  else match macControl b with
    | some 0x0001 => if honoursPause p then takePause n (beAt b 16 2) s else s
    | some _ =>
      if honoursPfc p then takePfc n (beAt b 16 2) ((List.range 8).map fun i => beAt b (18 + 2 * i) 2) s else s
    | none => s

/-- Stops whose quanta have passed end (R279). -/
def expireStops (n : PortNo) (s : State) : State :=
  let s1 := if due (port n s).rxPauseUntil s then endPause n s else s
  noteStopped n (modPort n (fun p => { p with rxPfcUntil := p.rxPfcUntil.map fun t =>
    match t with | some x => if x ≤ s.now then none else some x | none => none }) s1)

/-- A queue stopped for 500 ms: pause and PFC are ignored for 10 s (R283). -/
def stormBegins (n : PortNo) (s : State) : State :=
  let long := (List.finRange 8).any fun (q : Fin 8) =>
    queueStopped n q.val s && (match (port n s).stoppedSince[q] with | some t => decide (t + ms 500 ≤ s.now) | none => false)
  if long then
    let s1 := modPort n (fun p => { p with rxPfcUntil := Vector.replicate 8 none, stoppedSince := Vector.replicate 8 none, storm := true,
                                           stormUntil := some (s.now + sec 10) }) (endPause n s)
    raise 0x3073 (d1 n.val) s1
  else s

/-- The 10 s are over (R283). -/
def stormEnds (n : PortNo) (s : State) : State :=
  if due (port n s).stormUntil s then modPort n (fun p => { p with stormUntil := none }) s else s

/-! ### Flow control the node sends -/

/-- Priority of a raw frame received on a port: the PCP of its outer VLAN tag, else DEF_PCP (R250, R280). -/
def rawPrio (n : PortNo) (b : List Byte) (s : State) : BitVec 3 :=
  let t := beAt b 12 2
  if (t == 0x8100 || t == 0x88A8) && decide (16 ≤ b.length) then BitVec.ofNat 3 (beAt b 14 2 / 8192) else (port n s).defPcp

/-- The frames stored that arrived on a port, as priority and bytes: native ones have their header's, raw ones the one of their tag
(R280). -/
def ingress (n : PortNo) (s : State) : List (BitVec 3 × Nat) :=
  ((storedOut s).filterMap fun f => if f.inPort == some n then some (f.pcp, f.bytes.length) else none)
  ++ ((storedPlc s).filterMap fun d => if d.inPort == some n then some (d.pcp, d.bytes.length) else none)
  ++ ((storedRx s).filterMap fun i => if i.inPort == some n then some (i.pcp, i.data.length) else none)
  ++ ((s.bbn.rxFlows.map fun r =>
      r.held.filterMap fun h => if h.inPort == some n then some (h.frame.pcp, h.frame.payload.length) else none).flatten)

/-- Occupancy of one priority, of all. -/
def occPrio (l : List (BitVec 3 × Nat)) (p : Nat) : Nat := ((l.filter fun x => x.1.toNat == p).map (·.2)).sum
def occAll (l : List (BitVec 3 × Nat)) : Nat := (l.map (·.2)).sum

/-- A MAC control frame of this node (R280): its opcode and what follows. -/
def macFrame (opcode : Nat) (rest : List Byte) (s : State) : List Byte :=
  let b := toBE 6 0x0180C2000001 ++ natSrcMac (vkey s) ++ toBE 2 0x8808 ++ toBE 2 opcode ++ rest
  b ++ List.replicate (60 - b.length) 0

/-- A frame ahead of queues 0 to 6 (R258). -/
def pushCtl (n : PortNo) (b : List Byte) (s : State) : State := modPort n (fun p => { p with ctl := p.ctl ++ [b] }) s

/-- A pause frame; a PFC frame that names priorities with one quanta. -/
def sendPause (n : PortNo) (q : Nat) (s : State) : State := pushCtl n (macFrame 0x0001 (toBE 2 q) s) s
def sendPfc (n : PortNo) (mask q : Nat) (s : State) : State :=
  pushCtl n (macFrame 0x0101
    (toBE 2 mask ++ ((List.range 8).map fun p => toBE 2 (if bitOf mask p then q else 0)).flatten) s) s

/-- A mask of the priorities that meet a condition. -/
def prioMask (f : Nat → Bool) : Nat := ((List.range 8).map fun p => putBit p (f p)).sum

/-- The node sends PFC for a priority of a port: PFC_EN names it, and on a lane its queue is 0 to 5 (R281, R282). -/
def sendsPfc (n : PortNo) (p : Nat) (s : State) : Bool :=
  honoursPfc (port n s) && (port n s).pfcEn.getLsbD p && ((portLane n s).isNone || decide (prioQueue n p s ≤ 5))
/-- The node sends 802.3x pause on a port (R281, R282). -/
def sendsPause (n : PortNo) (s : State) : Bool := (port n s).fcMode == 1 && (portLane n s).isNone

/-- When flow control is repeated: half of QUANTA from now. -/
def halfQuanta (n : PortNo) (s : State) : Ns := s.now + bitTimes (port n s).speed (256 * (port n s).quanta.toNat)

/-- The priorities of a mask. -/
def inMask (m : Nat) (p : Fin 8) : Bool := bitOf m p.val

/-- PFC XOFF of a mask of priorities goes out, and is repeated once half of QUANTA has passed. -/
def pfcOff (n : PortNo) (mask : Nat) (s : State) : State :=
  let at_ := halfQuanta n s
  sendPfc n mask (port n s).quanta.toNat (modPort n (fun x =>
    { x with txXoff := x.txXoff ||| BitVec.ofNat 8 mask,
             xoffRepeatAt := Vector.ofFn fun (p : Fin 8) => if inMask mask p then some at_ else x.xoffRepeatAt[p] }) s)

/-- PFC XON of a mask of priorities goes out. -/
def pfcOn (n : PortNo) (mask : Nat) (s : State) : State :=
  sendPfc n mask 0 (modPort n (fun x =>
    { x with txXoff := x.txXoff &&& ~~~(BitVec.ofNat 8 mask),
             xoffRepeatAt := Vector.ofFn fun (p : Fin 8) => if inMask mask p then none else x.xoffRepeatAt[p] }) s)

/-- 802.3x XOFF, repeated likewise; XON. -/
def pauseOff (n : PortNo) (s : State) : State :=
  sendPause n (port n s).quanta.toNat (modPort n (fun x => { x with txPauseXoff := true, pauseRepeatAt := some (halfQuanta n s) }) s)
def pauseOn (n : PortNo) (s : State) : State :=
  sendPause n 0 (modPort n (fun x => { x with txPauseXoff := false, pauseRepeatAt := none }) s)

/-- XOFF and XON follow a port's ingress occupancy (R280). -/
def flowCheck (n : PortNo) (s : State) : State :=
  let p := port n s
  if !p.link || p.fcMode == 0 then s
  else
    let l := ingress n s
    let hi := 256 * p.xoff.toNat
    let lo := 256 * p.xon.toNat
    let above := prioMask fun i => sendsPfc n i s && decide (hi ≤ occPrio l i)
    let fresh_ := prioMask fun i => bitOf above i && !p.txXoff.getLsbD i
    let below := prioMask fun i => p.txXoff.getLsbD i && decide (occPrio l i ≤ lo)
    let s1 := if fresh_ = 0 then s else pfcOff n above s
    let s2 := if below = 0 then s1 else pfcOn n below s1
    if sendsPause n s2 && !p.txPauseXoff && decide (hi ≤ occAll l) then pauseOff n s2
    else if p.txPauseXoff && decide (occAll l ≤ lo) then pauseOn n s2
    else s2

/-- Every port's. -/
def flowCheckAll (s : State) : State := (List.finRange 8).foldl (fun t n => flowCheck n t) s

/-- Half of QUANTA has passed since a priority's, or the port's, last XOFF: what is still above XON is repeated (R280). -/
def repeatXoff (n : PortNo) (s : State) : State :=
  let s1 := flowCheck n s
  let p := port n s1
  let mask := prioMask fun i => p.txXoff.getLsbD i && due (p.xoffRepeatAt.toList.getD i none) s
  let s2 := if mask = 0 then s1 else pfcOff n mask s1
  if p.txPauseXoff && due p.pauseRepeatAt s then pauseOff n s2 else s2

end Sys2Proof.Machine
end

