-- ==== Sys2Proof/Machine/Gptp.lean ====
section
/-! DEFINITION. The gPTP frames a lane port sends (R185, R195, R258): two-step Sync, the peer-to-peer delay exchange, Announce in
interop mode. The spec names IEEE 802.1AS-2020 and gives no layout; what the standard leaves to the sender is log entry 30. -/
namespace Sys2Proof.Machine

/-- The clock identity of a vertex: its key as an EUI-64. -/
def clockId (k : Key) : List Byte := (toBE 6 k.toNat).take 3 ++ [0xFF, 0xFE] ++ (toBE 6 k.toNat).drop 3
/-- The port identity of a lane port. -/
def ptpPort (n : PortNo) (s : State) : List Byte := clockId (vkey s) ++ toBE 2 (n.val + 1)
/-- A time stamp: seconds and nanoseconds. -/
def ptpTime (t : Nat) : List Byte := toBE 6 (t / 1000000000) ++ toBE 4 (t % 1000000000)
/-- Bytes of zeros. -/
def zeroBytes (n : Nat) : List Byte := List.replicate n 0

/-- A gPTP frame of domain 0: message type, flags, sequence number, control field, logarithm of its interval, body. -/
def ptpFrame (n : PortNo) (type flags seq control interval : Nat) (body : List Byte) (s : State) : List Byte :=
  let b := toBE 6 0x0180C200000E ++ natSrcMac (vkey s) ++ [0x88, 0xF7] ++ toBE 1 (0x10 + type) ++ [0x12] ++ toBE 2 (34 + body.length)
    ++ [0, 0] ++ toBE 2 flags ++ zeroBytes 12 ++ ptpPort n s ++ toBE 2 seq ++ toBE 1 control ++ toBE 1 interval ++ body
  b ++ zeroBytes (60 - b.length)

/-- The information behind a Follow_Up's time stamp: the time base indicator shows a step of the grandmaster (R188, R189). -/
def followInfo (s : State) : List Byte :=
  [0x00, 0x03, 0x00, 0x1C, 0x00, 0x80, 0xC2, 0x00, 0x00, 0x01] ++ zeroBytes 4 ++ toBE 2 s.bbn.gmBase.toNat ++ zeroBytes 16

/-- Flags of a Sync: two-step and a PTP time scale; time traceable where train time has been set (TIME_VALID passes with the time). -/
def syncFlags (s : State) : Nat := 0x0208 + (if s.bbn.timeValid then 0x0010 else 0)

/-- Sync, and the Follow_Up that gives its time. -/
def sendSync (n : PortNo) (s : State) : State :=
  let q := (port n s).gptpSeq.toNat
  pushCtl n (ptpFrame n 0x8 (syncFlags s) q 2 0xFD (ptpTime (ttime s) ++ followInfo s) s)
    (pushCtl n (ptpFrame n 0x0 (syncFlags s) q 0 0xFD (zeroBytes 10) s) s)

/-- Pdelay_Req. -/
def sendPdelay (n : PortNo) (s : State) : State :=
  pushCtl n (ptpFrame n 0x2 0x0008 (port n s).gptpSeq.toNat 5 0 (zeroBytes 20) s) s

/-- Announce, with the priority1 of the grandmaster this node follows, or its own (R195). -/
def sendAnnounce (n : PortNo) (s : State) : State :=
  let p : Byte := match s.bbn.bmca with | some x => x.2 | none => s.bbn.gmPrio1
  pushCtl n (ptpFrame n 0xB 0x0008 (port n s).gptpSeq.toNat 5 0
    (zeroBytes 13 ++ toBE 1 p.toNat ++ [0xF8, 0xFE, 0xFF, 0xFF, 0xF8] ++ clockId (vkey s) ++ [0, 0, 0xA0]) s) s

/-- A received Pdelay_Req of domain 0 is answered: Pdelay_Resp and its Follow_Up, with the times of receipt and of sending. -/
def pdelayIn (n : PortNo) (b : List Byte) (s : State) : State :=
  if byteAt b 14 % 16 ≠ 2 || byteAt b 18 ≠ 0 then s
  else
    let seq := beAt b 44 2
    let who := slice b 34 10
    pushCtl n (ptpFrame n 0xA 0x0008 seq 5 0x7F (ptpTime (ttime s) ++ who) s)
      (pushCtl n (ptpFrame n 0x3 0x0208 seq 5 0x7F (ptpTime (ttime s) ++ who) s) s)

/-- A port passes time on: natively every lane port but those at REF_END, which the external port configuration makes the way time
comes in (R186); in interop mode every one but the one the BMCA has chosen (R195). -/
def sendsTime (n : PortNo) (s : State) : Bool :=
  if isNative s then
    s.bbn.gm || (match portLane n s with | some (_, e) => End.num e != s.rlv.refEnd.toNat | none => false)
  else (match s.bbn.bmca with | some (m, _) => m != n | none => true)

/-- What gPTP owes a linked lane port now: Sync every 125 ms, Pdelay_Req, and in interop mode Announce, every 1 s (R185). -/
def gptpQueue (n : PortNo) (s : State) : State :=
  if (portLane n s).isNone || !(port n s).link then s
  else
    let next := fun (t : Option Ns) (d : Ns) => t.map fun x => max (x + d) s.now
    let s1 := if due (port n s).syncAt s then
        modPort n (fun p => { p with syncAt := next p.syncAt (ms 125), gptpSeq := p.gptpSeq + 1 })
          (if sendsTime n s then sendSync n s else s)
      else s
    if due (port n s1).pdelayAt s1 then
      modPort n (fun p => { p with pdelayAt := next p.pdelayAt (sec 1), gptpSeq := p.gptpSeq + 1 })
        (sendPdelay n (if !isNative s1 && sendsTime n s1 then sendAnnounce n s1 else s1))
    else s1

end Sys2Proof.Machine
end

