-- ==== Sys2Proof/Machine/Traffic.lean ====
section
/-! DEFINITION. The egress of a line port (chapter 6): which frame may start (R253 to R257, R161, R166, R560 to R562), whole or
as a fragment (R271, R272, R274), what is dropped there (R222, R256), gate lists and holds (R262, R263). -/
namespace Sys2Proof.Machine

/-! ### Frames that wait at this vertex -/

/-- A frame originated here. -/
def localFrame (f : OutFrame) (s : State) : Bool :=
  f.inPort.isNone && (match f.nat with | some x => x.src == vkey s | none => true)

/-- A class M frame of the management engine for a host, which R562 limits at L4. -/
def limitedM (f : OutFrame) (s : State) : Bool :=
  f.cls == 1 && localFrame f s && (match f.nat with | some x => x.dst != spanKey | none => false)

/-- Bytes of such frames begun on a lane in the present cycle. -/
def mBytes (l : Lane) (s : State) : Nat :=
  if s.bgt.mCycle = cycleIdx s then (match l with | .a => s.bgt.mBytesA | .b => s.bgt.mBytesB) else 0

/-- The cycle R561 counts a train time in: in interop mode of 500 µs (Table 19.7). -/
def levelCycle (t : Nat) (s : State) : Nat := t / (if isNative s then cycleNs s else 500000)

/-- A frame held back: on a lane outside S6 to F7, and during an ETB inauguration (R144), all but span sweeps (R527); by the budget level
local S and B at L4 (R560), local S at L3 outside the Scheduled window of every fourth cycle (R561), the engine's M beyond 4 KiB at L4
(R562). -/
def heldBack (n : PortNo) (f : OutFrame) (s : State) : Bool :=
  let lv := s.bgt.level.val
  let sweep := match f.nat with | some x => x.dst == spanKey | none => false
  if (portLane n s).isSome && (!lanesRun s || !(nativeRun s || s.rlv.etb.valid)) && !sweep then true
  else if f.cls == 1 then
    (match portLane n s with
     | some (l, _) => lv == 4 && limitedM f s && decide (4096 < mBytes l s + wireLen f.bytes)
     | none => false)
  else if f.cls == 0 || !localFrame f s then false
  else if lv = 4 then true
  else
    lv == 3 && f.cls == 2
    && !(levelCycle (ttime s) s % 4 == 0
        && (!isNative s || (decide (cyclePos s < schedEnd s)
            && decide ((match portLane n s with | some (l, _) => urgEnd l s | none => urgEnd .a s) ≤ cyclePos s))))

/-- A queue as it stands now: a frame held back waits outside it and joins it again behind the others, so that no frame of a queue
overtakes another (R252) and a transit frame is not held with it (R560 to R562; DEDUCED, log entry 51). -/
def standing (n : PortNo) (s : State) (l : List OutFrame) : List OutFrame :=
  (l.filter fun f => !heldBack n f s) ++ l.filter fun f => heldBack n f s

/-- The first frame of a queue, unless everything in it is held back. -/
def firstFree (n : PortNo) (s : State) (l : List OutFrame) : Option OutFrame :=
  (standing n s l).head?.filter fun f => !heldBack n f s

/-- The queue without it. -/
def dropFree (n : PortNo) (s : State) (l : List OutFrame) : List OutFrame := (standing n s l).tail

/-- The frame a queue offers. -/
def headOf (n : PortNo) (q : Fin 8) (s : State) : Option OutFrame := firstFree n s (port n s).queues[q]

/-! ### Eligibility -/

/-- Time to the next reserved instant of a lane port's egress: none where nothing is reserved (R166). -/
def roomOf (n : PortNo) (s : State) : Option Ns :=
  match laneNative n s with
  | some (l, e) => if inReservation l e (cyclePos s) s then some 0 else nextInstant l e (cyclePos s) s
  | none => none

/-- A time fits in what is left to the next reserved instant. -/
def fits (need : Ns) (room : Option Ns) : Bool := match room with | some d => decide (need ≤ d) | none => true

/-- The window admits the start of a frame on a lane (R161): a class S frame in the Open window only if it was queued when the
Scheduled window closed. -/
def windowOk (n : PortNo) (f : OutFrame) (s : State) : Bool :=
  match laneNative n s with
  | none => true
  | some (l, _) =>
    let pos := cyclePos s
    f.cls != 0 && inWindow l f.cls pos s
    && (f.cls != 2 || decide (pos < schedEnd s) || decide (f.readyAt + (pos - schedEnd s) ≤ s.now))

/-- The gate of a queue admits a transmission of some length (R254, R255, R268). -/
def gateOk (n : PortNo) (q : Nat) (need : Ns) (s : State) : Bool :=
  let p := port n s
  !p.gateEn || ((laneNative n s).isSome && q == 7) || (longestOpen p q).isNone
  || (match openLeft p q s with | some t => decide (need ≤ t) | none => false)

/-- The split point of a frame from byte `from_` on, so that the fragment and its gap end in time: the largest that R271 allows. -/
def cutAt (n : PortNo) (total from_ : Nat) (room : Option Ns) (s : State) : Option Nat :=
  match room with
  | none => none
  | some d =>
    let k := min (d / byteNs (port n s).speed - 24) (total - 60 - from_)
    if 64 * (1 + addFrag n s) ≤ k + 4 then some (from_ + k) else none

/-- How the frame of a queue may start now: up to which byte, and through which MAC (Table 6.2, R274, R276). -/
def mayStart (n : PortNo) (q : Nat) (f : OutFrame) (s : State) : Option (Nat × Bool) :=
  let p := port n s
  let total := f.bytes.length
  let need := wireNs p.speed (total + 4)
  let room := roomOf n s
  let free := p.part.isNone && !p.hold && p.preemptActive
  if quiescing n s || ((laneNative n s).isSome && q == 7) || !windowOk n f s || !gateOk n q need s || pausedQ n q s || pfcQ n q s then none
  else if expressQ n q s || !p.preemptActive then
    if fits need room then some (total, false)
    else if (laneNative n s).isSome && q == 6 && free then (cutAt n total 0 room s).map fun k => (k, true)
    else none
  else if !free then none
  else if fits need room then some (total, true)
  else (cutAt n total 0 room s).map fun k => (k, true)

/-- How a part-sent frame may go on: its gate, window and PFC no longer matter, a hold and an 802.3x pause do (R255, R257, R272). -/
def mayGoOn (n : PortNo) (f : OutFrame) (q : Nat) (s : State) : Option Nat :=
  let p := port n s
  let total := f.bytes.length
  let room := roomOf n s
  if p.hold || pausedQ n q s then none
  else if fits (wireNs p.speed (total - f.sent + 4)) room then some total
  else cutAt n total f.sent room s

/-! ### Drops at the head of a queue -/

/-- The head of a queue is dropped: too long for the consist port (R222), or for its gate (R256). -/
def dropHeads (n : PortNo) (q : Fin 8) : Nat → State → State
  | 0, s => s
  | k + 1, s =>
    let p := port n s
    match standing n s p.queues[q] with
    | [] => s
    | f :: rest =>
      let gone := fun (t : State) => modPort n (fun x => { x with queues := x.queues.set q rest }) t
      if p.role == 1 && decide (effMaxLen n s < wireLen f.bytes) then
        let s1 := bump n 0x4D0 (completeOrigin f.origin stOk id (gone s))
        let s2 := if spaced p.oversizeEvAt (sec 60) s1 then
            raise 0x3060 (d1 n.val) (modPort n (fun x => { x with oversizeEvAt := some s.now }) s1)
          else s1
        dropHeads n q k s2
      else if p.gateEn && !((laneNative n s).isSome && q.val == 7)
          && (match longestOpen p q.val with | some t => decide (t < wireNs p.speed (wireLen f.bytes)) | none => false) then
        let s1 := bump n 0x4FC (completeOrigin f.origin stNoRoute id (gone s))
        let s2 := if spaced p.gateEvAt (sec 60) s1 then
            raise 0x3074 (d1 n.val ++ d1 q.val) (modPort n (fun x => { x with gateEvAt := some s.now }) s1)
          else s1
        dropHeads n q k s2
      else s

/-- Every queue's. -/
def dropAllHeads (n : PortNo) (s : State) : State :=
  (List.finRange 8).foldl (fun t q => dropHeads n q (port n t).queues[q].length t) s

/-- A port as it chooses: what gPTP owes it has joined its control frames, no head is left that can never leave. -/
def readyPort (n : PortNo) (s : State) : State := dropAllHeads n (gptpQueue n s)

/-! ### The choice -/

/-- What a port starts. -/
inductive Choice
  | ctl (b : List Byte)
  | goOn (f : OutFrame) (q upTo : Nat)
  | head (q : Fin 8) (f : OutFrame) (upTo : Nat) (preemptable : Bool)
  deriving DecidableEq, Repr

/-- The highest of some queues whose head may start; `expressOnly` leaves the preemptable MAC out. -/
def bestQueue (n : PortNo) (qs : List (Fin 8)) (expressOnly : Bool) (s : State) : Option Choice :=
  qs.findSome? fun q =>
    match headOf n q s with
    | some f =>
      (match mayStart n q.val f s with
       | some (k, pre) => if pre && expressOnly then none else some (.head q f k pre)
       | none => none)
    | none => none

/-- The control frame that may start (R258). -/
def bestCtl (n : PortNo) (s : State) : Option Choice :=
  match (port n s).ctl with
  | b :: _ => if !quiescing n s && fits (wireNs (port n s).speed (wireLen b)) (roomOf n s) then some (.ctl b) else none
  | [] => none

/-- What starts next: queue 7, control frames, then by queue number; a part-sent frame goes on once no express frame may start
(R253, R258, R272). -/
def choose (n : PortNo) (s : State) : Option Choice :=
  let low : List (Fin 8) := [6, 5, 4, 3, 2, 1, 0]
  match (port n s).part with
  | some (f, q) =>
    (((bestQueue n [7] true s).orElse fun _ => bestCtl n s).orElse fun _ =>
      bestQueue n (low.filter fun x => x.val != q) true s).orElse fun _ => (mayGoOn n f q s).map fun k => .goOn f q k
  | none =>
    ((bestQueue n [7] false s).orElse fun _ => bestCtl n s).orElse fun _ => bestQueue n low false s

/-! ### Starting -/

/-- Train time at which a frame became ready. -/
def readyTime (f : OutFrame) (s : State) : Nat := ttime s - (s.now - f.readyAt)

/-- A frame that starts now leaves after the window in which it first became eligible (R161, Table 9.6), or, class S at L3, in a
later cycle than it was admitted in (R561). -/
def startsLate (n : PortNo) (f : OutFrame) (s : State) : Bool :=
  let r := readyTime f s
  let c := cycleNs s
  let pos := r % c
  let closes := fun (w : Ns) => if pos < w then r - pos + w else r - pos + c + w
  f.delayed
  || ((laneNative n s).isSome
      && (match f.cls.toNat with
          | 0 => false
          | 2 => decide (closes (schedEnd s) ≤ ttime s)
          | _ => decide (closes (openEnd s) ≤ ttime s)))
  || (s.bgt.level.val == 3 && f.cls == 2 && localFrame f s && decide (levelCycle r s < levelCycle (ttime s) s))

/-- A frame of the management engine counts against R562. -/
def countM (n : PortNo) (f : OutFrame) (s : State) : State :=
  match portLane n s with
  | some (l, _) =>
    if limitedM f s then
      let a := mBytes .a s
      let b := mBytes .b s
      let k := wireLen f.bytes
      { s with bgt.mCycle := cycleIdx s, bgt.mBytesA := if l == .a then a + k else a, bgt.mBytesB := if l == .b then b + k else b }
    else s
  | none => s

/-- Bytes `f.sent` to `upTo - 1` of a frame go on the wire, with preamble, check sequence and gap. -/
def putOnWire (n : PortNo) (f : OutFrame) (q upTo : Nat) (preemptable : Bool) (s : State) : State :=
  let g := if f.sent = 0 then { f with firstAt := some (trainTime s), delayed := startsLate n f s } else f
  modPort n (fun p =>
    { p with sending := some { frame := g, startAt := s.now, endAt := s.now + wireNs p.speed (upTo - f.sent + 4),
                               preemptable := preemptable, from_ := f.sent, upTo := upTo, stomped := false, queue := q } }) s

/-- A control frame as it leaves: it belongs to no queue and no pool. -/
def ctlFrame (b : List Byte) (s : State) : OutFrame :=
  { bytes := b, nat := none, origin := none, cls := 1, pcp := 7, readyAt := s.now, sent := 0, firstAt := none, delayed := false,
    inPort := none, pool := 9 }

/-- The choice is carried out. -/
def begin_ (n : PortNo) (c : Choice) (s : State) : State :=
  match c with
  | .ctl b =>
    putOnWire n (ctlFrame b s) 8 b.length false (modPort n (fun p => { p with ctl := p.ctl.drop 1 }) s)
  | .goOn f q k => putOnWire n f q k true (modPort n (fun p => { p with part := none }) s)
  | .head q f k pre =>
    let s1 := modPort n (fun p => { p with queues := p.queues.set q (dropFree n s p.queues[q]) }) s
    putOnWire n f q.val k pre (countM n f s1)

/-- A preemptable frame on the wire is cut at its next legal point for a control or express frame, a hold or a pause (R271,
R272). -/
def preempt (n : PortNo) (s : State) : State :=
  let p := port n s
  match p.sending with
  | none => s
  | some x =>
    let wanted := !p.ctl.isEmpty || p.hold || pausedQ n x.queue s
      || (bestQueue n ([7, 6, 5, 4, 3, 2, 1, 0].filter fun (q : Fin 8) => q.val != x.queue) true s).isSome
    let gone := x.from_ + ((s.now - x.startAt) / byteNs p.speed - 8)
    let k := max gone (x.from_ + 64 * (1 + addFrag n s) - 4)
    if x.preemptable && p.preemptActive && wanted && decide (k + 60 ≤ x.frame.bytes.length) && decide (k < x.upTo) then
      modPort n (fun y => { y with sending := some { x with upTo := k, endAt := x.startAt + wireNs p.speed (k - x.from_ + 4) } }) s
    else s

/-- Every port's. -/
def preemptAll (s : State) : State := (List.finRange 8).foldl (fun t n => preempt n t) s

/-- A port may send at all: link, signal, no test, and frames pass it on (R237). -/
def mayTransmit (n : PortNo) (s : State) : Bool :=
  let p := port n s
  p.link && !p.los && p.test.isNone && !watchQuiet s && viewsOk n.val s && !(p.role == 1 && leverBusy (portSlot n) s)

/-- R253: what is over is taken off the wire, then the next frame starts, or the one on the wire is cut. -/
def egress (n : PortNo) (s : State) : State :=
  let s1 := retireSending n s
  let s2 :=
    if !mayTransmit n s1 then s1
    else if (port n s1).sending.isSome then preempt n (gptpQueue n s1)
    else
      let t := readyPort n s1
      match choose n t with
      | some c => begin_ n c t
      | none => t
  flowCheckAll s2

/-! ### Gate lists -/

/-- A new entry of the active list takes effect (R262, R263, R267, R276). -/
def gateChange (n : PortNo) (s : State) : State :=
  let p := port n s
  if !p.gateEn then s
  else match gateNow p s with
    | none => s
    | some (i, _) =>
      let w := (listEntries (activeList p)).getD i 0
      let hold := p.preemptActive && (match entryOp w with | 1 => true | 2 => false | _ => p.hold)
      preempt n (modPort n (fun x => { x with gateEntry := BitVec.ofNat 6 i, gates := entryGates w, hold := hold }) s)

/-! ### Meanings -/

/-- R253. -/
def execEgressStart (port_ : PortNo) (s : State) : Out := .next (egress port_ s)
/-- R262. -/
def execGateEntryChange (port_ : PortNo) (s : State) : Out := .next (gateChange port_ s)
/-- R270. -/
def execVerifyWaitExpiry (port_ : PortNo) (s : State) : Out := .next (verifyWait port_ s)
/-- R273. -/
def execLaneVerifyRetry (port_ : PortNo) (s : State) : Out := .next (verifyAgain port_ s)
/-- R279. -/
def execPauseExpiry (port_ : PortNo) (s : State) : Out := .next (expireStops port_ s)
/-- R280. -/
def execXoffRepeat (port_ : PortNo) (s : State) : Out := .next (repeatXoff port_ s)
/-- R283. -/
def execPauseStorm (port_ : PortNo) (s : State) : Out := .next (stormBegins port_ s)
/-- R283. -/
def execPauseStormEnd (port_ : PortNo) (s : State) : Out := .next (stormEnds port_ s)

end Sys2Proof.Machine
end

