-- ==== Sys2Proof/Machine/VehicleIo.lean ====
section
/-! DEFINITION. The CAN channels of the VX-2 (chapter 8): frame records, loading, arbitration between the buffers, errors and
bus-off, reception, filters and the mailbox. -/
namespace Sys2Proof.Machine

/-- EN, FD, LISTEN, ORDER, AUTO_RECOV and ACC_ALL of a channel (Table 8.8). -/
def canEn (c : CanChan) : Bool := flagOf c.cfg 0
def canFd (c : CanChan) : Bool := flagOf c.cfg 2
def canListen (c : CanChan) : Bool := flagOf c.cfg 3
def canOrder (c : CanChan) : Bool := flagOf c.cfg 4
def canAuto (c : CanChan) : Bool := flagOf c.cfg 6
def canAccAll (c : CanChan) : Bool := flagOf c.cfg 7

/-- The slot of the VX-2. -/
def vxSlot : Slot := 9

/-- Eleven bits at the nominal rate (R343, R362). -/
def canBits11 (c : CanChan) : Ns :=
  11 * (fieldOf c.nbt 24 8 + 1) * (1 + (fieldOf c.nbt 16 8 + 1) + (fieldOf c.nbt 8 7 + 1)) * 25 / 2

/-- The split termination of a channel is connected: TERM with the VX-2 seated, in every power state (R365). -/
def canTerminated (ch : Chan) (s : State) : Bool := flagOf (can ch s).cfg 5 && (slot vxSlot s).st != 0

/-- A channel starts: counters at 0, integrating until 11 recessive bits have passed (R367). -/
def canStart (ch : Chan) (s : State) : State :=
  modCan ch (fun c => { c with tec := 0, recCnt := 0, st := .integrating, recovering := false,
                               integDue := s.now + canBits11 c, nextLoad := 0, nextOffer := 0 }) s

/-- STATE of a channel as VX_CANn_STATUS shows it (Table 8.8). -/
def canState (ch : Chan) (s : State) : CanState :=
  let c := can ch s
  if !canEn c || !slotReady vxSlot s || s.cel.pstate == .off || s.cel.pstate == .cellar then .stopped
  else match c.st with
    | .integrating =>
      if c.busFault || s.now < c.integDue then .integrating else if canListen c then .listenOnly else .errActive
    | x => x

/-- The channel may send: error active or passive and no bus fault (R363). -/
def canSends (ch : Chan) (s : State) : Bool :=
  (canState ch s == .errActive || canState ch s == .errPassive) && !(can ch s).busFault

/-- Data bytes a DLC gives (R345): up to 8 in classical CAN, to 64 in CAN FD. -/
def dlcLen (fd : Bool) (dlc : Nat) : Nat :=
  if dlc ≤ 8 then dlc
  else if !fd then 8
  else match dlc with
    | 9 => 12
    | 10 => 16
    | 11 => 20
    | 12 => 24
    | 13 => 32
    | 14 => 48
    | _ => 64

/-- A Send record (Table 8.2), none where R346 refuses it. -/
def canRecord (fdOk : Bool) (b : List Byte) (origin : TxRef) (s : State) : Option TxBuffer :=
  let w := leAt b 0 4
  let f := byteAt b 4
  let ide := bitOf w 31
  let rtr := bitOf w 30
  let fdf := bitOf w 29
  let id := w % 2 ^ 29
  let brs := bitOf f 7
  let n := if rtr then 0 else dlcLen fdf (f % 16)
  if b.length ≠ 16 + n || bitsOf f 4 3 ≠ 0 || !zeros b 5 16 || (!ide && 2048 ≤ id) || (rtr && fdf) || (brs && !fdf)
      || (fdf && !fdOk) then none
  else some { origin := some origin, ide := ide, id := id, fd := fdf, brs := brs, remote := rtr, dlc := f % 16,
              data := b.drop 16, loadedAt := s.now }

/-- The buffer the next frame goes to: the lowest free one, or the next in the cycle (R349). -/
def canFree (c : CanChan) : Option (Fin 3) :=
  if canOrder c then (if c.bufs[c.nextLoad].isNone then some c.nextLoad else none)
  else (List.finRange 3).find? fun i => c.bufs[i].isNone

/-- A buffer number further round. -/
def canNext (i : Fin 3) : Fin 3 := ⟨(i.val + 1) % 3, Nat.mod_lt _ (by decide)⟩

/-- Some buffer holds a frame of the same identifier (R347, R348). -/
def canSameId (c : CanChan) (t : TxBuffer) : Bool :=
  c.bufs.toList.any fun b => match b with | some x => x.ide == t.ide && x.id == t.id | none => false

/-- A channel fetches Send descriptors: its VX-2 is seated and not being prepared, and the channel has integrated and is not bus-off
(R362, Table 8.7, Table 16.6); with EN = 0 or LISTEN = 1 descriptors are fetched to complete NO_ROUTE (R360, R364). BUS_FAULT stops the
sending, not the loading (R363). -/
def canFetches (ch : Chan) (s : State) : Bool :=
  let c := can ch s
  slotReady vxSlot s && !leverBusy vxSlot s && viewsOk (10 + ch.val) s && !draining ch s
  && (!canEn c || canListen c || canState ch s == .errActive || canState ch s == .errPassive)

/-- The next Send descriptor of the CQP a channel is bound to: refused, completed NO_ROUTE with the channel off or listening,
or loaded (R346 to R349, R360, R364); a record that R346 refuses is MALFORMED on every channel that fetches it. -/
def canLoad (l : Link) (n : Nat) (ch : Chan) (s : State) : State :=
  let x := ctx l n s
  let c := can ch s
  let d := sendDesc (ringEntry l n .tx x.txFetch s)
  let redo := (x.redo.find? fun r => r.idx == x.txFetch).isSome
  let t : TxPend := { newPend x.txFetch d.cookie d.len s with retx := redo }
  if !canFetches ch s then s
  else match canRecord (canFd c) (readHost l d.buf d.len s) ⟨l, n, x.txFetch⟩ s with
  | none => decideMalformed l n t s
  | some b =>
    if !d.bareOk then decideMalformed l n t s
    else if !canEn c || canListen c then decideNow l n t stNoRoute s
    else match canFree c with
      | none => s
      | some i =>
        if canSameId c b then s
        else
          modCan ch (fun y => { y with bufs := y.bufs.set i (some b), nextLoad := canNext i }) (pushPend l n t s)

/-- Place of a frame in bus arbitration: lower wins (ISO 11898-1: base identifier, then RTR or SRR, IDE, extension, RTR). -/
def canPlace (b : TxBuffer) : Nat :=
  if b.ide then b.id / 2 ^ 18 * 2 ^ 21 + 2 ^ 20 + 2 ^ 19 + b.id % 2 ^ 18 * 2 + bit b.remote
  else b.id * 2 ^ 21 + bit b.remote * 2 ^ 20

/-- The buffer whose frame was offered at an instant (R349). -/
def canOffered (c : CanChan) (sof : Ns) : Option (Fin 3 × TxBuffer) :=
  if canOrder c then
    (match c.bufs[c.nextOffer] with | some b => if sof < b.loadedAt then none else some (c.nextOffer, b) | none => none)
  else
    (List.finRange 3).foldl (fun best i =>
      match c.bufs[i] with
      | none => best
      | some b =>
        if sof < b.loadedAt then best
        else match best with
          | none => some (i, b)
          | some (_, y) => if canPlace b < canPlace y then some (i, b) else best) none

/-- The error state of the counters; entering passive and returning to active write their events (R361). -/
def canJudge (ch : Chan) (s : State) : State :=
  let c := can ch s
  let data := d1 ch.val ++ d1 c.tec ++ d1 c.recCnt
  let passive := decide (128 ≤ c.tec) || decide (128 ≤ c.recCnt)
  let was := c.st == .errPassive
  if passive && !was then
    raise 0x7001 data (modCan ch (fun y => { y with st := .errPassive, cntErrPassive := y.cntErrPassive + 1 }) s)
  else if !passive && was then raise 0x7009 data (modCan ch (fun y => { y with st := .errActive }) s)
  else modCan ch (fun y => { y with st := if passive then .errPassive else .errActive }) s

/-- A buffer is emptied and its descriptor completes. -/
def canDone (ch : Chan) (i : Fin 3) (b : TxBuffer) (status : Nat) (f : TxPend → TxPend) (s : State) : State :=
  completeOrigin b.origin status f (modCan ch (fun c => { c with bufs := c.bufs.set i none }) s)

/-- Every buffered frame of a channel completes TIMEOUT (R362, Table 8.7). -/
def canDropAll (ch : Chan) (s : State) : State :=
  (List.finRange 3).foldl (fun t i =>
    match (can ch t).bufs[i] with
    | some b => canDone ch i b stTimeout id t
    | none => t) s

/-- A frame of a buffer passes its end-of-frame without error (R352). -/
def canSent (ch : Chan) (sofAgo : Ns) (s : State) : State :=
  if !canSends ch s then s
  else match canOffered (can ch s) (s.now - sofAgo) with
    | none => s
    | some (i, b) =>
      let sof : Dword := trainTime s - BitVec.ofNat 64 sofAgo
      let s1 := canDone ch i b stOk (fun t => { t with time := sof }) s
      let s2 := modCan ch (fun c => { c with cntTx := c.cntTx + 1, tec := c.tec - 1, nextOffer := canNext i }) s1
      canJudge ch (emit (.can ch b.id b.ide b.remote b.fd b.brs b.dlc b.data) s2)

/-- A frame not sent within VX_CANn_TXTO is removed (R351): the command comes at the removal, after the attempt that is on the bus at
that moment has failed. -/
def canTimeout (ch : Chan) (i : Fin 3) (s : State) : State :=
  let c := can ch s
  match c.bufs[i] with
  | none => s
  | some b =>
    if c.txto == 0 || decide (s.now < b.loadedAt + ms c.txto.toNat) then s
    else
      let s1 := canDone ch i b stTimeout id s
      let s2 := modCan ch (fun y => { y with cntTxto := y.cntTxto + 1,
                                             nextOffer := if y.nextOffer = i then canNext i else y.nextOffer }) s1
      raiseSpaced (Tab.find 0x7008 c.evAt) (sec 1)
        (modCan ch fun y => { y with evAt := Tab.put 0x7008 s.now y.evAt }) 0x7008 (d1 ch.val) s2

/-! ### Reception -/

/-- Filter `f` matches a frame (R354). -/
def canMatch (f : CanFilter) (r : CanRx) : Bool :=
  let m := fieldOf f.mask 0 29
  let d := (r.id.toNat ^^^ fieldOf f.id 0 29) &&& m
  flagOf f.id 31 && (if r.ide then d == 0 else d % 2048 == 0) && (!flagOf f.mask 29 || flagOf f.id 29 == r.ide)

/-- The lowest-numbered matching filter, 0x3F for a frame accepted under ACC_ALL (R355). -/
def canFilterOf (c : CanChan) (r : CanRx) : Option (Nat × Bool) :=
  match (List.finRange 32).find? fun k => canMatch c.flts[k] r with
  | some k => some (k.val, flagOf c.flts[k].id 30)
  | none => if canAccAll c then some (0x3F, false) else none

/-- A received frame's record (Table 8.2). -/
def canRxRecord (r : CanRx) (filter : Nat) (ovf : Bool) (time : Nat) : List Byte :=
  let n := if r.rtr then 0 else dlcLen r.fdf r.dlc.toNat
  toLE 4 (putBit 31 r.ide + putBit 30 r.rtr + putBit 29 r.fdf + r.id.toNat)
  ++ toLE 1 (putBit 7 r.brs + putBit 6 r.esi + r.dlc.toNat) ++ toLE 1 (putBit 6 ovf + filter) ++ [0, 0] ++ toLE 8 time
  ++ r.data.take n ++ List.replicate (n - r.data.length) 0

/-- Receive descriptors posted and not spoken for: frames already waiting come first. -/
def rxPosted (l : Link) (n : Nat) (s : State) : Nat :=
  let x := ctx l n s
  x.rxFree.length + (x.rxProd - x.rxFetch).toNat - x.rxWait.length

/-- A frame for the Receive ring: dropped where no buffer is posted or no CQP is bound (R358). The fields of Table 9.7 that a
CAN frame does not have are those of this vertex and class B, PCP 0 (log entry 16). -/
def canToRing (ch : Chan) (record : List Byte) (time : Dword) (s : State) : State :=
  let c := can ch s
  let n := c.cqp.toNat
  let l := ownerOf n s
  if n = 0 || (ctx l n s).rxState != .running || rxPosted l n s = 0 then
    raiseSpaced (Tab.find 0x7006 c.evAt) (sec 1)
      (modCan ch fun y => { y with evAt := Tab.put 0x7006 s.now y.evAt }) 0x7006 (d1 ch.val)
      (modCan ch (fun y => { y with cntRxNobuf := y.cntRxNobuf + 1 }) s)
  else
    rxOffer n
      { src := vkey s, srcCqp := 0, srcPort := BitVec.ofNat 4 (8 + ch.val), raw := false, bcast := false, viaPlc := false,
        lane := false, cls := 3, pcp := 0, label := 0, fseq := 0, isFlow := false, truncated := false, ipCsum := 0,
        l4Csum := 0, fullLen := record.length, data := record, time := time, waitUntil := 0, gapCount := 0, inPort := none,
        pool := 3, localTx := none } s

/-- Address of mailbox entry `e`. -/
def mbxAddr (c : CanChan) (e : Nat) : Dword := c.mbx + BitVec.ofNat 64 (128 * e)

/-- A high-priority frame: written to the next mailbox entry, or diverted while that is full or the mailbox off (R357). -/
def canToMailbox (ch : Chan) (r : CanRx) (filter : Nat) (time : Dword) (s : State) : State :=
  let c := can ch s
  let l := ownerOf c.cqp.toNat s
  let a := mbxAddr c c.mbxPos
  if !flagOf c.mbxCtrl 31 || !dmaOk l s then canToRing ch (canRxRecord r filter true time.toNat) time s
  else if readHost32 l (a + 124) s == 0 then
    let record := canRxRecord r filter false time.toNat
    let entry := record ++ List.replicate (80 - record.length) 0 ++ toLE 4 c.mbxSeq.toNat ++ List.replicate 40 0 ++ toLE 4 1
    let s1 := writeHost l a entry s
    let s2 := modCan ch (fun y => { y with mbxPos := (y.mbxPos + 1) % 16, mbxSeq := y.mbxSeq + 1 }) s1
    mailboxVec l (fieldOf c.mbxCtrl 0 6) s2
  else
    let s1 := modCan ch (fun y => { y with cntMbxOvf := y.cntMbxOvf + 1 }) s
    let s2 := raiseSpaced (Tab.find 0x7005 c.evAt) (sec 1)
      (modCan ch fun y => { y with evAt := Tab.put 0x7005 s.now y.evAt }) 0x7005 (d1 ch.val) s1
    canToRing ch (canRxRecord r filter true time.toNat) time s2

/-- A frame received without error (R354 to R359), on a channel with FD = 0 no CAN FD frame (R342); REC falls by one, or from above 127 to a value from 119 to 127
(ISO 11898-1), which is free. -/
def canReceived (ch : Chan) (r : CanRx) (stores : List Host.Cell) (s : State) : State :=
  let st := canState ch s
  if (can ch s).busFault || (r.fdf && !canFd (can ch s)) || !(st == .errActive || st == .errPassive || st == .listenOnly) then s
  else
    let s0 := hostStores (ownerOf (can ch s).cqp.toNat s) stores s
    let s1 := if st == .listenOnly then s0
      else if 127 < (can ch s0).recCnt then
        let d := drawFree s0
        canJudge ch (modCan ch (fun c => { c with recCnt := 119 + d.1 % 9 }) d.2)
      else canJudge ch (modCan ch (fun c => { c with recCnt := c.recCnt - 1 }) s0)
    let s2 := modCan ch (fun c => { c with lastRx := some s.now }) s1
    match canFilterOf (can ch s2) r with
    | none => s2
    | some (k, hp) =>
      let time : Dword := trainTime s - BitVec.ofNat 64 r.sofAgo
      let s3 := modCan ch (fun c => { c with cntRx := c.cntRx + 1 }) s2
      if hp then canToMailbox ch r k time s3 else canToRing ch (canRxRecord r k false time.toNat) time s3

/-! ### Errors and bus-off -/

/-- Entering bus-off (R362). -/
def canBusOff (ch : Chan) (s : State) : State :=
  let s1 := canDropAll ch (modCan ch (fun c => { c with st := .busOff, recovering := canAuto c, cntBusoff := c.cntBusoff + 1 }) s)
  raise 0x7002 (d1 ch.val) s1

/-- A bus error: the counters grow as ISO 11898-1 has them for that error, and the state follows (R361). -/
def canError (ch : Chan) (tecAdd recAdd : Nat) (s : State) : State :=
  let st := canState ch s
  if !(st == .errActive || st == .errPassive || st == .listenOnly) then s
  else
    let s1 := modCan ch (fun c => { c with cntBusErr := c.cntBusErr + 1 }) s
    if st == .listenOnly then s1
    else
      let s2 := modCan ch (fun c => { c with tec := c.tec + tecAdd, recCnt := sat 255 (c.recCnt + recAdd) }) s1
      if 255 < (can ch s2).tec then canBusOff ch s2 else canJudge ch s2

/-- Recovery after 128 sequences of 11 recessive bits (R362). -/
def canRecovered (ch : Chan) (s : State) : State :=
  if canState ch s == .busOff && (can ch s).recovering then
    raise 0x7003 (d1 ch.val ++ d1 0 ++ d1 0)
      (modCan ch (fun c => { c with st := .errActive, tec := 0, recCnt := 0, recovering := false }) s)
  else s

/-- `vx_can_recover`: byte 0 names the channel (log entry 17). -/
def canRecover (r : Req) (s : State) : State :=
  authorised 0x0701 r (fun t =>
    if r.body.length ≠ 4 || 1 < byteAt r.body 0 || !zeros r.body 1 4 then malformed r 0x0701 t
    else
      let ch : Chan := if byteAt r.body 0 = 0 then 0 else 1
      let t1 := if canState ch t == .busOff then modCan ch (fun c => { c with recovering := true }) t else t
      answer r 0x0701 stOk [] t1) s

/-- The bus dominant for 10 ms (R363). -/
def canDominant (ch : Chan) (s : State) : State :=
  if canState ch s == .stopped || (can ch s).busFault then s
  else raise 0x7004 (d1 ch.val) (modCan ch (fun c => { c with busFault := true }) s)

/-! ### Meanings -/

/-- The next CAN Send descriptor goes to a free transmit buffer when no buffer holds its identifier (R348). -/
def execCanDescriptorLoad (ch : Chan) (stores : List Host.Cell) (s : State) : Out :=
  let n := (can ch s).cqp.toNat
  let l := ownerOf n s
  let s1 := hostStores l stores s
  .next (if n ≠ 0 && canOf n s1 == some ch && fetchAllowed l n s1 then canLoad l n ch s1 else s1)

/-- R352. -/
def execCanFrameSent (ch : Chan) (sofAgo : Ns) (s : State) : Out := .next (canSent ch sofAgo s)

/-- R351. -/
def execCanTxTimeout (ch : Chan) (buf : Fin 3) (s : State) : Out := .next (canTimeout ch buf s)

/-- R355. -/
def execCanFrameReceived (ch : Chan) (f : CanRx) (stores : List Host.Cell) (s : State) : Out :=
  .next (canReceived ch f stores s)

/-- R361, R362. -/
def execCanBusError (ch : Chan) (tecAdd recAdd : Nat) (s : State) : Out := .next (canError ch tecAdd recAdd s)

/-- R362. -/
def execCanBusoffRecovered (ch : Chan) (s : State) : Out := .next (canRecovered ch s)

/-- R362. -/
def execVxCanRecover (req : Req) (s : State) : Out := .next (canRecover req s)

/-- R363. -/
def execCanBusDominant (ch : Chan) (s : State) : Out := .next (canDominant ch s)

/-- R363: BUS_FAULT clears after 11 recessive bits. -/
def execCanBusFaultClear (ch : Chan) (s : State) : Out :=
  .next (modCan ch (fun c => { c with busFault := false }) s)

end Sys2Proof.Machine
end

