-- ==== Sys2Proof/Machine/Hif.lean ====
section
/-! DEFINITION. The host interface at work (chapter 9): polls and producer words, descriptor fetch, delivery to Receive rings,
completion queues and the shadow page, the management ring's items, starting, stopping and resetting rings. -/
namespace Sys2Proof.Machine

/-! ### Doorbell page -/

/-- Address within a link's doorbell page. -/
def dbAddr (l : Link) (off : Nat) (s : State) : Dword := (hlink l s).db + BitVec.ofNat 64 off
/-- Address within a link's shadow page. -/
def shAddr (l : Link) (off : Nat) (s : State) : Dword := (hlink l s).shadow + BitVec.ofNat 64 off

/-- CQP `c` belongs to a link (R389, R390). -/
def ownsCqp (l : Link) (c : Nat) (s : State) : Bool := c == 0 || ownerOf c s == l

/-- Every CQP number with a context that is not at reset. -/
def liveCqps (s : State) : List Nat := 0 :: s.hif.ctxs.map (·.1)

/-- A CQP of the link has a ring that is RUNNING. -/
def cqpRunning (l : Link) (c : Nat) (s : State) : Bool :=
  ownsCqp l c s && ((ctx l c s).txState == .running || (ctx l c s).rxState == .running)

/-- The node polls a link: it can reach its memory, Attic runs rings, some ring of the link runs (log entry 18). -/
def polls (l : Link) (s : State) : Bool := dmaOk l s && ringsRun s && (liveCqps s).any fun c => cqpRunning l c s

/-- AtomicOp Requester Enable is clear on the active endpoint: scan mode (R397). -/
def scanMode (l : Link) (s : State) : Bool := !(endpoint (activeEp l s) s).atomicOp

/-- Two items of one flow, the second next in sequence after `k` numbers from the first. -/
def nextInFlow (a : RxItemDue) (k : Nat) (b : RxItemDue) : Bool :=
  a.src == b.src && a.srcCqp == b.srcCqp && a.label == b.label && b.fseq == a.fseq + BitVec.ofNat 16 k

/-- Waiting items whose time is over at the head of the list: what stays, and what is dropped. A run of dropped numbers of one
flow becomes one GAP report (R406, R178). -/
def expireRun (now : Ns) (g : Option RxItemDue) : List RxItemDue → List RxItemDue × List RxItemDue
  | [] => (g.toList, [])
  | it :: rest =>
    if it.gapCount = 0 && decide (it.waitUntil ≤ now) then
      let gap : RxItemDue := { it with gapCount := 1, data := [], localTx := none }
      match it.isFlow, g with
      | false, _ => let r := expireRun now none rest; (g.toList ++ r.1, it :: r.2)
      | true, none => let r := expireRun now (some gap) rest; (r.1, it :: r.2)
      | true, some p =>
        if nextInFlow p p.gapCount it then
          let r := expireRun now (some { p with gapCount := p.gapCount + 1 }) rest; (r.1, it :: r.2)
        else let r := expireRun now (some gap) rest; (p :: r.1, it :: r.2)
    else (g.toList ++ it :: rest, [])

/-- A Receive ring that is not RUNNING keeps no waiting frame (R406): each is dropped and counted, each run of a flow's numbers reported
as GAP. -/
def dropWaiting (l : Link) (c : Nat) (s : State) : State :=
  let x := ctx l c s
  if x.rxState == .running then s
  else
    let r := expireRun s.now none (x.rxWait.map fun i => { i with waitUntil := 0 })
    let s1 := modCtx l c (fun y => { y with rxWait := [], cntRxNobuf := y.cntRxNobuf + BitVec.ofNat 32 r.2.length }) s
    let s2 := r.1.foldl (fun t g => rxReport l c g t) (countGaps (r.1.length + r.2.length - x.rxWait.length) s1)
    r.2.foldl (fun t it => completeOrigin it.localTx stOk id t) s2

/-- A Receive ring halts (R427, R406). -/
def haltRx (l : Link) (c : Nat) (idx : Half) (why : HaltWhy) (s : State) : State :=
  dropWaiting l c (haltRing l c .rx idx why s)

/-- A producer value puts more than ring size − 1 descriptors outstanding, or moves backwards (R398). -/
def overruns (done last new : Half) (size : Nat) : Bool :=
  decide (size - 1 < ahead done new) || decide (ahead done new < ahead done last)

/-- A Send ring takes a new TX_PROD. -/
def takeTxProd (l : Link) (c : Nat) (v : Half) (s : State) : State :=
  let x := ctx l c s
  if x.txState != .running then s
  else if overruns x.txDone x.txProd v (ctxSize .tx x) then haltRing l c .tx x.txFetch .overrun s
  else modCtx l c (fun y => { y with txProd := v }) s

/-- A Receive ring takes a new RX_PROD. -/
def takeRxProd (l : Link) (c : Nat) (v : Half) (s : State) : State :=
  let x := ctx l c s
  if x.rxState != .running then s
  else if overruns x.rxDone x.rxProd v (ctxSize .rx x) then haltRx l c x.rxFetch .overrun s
  else modCtx l c (fun y => { y with rxProd := v }) s

/-- PROD[c] is read and acted on (R396, Table 9.3). -/
def readProd (l : Link) (c : Nat) (s : State) : State :=
  if !ownsCqp l c s then s
  else
    let w := readHost32 l (dbAddr l (4 * c) s) s
    takeRxProd l c (BitVec.ofNat 16 (fieldOf w 16 16)) (takeTxProd l c (BitVec.ofNat 16 (fieldOf w 0 16)) s)

/-- One word of a summary: swapped with 0, then the producer words of its bits (R396). -/
def pollWord (l : Link) (off i : Nat) (s : State) : State :=
  let a := dbAddr l (off + 4 * i) s
  let w := readHost32 l a s
  if w == 0 then s
  else (List.range 32).foldl (fun t b => if flagOf w b then readProd l (32 * i + b) t else t) (writeHost l a [0, 0, 0, 0] s)

/-- A poll of a summary bitmap. -/
def pollSummary (l : Link) (off : Nat) (s : State) : State :=
  if polls l s && !scanMode l s then (List.range 32).foldl (fun t i => pollWord l off i t) s else s

/-- A poll in scan mode: the producer words of every running CQP of the kind (R397). -/
def pollScan (l : Link) (urgent : Bool) (s : State) : State :=
  if polls l s && scanMode l s then
    let s1 := if (hlink l s).scanNoted then s
      else raise 0x8032 (d1 (Link.num l)) (modLink l (fun h => { h with scanNoted := true }) s)
    (liveCqps s1).foldl (fun t c =>
      if cqpRunning l c t && ctxUrg (ctx l c t) == urgent then readProd l c t else t) s1
  else s

/-! ### Fetch -/

/-- The next Send descriptor of a ring, by what its CQP is bound to. -/
def fetchOne (l : Link) (c : Nat) (s : State) : State :=
  if c = 0 then fetchMgmt l s
  else match canOf c s with
    | some ch => canLoad l c ch s
    | none =>
      match bindOf c s with
      | some n => fetchBound l c n s
      | none => fetchClient l c s

/-- The Receive ring may be fetched. -/
def rxFetchAllowed (l : Link) (c : Nat) (s : State) : Bool :=
  let x := ctx l c s
  ownsCqp l c s && dmaOk l s && ringsRun s && x.rxState == .running && x.rxFetch != x.rxProd

/-- A Receive completion that carries nothing but a status, for a refused descriptor. -/
def rxRefused (l : Link) (c : Nat) (s : State) : CqPend :=
  { link := l, cqp := c, isRx := true, d0 := 0, d1 := 0,
    d2 := word (putBits 16 8 stMalformed + putBit 10 true + putBits 0 10 c),
    d3 := word (ctx l c s).rxFetch.toNat, d4 := lo32 (trainTime s), d5 := hi32 (trainTime s), d6 := 0, d7 := 0,
    uses := true, urgent := true, charge := 0, octets := 0, localTx := none }

/-- A Receive descriptor taken from the ring; a malformed one completes MALFORMED in its turn and the ring halts at it
(R404). -/
def fetchRx (l : Link) (c : Nat) (s : State) : State :=
  let x := ctx l c s
  match recvDesc (ringEntry l c .rx x.rxFetch s) with
  | some d => modCtx l c (fun y => { y with rxFree := y.rxFree ++ [⟨x.rxFetch, d.1, d.2⟩], rxFetch := y.rxFetch + 1 }) s
  | none =>
    if x.rxFree.isEmpty then
      let s1 := cqPush (ctxCq .rx x) (rxRefused l c s) s
      haltRx l c x.rxFetch .malformed (modCtx l c (fun y => { y with rxFetch := y.rxFetch + 1 }) s1)
    else s

/-- A host read for a ring fails (R427): MALFORMED with HOST_ERR where a descriptor was read, and the ring halts. -/
def readFailed (l : Link) (c : Nat) (r : Ring) (descRead : Bool) (s : State) : State :=
  let x := ctx l c s
  match r with
  | .tx =>
    if fetchAllowed l c s && ownsCqp l c s then
      let d := sendDesc (ringEntry l c .tx x.txFetch s)
      let t : TxPend := { newPend x.txFetch d.cookie d.len s with hostErr := true, classU := d.cls == 0 }
      haltRing l c .tx x.txFetch .hostRead (if descRead then decideNow l c t stMalformed s else s)
    else s
  | .rx =>
    if rxFetchAllowed l c s then
      let s1 := if descRead then
          modCtx l c (fun y => { y with rxFetch := y.rxFetch + 1 }) (cqPush (ctxCq .rx x) (rxRefused l c s) s)
        else s
      haltRx l c x.rxFetch .hostRead s1
    else s

/-! ### Delivery -/

/-- A raw frame with a bad checksum is counted once, in RX_CSUM_BAD of the port where it entered (R227). -/
def countCsums (it : RxItemDue) (s : State) : State :=
  match it.inPort with
  | some n => if it.ipCsum == 2 || it.l4Csum == 2 then bump n 0x474 s else s
  | none => s

/-- Index of the next unused Receive descriptor. -/
def nextRxIdx (x : Ctx) : Half := match x.rxFree with | d :: _ => d.idx | [] => x.rxFetch

/-- The item at the head of a client's waiting items goes to its buffer, or as a GAP report without one (R405, R178). -/
def deliverHead (l : Link) (c : Nat) (s : State) : State :=
  let x := ctx l c s
  let q := ctxCq .rx x
  if !(ownsCqp l c s && dmaOk l s && ringsRun s) || (cq q s).full then s
  else match x.rxWait with
    | [] => s
    | it :: rest =>
      if it.gapCount ≠ 0 then
        cqPush q (rxCompletion l c it 0x0A (nextRxIdx x) true 0) (modCtx l c (fun y => { y with rxWait := rest }) s)
      else match x.rxFree with
        | [] => s
        | d :: free =>
          let s0 := countCsums it (modCtx l c (fun y => { y with rxWait := rest, rxFree := free }) s)
          let n := min it.data.length d.len
          let trunc := it.truncated || decide (d.len < it.data.length)
          let s1 := writeHost l d.buf (it.data.take n) s0
          cqPush q (rxCompletion l c it (if trunc then 0x0B else 0) d.idx false n) s1

/-- RXWAIT ends without a descriptor (R406); each run dropped is one GAP (R178). -/
def expireWait (l : Link) (c : Nat) (s : State) : State :=
  let x := ctx l c s
  if !x.rxFree.isEmpty then s
  else
    let r := expireRun s.now none x.rxWait
    let s1 := modCtx l c (fun y => { y with rxWait := r.1, cntRxNobuf := y.cntRxNobuf + BitVec.ofNat 32 r.2.length }) s
    r.2.foldl (fun t it => completeOrigin it.localTx stOk id t) (countGaps (r.1.length + r.2.length - x.rxWait.length) s1)

/-! ### Completion queues -/

/-- Size of a queue in entries. -/
def cqSize (q : CqState) : Nat := 2 ^ q.sizeLog2.toNat

/-- CQ_CONS of a queue, as the driver's page gives it. -/
def cqCons (n : CqNo) (s : State) : Nat := fieldOf (readHost32 (cq n s).link (dbAddr (cq n s).link (0x1100 + 4 * n.val) s) s) 0 16

/-- A queue has no free entry (R412). -/
def cqIsFull (n : CqNo) (s : State) : Bool :=
  let q := cq n s
  ((q.pos.toNat + 1) % cqSize q) == cqCons n s % cqSize q

/-- The shadow word of a CQP: RX_DONE and TX_DONE (Table 9.9). -/
def writeCons (l : Link) (c : Nat) (s : State) : State :=
  let x := ctx l c s
  writeHost l (shAddr l (4 * c) s) (toLE 2 x.txDone.toNat ++ toLE 2 x.rxDone.toNat) s

/-- The shadow word of a queue: PASS and next entry (Table 9.9). -/
def writeCqProd (n : CqNo) (s : State) : State :=
  let q := cq n s
  writeHost q.link (shAddr q.link (0x1000 + 4 * n.val) s) (toLE 4 (q.pos.toNat + bit q.pass * 65536)) s

/-- The key of a client in the ledger's counts (R695). -/
def ledgerKey (l : Link) (c : Nat) : Nat := if c = 0 then 0x10000 + Link.num l else c

/-- A completion counts in the open interval: OK, or TRUNCATED on a Receive ring (R695). -/
def ledgerCount (p : CqPend) (s : State) : State :=
  let st := fieldOf p.d2 16 8
  if st ≠ 0 && !(p.isRx && st == 0x0B) then s
  else match s.ldg.open_ with
    | none => s
    | some i =>
      let k := ledgerKey p.link p.cqp
      let e := Tab.getD ⟨0, 0, 0, 0⟩ k i.counts
      let e' : ClientCount :=
        if p.isRx then { e with rxFrames := e.rxFrames + 1, rxOctets := e.rxOctets + p.octets }
        else { e with txFrames := e.txFrames + 1, txOctets := e.txOctets + p.octets }
      { s with ldg.open_ := some { i with counts := Tab.put k e' i.counts } }

/-- A ring's done position and counts after its completion is written (R416, Table 9.14). -/
def ringAdvance (p : CqPend) (x : Ctx) : Ctx :=
  if p.isRx then
    if p.uses then { x with rxDone := x.rxDone + 1, cntRx := x.cntRx + 1 } else x
  else { x with txDone := x.txDone + 1, cntTx := x.cntTx + 1 }

/-- The oldest completion of a queue is written: the entry with PHASE in dword 7, the ring's position, the shadow words, the
counts, the vector (R411 to R416). -/
def writeCompletion (n : CqNo) (p : CqPend) (s : State) : State :=
  let q := cq n s
  let l := q.link
  let dw := [p.d0, p.d1, p.d2, p.d3, p.d4, p.d5, p.d6, p.d7 ||| (if q.pass then 0 else 0x80000000)]
  let s1 := writeHost l (entryAddr q.base q.pos.toNat) (dw.map fun w => toLE 4 w.toNat).flatten s
  let wrap := decide (cqSize q ≤ q.pos.toNat + 1)
  let s2 := modCq n (fun x => { x with pend := x.pend.tail, pos := if wrap then 0 else x.pos + 1,
                                       pass := if wrap then !x.pass else x.pass }) s1
  let s3 := writeCqProd n (writeCons l p.cqp (modCtx l p.cqp (ringAdvance p) s2))
  let s4 := cqNote n p.urgent (ledgerCount p s3)
  completeOrigin p.localTx stOk id s4

/-- COMPLETION_WRITE: into a free entry, or the queue is marked full (R412). -/
def completionWrite (n : CqNo) (s : State) : State :=
  let q := cq n s
  match q.pend with
  | [] => s
  | p :: _ =>
    if !(q.en && dmaOk q.link s && ringsWrite s) then s
    else if cqIsFull n s then
      if q.full then s
      else raise 0x8010 (d1 (Link.num q.link) ++ d1 n.val) (modCq n (fun x => { x with full := true }) s)
    else writeCompletion n p s

/-! ### The management ring's items -/

/-- An item goes to the next free Receive buffer of CQP 0 (R405, R420). -/
def mgmtToBuffer (l : Link) (d : RxDesc) (free : List RxDesc) (it : MgmtItem) (s : State) : State :=
  let x := ctx l 0 s
  let msg := encodeMgmt it
  let n := min msg.length d.len
  let due : RxItemDue :=
    { src := it.src, srcCqp := 0, srcPort := 0xF, raw := false, bcast := false, viaPlc := false, lane := false, cls := 1,
      pcp := s.tc.pcpM, label := 0, fseq := 0, isFlow := false, truncated := false, ipCsum := 0, l4Csum := 0,
      fullLen := msg.length, data := msg, time := trainTime s, waitUntil := 0, gapCount := 0, inPort := none, pool := 1,
      localTx := none }
  let s1 := writeHost l d.buf (msg.take n) (modCtx l 0 (fun y => { y with rxFree := free }) s)
  cqPush (ctxCq .rx x) (rxCompletion l 0 due (if d.len < msg.length then 0x0B else 0) d.idx false n) s1

/-- The data of event 0x2030: the cause latch, the first cause and its tick (Table 13.13, R541). -/
def wakeData (l : Link) (s : State) : List Byte :=
  d4 (hlink l s).wakeLatch.toNat ++ d1 s.cel.wakeFirst ++ d4 s.cel.wakeTick.toNat

/-- Event 0x2030 is the first event a link's CQP 0 delivers after a rise; it clears the latch (R541). -/
def deliverWake (l : Link) (d : RxDesc) (free : List RxDesc) (s : State) : State :=
  let data := wakeData l s
  let s1 := mgmtToBuffer l d free (eventItem 0 0x2030 data s) s
  record 0x2030 data (modLink l (fun h => { h with wakeDue := false, wakeLatch := 0 }) s1)

/-- Once there is space, the events that were dropped are reported (R422). -/
def reportDropped (l : Link) (s : State) : State :=
  let h := hlink l s
  if h.dropped = 0 || 256 ≤ h.items.length then s
  else
    let data := d1 (Link.num l) ++ d4 h.dropped
    record 0x8012 data (offerLink l (eventItem 4 0x8012 data s) (modLink l (fun x => { x with dropped := 0 }) s))

/-- MGMT_ITEM_DELIVERY: the item at the head goes out, event 0x2030 ahead of any event while it is due (R421 to R423). -/
def mgmtDeliver (l : Link) (s : State) : State :=
  let x := ctx l 0 s
  if !(dmaOk l s && ringsRun s) || x.rxState != .running || (cq (ctxCq .rx x) s).full then s
  else match x.rxFree with
    | [] => s
    | d :: free =>
      let h := hlink l s
      match h.items with
      | [] => if h.wakeDue then deliverWake l d free s else s
      | it :: rest =>
        if it.event && h.wakeDue then deliverWake l d free s
        else reportDropped l (mgmtToBuffer l d free it (modLink l (fun y => { y with items := rest }) s))

/-! ### Starting, stopping, resetting -/

/-- The body of a ring message: CQP, rings (1 Send, 2 Receive). -/
def ringBody (b : List Byte) : Option (Nat × Nat) :=
  let c := leAt b 0 2
  let m := byteAt b 2
  if b.length ≠ 4 || 1024 ≤ c || 4 ≤ m || byteAt b 3 ≠ 0 then none else some (c, m)

/-- A ring is named in a mask. -/
def named (r : Ring) (m : Nat) : Bool := match r with | .tx => bitOf m 0 | .rx => bitOf m 1

/-- The first failed check of R424 on a ring, in the order of its list: base, size, completion queue, CQP 0, RXWAIT. -/
def ringUnusable (l : Link) (c m : Nat) (s : State) : Option Nat :=
  let x := ctx l c s
  let t := named .tx m
  let r := named .rx m
  let sizeBad := fun (n : Nat) => n < 4 || 16 < n
  let cqBad := fun (k : CqNo) => !(cq k s).en || (cq k s).link != l
  if (t && x.txBase.toNat % 4096 ≠ 0) || (r && x.rxBase.toNat % 4096 ≠ 0) then some 1
  else if (t && sizeBad (fieldOf x.ctrl 0 5)) || (r && sizeBad (fieldOf x.ctrl 8 5)) then some 2
  else if (t && cqBad (ctxCq .tx x)) || (r && cqBad (ctxCq .rx x)) then some 3
  else if c = 0 then some 4
  else if 100 < ctxRxWait x then some 5
  else none

/-- The Send ring runs from a position. After an overrun it goes on at TX_DONE (R427): the descriptors from there to the fetch position,
which have been fetched and are still to complete, are not fetched again. -/
def startTx (l : Link) (c : Nat) (s : State) : State :=
  let x := ctx l c s
  let shadow : Half := BitVec.ofNat 16 (fieldOf (readHost32 l (shAddr l (4 * c) s) s) 0 16)
  let at_ : Half := match x.txState with
    | .halted => if x.haltTx && x.haltWhy != .overrun then x.haltIdx + 1 else x.txFetch
    | _ => shadow
  let done : Half := match x.txState with
    | .halted => if ringIdle l c .tx s then at_ else x.txDone
    | _ => at_
  modCtx l c (fun y => { y with txState := .running, txFetch := at_, txProd := at_, txDone := done, haltTx := false }) s

/-- The Receive ring runs from a position; after an overrun as the Send ring does. -/
def startRx (l : Link) (c : Nat) (s : State) : State :=
  let x := ctx l c s
  let shadow : Half := BitVec.ofNat 16 (fieldOf (readHost32 l (shAddr l (4 * c) s) s) 16 16)
  match x.rxState with
  | .halted =>
    let at_ : Half := if x.haltRx && x.haltWhy != .overrun then x.haltIdx + 1 else x.rxFetch
    modCtx l c (fun y => { y with rxState := .running, rxFetch := at_, rxProd := at_, haltRx := false,
                                  rxDone := if ringIdle l c .rx s && x.rxFree.isEmpty then at_ else y.rxDone }) s
  | _ =>
    modCtx l c (fun y => { y with rxState := .running, rxFetch := shadow, rxProd := shadow, rxDone := shadow, haltRx := false }) s

/-- The named rings run, and PROD[c] is read once (R417, log entry 19). -/
def startRings (l : Link) (c m : Nat) (s : State) : State :=
  let s1 := if named .tx m then startTx l c s else s
  let s2 := if named .rx m then startRx l c s1 else s1
  if dmaOk l s2 then readProd l c s2 else s2

/-- A ring message for a CQP of the other link, or malformed; else `k` runs it (R391, R631). -/
def ringMessage (op : Half) (r : Req) (k : Link → Nat → Nat → State → State) (s : State) : State :=
  authorised op r (fun t =>
    match ringBody r.body with
    | none => malformed r op t
    | some (c, m) => if ownsCqp (reqLink r.port) c t then k (reqLink r.port) c m t else refuse r op 0x01 0xD001 t) s

/-- A ring is RUNNING or STOPPING. -/
def ringBusy (l : Link) (c m : Nat) (s : State) : Bool :=
  let x := ctx l c s
  let b := fun (y : RingState) => y == .running || y == .stopping
  (named .tx m && b x.txState) || (named .rx m && b x.rxState)

/-- `ring_start` (R424). -/
def ringStart (r : Req) (s : State) : State :=
  ringMessage 0x0801 r (fun l c m t =>
    if ringBusy l c m t then answer r 0x0801 stBusy [] t
    else match ringUnusable l c m t with
      | some why => answer r 0x0801 stMalformed (d1 why) t
      | none => answer r 0x0801 stOk [] (startRings l c m t)) s

/-- A named ring begins to stop; a HALTED or STOPPED one is STOPPED at once, and no frame waits for a Receive ring any longer (R425,
R406). -/
def beginStop (l : Link) (c m : Nat) (s : State) : State :=
  let f := fun (y : RingState) => if y == .running || y == .stopping then RingState.stopping else .stopped
  dropWaiting l c (modCtx l c (fun x =>
    { x with txState := if named .tx m then f x.txState else x.txState,
             rxState := if named .rx m then f x.rxState else x.rxState }) s)

/-- A stop request whose rings have all stopped is answered (R425, R426). -/
def answerStop (l : Link) (c : Nat) (q : StopReq) (s : State) : State :=
  let s1 := if q.reset then raise 0x8041 (d1 (Link.num l) ++ d2 c ++ d1 q.mask) s else s
  respond q.port q.tag q.opcode stOk q.body s1

/-- Rings that have nothing left to complete become STOPPED; a reset ring's positions become the producer values last read;
requests that waited for them are answered (R425, R426). -/
def finishStops (l : Link) (c : Nat) (s : State) : State :=
  let x := ctx l c s
  let txStops := x.txState == .stopping && ringIdle l c .tx s
  let rxStops := x.rxState == .stopping && ringIdle l c .rx s
  let txDone := x.txState == .stopped || txStops
  let rxDone := x.rxState == .stopped || rxStops
  let reset := fun (r : Ring) => x.stopReqs.any fun q => q.reset && (match r with | .tx => q.waitTx | .rx => q.waitRx)
  let reqs := x.stopReqs.map fun q => { q with waitTx := q.waitTx && !txDone, waitRx := q.waitRx && !rxDone }
  let ready := reqs.filter fun q => !q.waitTx && !q.waitRx
  let s1 := modCtx l c (fun y =>
    { y with txState := if txStops then .stopped else y.txState, rxState := if rxStops then .stopped else y.rxState,
             txDone := if txDone && reset .tx then y.txProd else y.txDone,
             txFetch := if txDone && reset .tx then y.txProd else y.txFetch,
             rxDone := if rxDone && reset .rx then y.rxProd else y.rxDone,
             rxFetch := if rxDone && reset .rx then y.rxProd else y.rxFetch,
             rxFree := if rxDone && y.rxState != .running then [] else y.rxFree,
             stopReqs := reqs.filter fun q => q.waitTx || q.waitRx }) s
  let s2 := if dmaOk l s1 && (txStops || rxStops || reset .tx || reset .rx) then writeCons l c s1 else s1
  ready.foldl (fun t q => answerStop l c q t) s2

/-- A stop request joins those that wait, and what has stopped already is answered. -/
def joinStop (l : Link) (c m : Nat) (r : Req) (op : Half) (reset : Bool) (body : List Byte) (s : State) : State :=
  let q : StopReq := ⟨r.port, r.tag, op, body, named .tx m, named .rx m, reset, m⟩
  finishStops l c (modCtx l c (fun x => { x with stopReqs := x.stopReqs ++ [q] }) s)

/-- `ring_stop` (R425). -/
def ringStop (r : Req) (s : State) : State :=
  ringMessage 0x0802 r (fun l c m t => joinStop l c m r 0x0802 false [] (beginStop l c m t)) s

/-! #### Ring reset -/

/-- Whether a frame came from a Send ring. -/
def fromRing (l : Link) (c : Nat) (o : Option TxRef) : Bool := match o with | some x => x.link == l && x.cqp == c | none => false

/-- A frame of the ring has begun to leave: it is on the wire of a port, in blocks of a power-line channel, in a CAN buffer, or with its
client of this vertex (R426). -/
def leaving (l : Link) (c : Nat) (i : Half) (s : State) : Bool :=
  let is := fun (o : Option TxRef) => o == some (⟨l, c, i⟩ : TxRef)
  (s.lp.toList.any fun p => (match p.sending with | some x => is x.frame.origin | none => false)
    || (match p.part with | some x => is x.1.origin | none => false))
  || (s.plc.toList.any fun p => (p.partSent.any fun x => is x.origin) || p.blocks.any fun b => b.done.any fun r => is (some r))
  || ([s.vx.can0, s.vx.can1].any fun k => k.bufs.toList.any fun b => match b with | some x => is x.origin | none => false)
  || ((liveCqps s).any fun n => (ctx (ownerOf n s) n s).rxWait.any fun x => is x.localTx)
  || (s.hif.cqs.toList.any fun q => q.pend.any fun x => is x.localTx)

/-- Queued frames without those of a ring's discarded descriptors. -/
def keepOut (l : Link) (c : Nat) (gone : List Half) (q : List OutFrame) : List OutFrame :=
  q.filter fun f => match f.origin with | some x => !(x.link == l && x.cqp == c && gone.contains x.idx) | none => true

/-- Discarded descriptors leave every queue that holds their frames. -/
def purge (l : Link) (c : Nat) (gone : List Half) (s : State) : State :=
  let k := keepOut l c gone
  let ref := fun (o : Option TxRef) => match o with | some x => !(x.link == l && x.cqp == c && gone.contains x.idx) | none => true
  { s with
    lp := s.lp.map fun p => { p with queues := p.queues.map k },
    bbn.uq := s.bbn.uq.filter fun x => ref x.2.origin, rlv.heldFrames := k s.rlv.heldFrames,
    plc := s.plc.map fun p => { p with dataQ := p.dataQ.filter fun x => ref x.origin,
                                       urgents := p.urgents.filter fun u => ref u.origin } }

/-- Descriptors fetched and not begun to leave. -/
def discardable (l : Link) (c : Nat) (s : State) : List Half :=
  ((ctx l c s).txPend.filter fun t => t.result.isNone && !leaving l c t.idx s).map (·.idx)

/-- `ring_reset` (R426): what it discards, its response, the flows of the CQP starting again. -/
def ringReset (r : Req) (s : State) : State :=
  ringMessage 0x0803 r (fun l c m t =>
    let x := ctx l c t
    let gone := if named .tx m then discardable l c t else []
    let unread := (x.txProd - x.txFetch).toNat
    let txBody := if named .tx m then d2 (gone.headD x.txFetch).toNat ++ d2 (gone.length + unread) else []
    let rxFirst := nextRxIdx x
    let rxBody := if named .rx m then d2 rxFirst.toNat ++ d2 (x.rxProd - rxFirst).toNat else []
    let t1 := purge l c gone t
    let t2 := modCtx l c (fun y =>
      { y with txPend := y.txPend.filter fun p => !gone.contains p.idx,
               rxFree := if named .rx m then [] else y.rxFree }) t1
    let t3 := if named .tx m then
        { t2 with bbn.txFlows := t2.bbn.txFlows.filter fun f => !(f.id.key == vkey t2 && f.id.cqp.toNat == c) }
      else t2
    joinStop l c m r 0x0803 true (txBody ++ rxBody) (beginStop l c m (flushTx l c t3))) s

/-! ### Meanings -/

/-- R396: the Urgent summary. -/
def execUrgentPoll (link : Link) (stores : List Host.Cell) (s : State) : Out :=
  .next (pollSummary link 0x1000 (hostStores link stores s))

/-- R396: the general summary. -/
def execGeneralPoll (link : Link) (stores : List Host.Cell) (s : State) : Out :=
  .next (pollSummary link 0x1080 (hostStores link stores s))

/-- R397. -/
def execScanPoll (link : Link) (urgent : Bool) (stores : List Host.Cell) (s : State) : Out :=
  .next (pollScan link urgent (hostStores link stores s))

/-- R401, R445. -/
def execDescriptorFetch (link : Link) (cqp : Cqp) (stores : List Host.Cell) (s : State) : Out :=
  let s1 := hostStores link stores s
  .next (preemptAll (if ownsCqp link cqp.val s1 && fetchAllowed link cqp.val s1 then fetchOne link cqp.val s1 else s1))

/-- R404. -/
def execReceiveDescriptorFetch (link : Link) (cqp : Cqp) (stores : List Host.Cell) (s : State) : Out :=
  let s1 := hostStores link stores s
  .next (if rxFetchAllowed link cqp.val s1 then fetchRx link cqp.val s1 else s1)

/-- R405. -/
def execReceiveDelivery (link : Link) (cqp : Cqp) (s : State) : Out := .next (deliverHead link cqp.val s)

/-- R406. -/
def execRxwaitExpiry (link : Link) (cqp : Cqp) (s : State) : Out := .next (expireWait link cqp.val s)

/-- R412. -/
def execCompletionWrite (cq_ : CqNo) (stores : List Host.Cell) (s : State) : Out :=
  .next (completionWrite cq_ (hostStores (cq cq_ s).link stores s))

/-- R412: a full queue's CQ_CONS is read again. -/
def execCqFullRecheck (cq_ : CqNo) (stores : List Host.Cell) (s : State) : Out :=
  let s1 := hostStores (cq cq_ s).link stores s
  .next (if (cq cq_ s1).full && dmaOk (cq cq_ s1).link s1 && !cqIsFull cq_ s1
    then modCq cq_ (fun q => { q with full := false }) s1 else s1)

/-- R414: TIMER of a queue has passed. -/
def execModerationTimer (cq_ : CqNo) (s : State) : Out :=
  .next (if cqModerated (cq cq_ s) s then cqFire cq_ s else s)

/-- R422, R423, R541. -/
def execMgmtItemDelivery (link : Link) (s : State) : Out := .next (mgmtDeliver link s)

/-- R424. -/
def execRingStart (req : Req) (s : State) : Out := .next (ringStart req s)

/-- R425. -/
def execRingStop (req : Req) (s : State) : Out := .next (ringStop req s)

/-- R425: rings with nothing left to complete are STOPPED. -/
def execRingStopDone (link : Link) (cqp : Cqp) (s : State) : Out := .next (finishStops link cqp.val s)

/-- R426. -/
def execRingReset (req : Req) (s : State) : Out := .next (ringReset req s)

/-- R427. -/
def execHostReadFail (link : Link) (cqp : Cqp) (ring : Ring) (descRead : Bool) (s : State) : Out :=
  .next (readFailed link cqp.val ring descRead s)

/-- R428. -/
def execSummaryReadFail (link : Link) (s : State) : Out :=
  .next (raiseSpaced (hlink link s).readFailAt (sec 1) (fun t => modLink link (fun h => { h with readFailAt := some t.now }) t)
    0x8020 (d1 (Link.num link)) s)

end Sys2Proof.Machine
end

