-- ==== Sys2Proof/Machine/Registers.lean ====
section
/-! DEFINITION. What a register write does (R14): locked registers (Table 0.5), 64-bit pairs (R10), each writable register's value; the
remote-window lock breaking, with the writes it held (R477, R483). -/
namespace Sys2Proof.Machine

/-! ### Pairs -/

/-- Offset `a` lies in a table of `n` entries of `size` bytes from `base`, at place `at_`. -/
def inTable (base size n at_ a : Nat) : Bool := decide (base ≤ a) && decide (a < base + size * n) && (a - base) % size == at_

/-- The _LO half of a 64-bit register that takes writes. -/
def writeLo (a : Nat) : Bool :=
  a == 0x1008 || a == 0x1010 || inTable 0x1100 16 16 0 a || inTable 0x10000 64 1024 0 a || inTable 0x10000 64 1024 8 a
  || a == 0x6114 || a == 0x6214
/-- The _HI half of a 64-bit register that takes writes. -/
def writeHi (a : Nat) : Bool := decide (4 ≤ a) && writeLo (a - 4)
/-- The _LO half of any 64-bit register (R11, R717). -/
def readLo (a : Nat) : Bool :=
  writeLo a || a == 0x18 || inTable 0x4118 0x100 2 0 a || inTable 0x4120 0x100 2 0 a || inTable 0x4128 0x100 2 0 a
  || inTable 0x4130 0x100 2 0 a || inTable 0x4138 0x100 2 0 a || a == 0x5008 || a == 0x540C || a == 0xC008 || a == 0xD00C
  || a == 0xE014 || a == 0xE414 || a == 0x20010 || a == 0x21008 || a == 0x2200C || a == 0x22014
  || inTable 0x8000 0x800 8 0x400 a || inTable 0x8000 0x800 8 0x480 a || inTable 0x30000 0x100 8 0 a || inTable 0x30000 0x100 8 0x80 a
/-- The _HI half of any 64-bit register. -/
def readHi (a : Nat) : Bool := decide (4 ≤ a) && readLo (a - 4)

/-! ### Whose register -/

/-- An offset of the MSI-X table. -/
def isMsix (a : Nat) : Bool := decide (0x2000 ≤ a) && decide (a < 0x2400)
/-- An offset of a completion queue's registers, and its queue. -/
def cqAt (a : Nat) : Option CqNo :=
  if 0x1100 ≤ a && a < 0x1200 then some ⟨(a - 0x1100) / 16 % 16, Nat.mod_lt _ (by decide)⟩ else none
/-- An offset of the context table, and its CQP. -/
def ctxAt (a : Nat) : Option Nat := if 0x10000 ≤ a && a < 0x20000 then some ((a - 0x10000) / 64) else none
/-- An offset of a CAN mailbox register, and its channel. -/
def mbxAt (a : Nat) : Option Chan :=
  if 0x6114 ≤ a && a < 0x6120 then some 0 else if 0x6214 ≤ a && a < 0x6220 then some 1 else none

/-- A register of the other link: a context (R391), or a completion queue but for LINK, which H1 writes (R392). -/
def foreignReg (l : Link) (a : Nat) (s : State) : Bool :=
  (match ctxAt a with | some c => !ownsCqp l c s | none => false)
  || (match cqAt a with | some n => (cq n s).link != l && !(l == .h1 && a % 16 == 8) | none => false)

/-- A locked register (LK, R14): the owning ring or queue is not stopped, MGMT_EN is set, or a ring of the CQP a mailbox's channel is bound
to runs (the mailbox card names no unit whose start locks it: DESIGN CHOICE, log entry 37). -/
def lockedReg (l : Link) (a : Nat) (s : State) : Bool :=
  if 0x1008 ≤ a && a < 0x1018 then (hlink l s).mgmtEn
  else match ctxAt a with
    | some c =>
      let x := ctx l c s
      let t := x.txState != .stopped
      let r := x.rxState != .stopped
      match a % 64 with
      | 0x00 => t
      | 0x04 => t
      | 0x08 => r
      | 0x0C => r
      | 0x10 => t || r
      | 0x14 => t
      | 0x18 => r
      | _ => true
    | none => match cqAt a with
      | some n => (cq n s).en && decide (a % 16 < 8)
      | none => match mbxAt a with
        | some ch =>
          let c := (can ch s).cqp.toNat
          c ≠ 0 && (let x := ctx (ownerOf c s) c s; x.txState != .stopped || x.rxState != .stopped)
        | none => false

/-! ### What a write does -/

/-- Bits of a W1C field cleared. -/
def w1c {n : Nat} (old : BitVec n) (v : Nat) : BitVec n := old &&& ~~~(BitVec.ofNat n v)

/-- MGMT_EN set: CQP 0 of the link starts from its shadow word where its context can be used (R422). -/
def mgmtOn (l : Link) (s : State) : State :=
  let s1 := modLink l (fun h => { h with mgmtEn := true }) s
  let usable := match ringUnusable l 0 3 s1 with | some k => k == 4 && ctxRxWait (ctx l 0 s1) ≤ 100 | none => true
  if usable && !ringBusy l 0 3 s1 then startRings l 0 3 s1 else s1

/-- MGMT_EN cleared: CQP 0 stops as `ring_stop` does (R422). -/
def mgmtOff (l : Link) (s : State) : State :=
  finishStops l 0 (beginStop l 0 3 (modLink l (fun h => { h with mgmtEn := false }) s))

/-- HIF_CFG. -/
def writeHifCfg (l : Link) (v : Word) (s : State) : State :=
  if flagOf v 0 == (hlink l s).mgmtEn then s else if flagOf v 0 then mgmtOn l s else mgmtOff l s

/-- HIF_CQn_CTRL: VEC, LINK and SIZE_LOG2 while EN was 0; LINK through H1; EN set takes the position of the shadow word (R417). -/
def writeCqCtrl (l : Link) (n : CqNo) (v : Word) (s : State) : State :=
  let q := cq n s
  let own := q.link == l
  let size := fieldOf v 0 5
  let link := if l == .h1 && !q.en then (if flagOf v 30 then Link.h2 else .h1) else q.link
  let q1 : CqState :=
    if own && !q.en then
      { q with link := link, vec := BitVec.ofNat 6 (fieldOf v 8 6),
               sizeLog2 := if inRange 4 16 size then BitVec.ofNat 5 size else q.sizeLog2 }
    else { q with link := link }
  let on := if own then flagOf v 31 else q.en
  let s1 := modCq n (fun _ => { q1 with en := on, full := q1.full && on }) s
  if on && !q.en then
    let w := readHost32 link (shAddr link (0x1000 + 4 * n.val) s1) s1
    modCq n (fun x => { x with pos := BitVec.ofNat 16 (fieldOf w 0 16), pass := flagOf w 16, since := 0, firstAt := none }) s1
  else s1

/-- HIF_CQn_MOD; COUNT 0 is reserved (R13). -/
def writeCqMod (n : CqNo) (v : Word) (s : State) : State :=
  modCq n (fun q => { q with urgNow := flagOf v 31, timer := BitVec.ofNat 10 (fieldOf v 16 10),
                             count := if fieldOf v 0 8 = 0 then q.count else BitVec.ofNat 8 (fieldOf v 0 8) }) s

/-- A word of a context entry that is no half of a pair. -/
def writeCtx (l : Link) (c off : Nat) (v : Word) (s : State) : State :=
  let quota := fun (old : Word) => if fieldOf v 16 16 = 0 then old else v &&& 0xFFFF0000
  match off with
  | 0x10 => modCtx l c (fun x => { x with ctrl := v &&& 0xFFFF1F1F }) s
  | 0x14 => modCtx l c (fun x => { x with admTx := quota x.admTx }) s
  | 0x18 => modCtx l c (fun x => { x with admRx := quota x.admRx }) s
  | _ => s

/-- ARB_CFG or ARB_CLASS written; reserved values keep their field (R13, R439). -/
def writeArb (isClass : Bool) (v : Word) (s : State) : State :=
  if isClass then setArb (arbCfg s) v s
  else
    let burst := if fieldOf v 9 2 = 3 then s.arb.burst.toNat else fieldOf v 9 2
    let age := if inRange 2 64 (fieldOf v 0 7) then fieldOf v 0 7 else s.arb.ageN.toNat
    setArb (word (putBits 9 2 burst + putBit 8 (flagOf v 8) + putBits 0 7 age)) s.arb.cls s

/-- Writing 1 to LOCATE starts the 60 s anew (R65). -/
def writeLocate (v : Word) (s : State) : State :=
  if flagOf v 0 then { s with sys.locateUntil := some (s.now + sec 60) } else s

/-- W1C registers of the SYS block. -/
def writeSys (a : Nat) (v : Word) (s : State) : State :=
  match a with
  | 0x24 => { s with sys.strapChanged := s.sys.strapChanged && !flagOf v 7 }
  | 0x28 => { s with sys.bypA.fault := s.sys.bypA.fault && !flagOf v 8, sys.bypB.fault := s.sys.bypB.fault && !flagOf v 9 }
  | 0x2C => { s with sys.fvSeen := w1c s.sys.fvSeen (fieldOf v 8 8), sys.battARev := s.sys.battARev && !flagOf v 4,
                     sys.battBRev := s.sys.battBRev && !flagOf v 5 }
  | 0x30 => writeLocate v s
  | _ => s

/-- W1C registers of a line port's page. -/
def writeLp (n : PortNo) (off : Nat) (v : Word) (s : State) : State :=
  match off with
  | 0x004 => modPort n (fun p => { p with cntRestart := p.cntRestart && !flagOf v 15,
                                          speedAborted := p.speedAborted && !flagOf v 13 }) s
  | 0x010 => modPort n (fun p => { p with half0 := w1c p.half0 v.toNat }) s
  | 0x014 => modPort n (fun p => { p with half1 := w1c p.half1 v.toNat }) s
  | 0x020 => modPort n (fun p => { p with wakeHit := w1c p.wakeHit v.toNat }) s
  | 0x20C => modPort n (fun p => { p with storm := p.storm && !flagOf v 9 }) s
  | _ => s

/-- A 64-bit register takes effect with the write of its _HI half (R10); `lo` is the pending _LO value. Address bits that must be 0
are 0. -/
def writePair (l : Link) (a : Nat) (lo : Option Word) (v : Word) (s : State) : State :=
  let merge := fun (old : Dword) (mask : Dword) => join64 v (lo.getD (lo32 old)) &&& ~~~mask
  if a = 0x100C then modLink l (fun h => { h with db := merge h.db 0x1FFF }) s
  else if a = 0x1014 then modLink l (fun h => { h with shadow := merge h.shadow 0x1FFF }) s
  else match cqAt a with
    | some n => modCq n (fun q => { q with base := merge q.base 0xFFF }) s
    | none => match ctxAt a with
      | some c =>
        if a % 64 = 4 then modCtx l c (fun x => { x with txBase := merge x.txBase 0 }) s
        else modCtx l c (fun x => { x with rxBase := merge x.rxBase 0 }) s
      | none => match mbxAt a with
        | some ch => modCan ch (fun c => { c with mbx := merge c.mbx 0x7FF, mbxPos := 0 }) s
        | none => s

/-- A write takes effect on the node's registers, by its access type (R14): `l` is the link it came through. -/
def regWrite (l : Link) (a : Nat) (lo : Option Word) (v : Word) (s : State) : State :=
  if foreignReg l a s || lockedReg l a s then s
  else if writeHi a then writePair l a lo v s
  else if a < 0x1000 then writeSys a v s
  else if a = 0x1004 then writeHifCfg l v s
  else match cqAt a with
    | some n => if a % 16 = 8 then writeCqCtrl l n v s else if a % 16 = 12 then writeCqMod n v s else s
    | none => match ctxAt a with
      | some c => writeCtx l c (a % 64) v s
      | none => match mbxAt a with
        | some ch => modCan ch (fun c => { c with mbxCtrl := v &&& 0x8000003F }) s
        | none =>
          if a = 0x3000 then writeArb false v s
          else if a = 0x3004 then writeArb true v s
          else if a = 0x6414 then
            { s with vx.pairs := Vector.ofFn fun (p : Fin 4) =>
                { s.vx.pairs[p] with fault := (s.vx.pairs[p]).fault && !flagOf v p.val } }
          else if 0x8000 ≤ a && a < 0xC000 then writeLp (asPort ((a - 0x8000) / 0x800)) (a % 0x800) v s
          else if a = 0x22000 then writeLdgCfg v s
          else if a = 0x23018 then { s with red.viewDiff := w1c s.red.viewDiff v.toNat }
          else s

/-! ### The remote-window lock -/

/-- A config set whose boundary fell while the lock was held applies at the first boundary after it (R478). -/
def setAfterLock (s : State) : State :=
  let waits := (s.red.cfgState == .committing || s.red.cfgState == .forcing) && s.red.cfgNext == 0 && s.red.itemAt.isNone
    && s.red.orderWait.isNone
  if waits && decide (s.red.cfgCycle ≤ cycleIdx s) then { s with red.cfgCycle := cycleIdx s + 1 } else s

/-- A word of the MSI-X table of an endpoint; unmasking an entry whose pending bit is set sends its message (R414). -/
def writeMsix (ep : Endpoint) (i : Nat) (v : Word) (s : State) : State :=
  let s1 := modEndpoint ep (fun e => { e with msix := Tab.put i (if i % 4 = 3 then v &&& 1 else v) e.msix }) s
  let vec := i / 4
  if i % 4 = 3 && !flagOf v 0 && (endpoint ep s1).pba.getLsbD vec then
    raiseVecAt ep vec (modEndpoint ep (fun e => { e with pba := e.pba &&& ~~~(pbaBit vec) }) s1)
  else s1

/-- A host's write takes effect through the endpoint it came by. -/
def writeNow (ep : Endpoint) (a : Nat) (lo : Option Word) (v : Word) (s : State) : State :=
  if isMsix a then writeMsix ep ((a - 0x2000) / 4) v s else regWrite ep.link a lo v s

/-- Held writes take effect in arrival order when the lock ends (R477), and a config set that waited for it has its cycle (R478). -/
def applyHeld (l : List HeldWrite) (s : State) : State :=
  setAfterLock (l.foldl (fun t h => writeNow h.ep h.off.toNat h.lo h.v t) { s with rrw.held := [] })

/-- The lock as an event names it: holder, LOCK_ID, milliseconds held. -/
def lockData (s : State) : List Byte := d6 s.rrw.lockKey ++ d2 s.rrw.lockId.toNat ++ d4 ((s.now - s.rrw.grantAt) / 1000000)

/-- A lock ends with the controller that failed, or as the node leaves RUN (R483): BROKEN, its events, the held writes applied. -/
def lockLost (s : State) : State :=
  if !s.rrw.locked then s
  else
    let data := lockData s
    let s1 := { s with rrw.locked := false, rrw.broken := true, rrw.held := [], rrw.cntBroken := s.rrw.cntBroken + 1 }
    raise 0xA022 data (raise 0xA024 data (applyHeld s.rrw.held s1))

end Sys2Proof.Machine
end

