-- ==== Sys2Proof/Machine/Flags.lean ====
section
/-! DEFINITION. The flags the node derives from the rest of its state and other rules read: SOURCE (R497), the banks' energy (R504,
R531), demand (R570), the contacts of OUT0 and OUT1 (R378 to R380), HEALTH (Table 8.5). The block has no processor's flags; the
status registers that software reads are in Views.lean. -/
namespace Sys2Proof.Machine

/-! ### Supply as the rest of the node sees it -/

/-- Rank of a PW-2's state: mains before battery before bank. -/
def pwRank (t : PwState) : Nat := match t with | .mains => 0 | .battery => 1 | _ => 2

/-- SOURCE: the highest-ranked state of a ready PW-2: 0 mains, 1 battery, 2 hold-up bank only (R497). -/
def sourceCode (s : State) : Nat :=
  let r := fun (m : PwNo) => if pwReady m s then pwRank (pw m s).st else 2
  min (r 0) (r 1)

/-- Usable energy of the banks together, J. -/
def bankEnergy (s : State) : Nat :=
  (if pwReady 0 s then s.pwr.a.energy else 0) + (if pwReady 1 s then s.pwr.b.energy else 0)

/-! ### Demand and OUT1 -/

/-- A consist port that is not a watch port has link. -/
def consistLink (s : State) : Bool := s.lp.toList.any fun p => p.role == 1 && !p.watch && p.link

/-- A CAN frame came in within the last second. -/
def canActive (s : State) : Bool :=
  [s.vx.can0, s.vx.can1].any fun c => match c.lastRx with | some t => decide (s.now < t + sec 1) | none => false

/-- The vertex has demand (R570, Table 15.2). -/
def demand (s : State) : Bool :=
  s.slp.holdH1 || s.slp.holdH2 || s.svc.spA.linkUp || s.svc.spB.linkUp
  || (s.slp.demandCfg.getLsbD 0 && sourceCode s == 0) || (s.slp.demandCfg.getLsbD 1 && consistLink s)
  || (s.slp.demandCfg.getLsbD 2 && canActive s)

/-- The OUT1 contact: driven, or held by a contact test; open without its VX-2 (R379, R380). -/
def contact1 (s : State) : Bool :=
  slotReady vxSlot s && (match s.vx.out1Test with | some (_, c) => c | none => s.vx.out1Closed)
/-- The OUT0 contact (R378, R380). -/
def contact0 (s : State) : Bool :=
  slotReady vxSlot s && (match s.vx.out0Test with | some (_, c) => c | none => s.vx.out0Closed)

/-- HEALTH: the conditions of Table 8.5 present now. -/
def healthNow (s : State) : Byte :=
  let off := fun (c : CanChan) => c.st == .busOff || c.busFault
  BitVec.ofNat 8
    (putBit 0 (s.red.pair != .duplex) + putBit 1 (!(pwReady 0 s && pwReady 1 s))
    + putBit 2 (s.bbn.downSpans.any fun d => d.lane == .a) + putBit 3 (s.bbn.downSpans.any fun d => d.lane == .b)
    + putBit 4 (s.vx.pairs.toList.any fun p => p.st == .unknown) + putBit 5 (off s.vx.can0 || off s.vx.can1)
    + putBit 6 (!slotReady 10 s) + putBit 7 (!s.bbn.syncOk))

end Sys2Proof.Machine
end

