-- ==== Sys2Proof/Machine/Neighbours.lean ====
section
/-! DEFINITION. What Rolavo sees at each end (R85 to R88, R97, R105, R138 to R142): the coupling inputs, the keys span sweeps
carry, the conditions of acceptance, apexes and bars; building and sending its messages (R80, R83, R112 to R114). -/
namespace Sys2Proof.Machine

/-! ### Coupling inputs -/

/-- How a pair reads (Table 8.4). -/
inductive PairRead | unknown | active | inactive
  deriving DecidableEq, Repr

/-- A pair's reading: its VALUE while AGREED or DISCREPANT, Unknown otherwise. -/
def pairRead (p : PairNo) (s : State) : PairRead :=
  let x := s.vx.pairs[p]
  match x.st with
  | .agreed | .discrepant => if x.value then .active else .inactive
  | _ => .unknown

/-- CPLn and JMPn of an end. -/
def endPairs (e : End) : PairNo × PairNo := match e with | .e1 => (0, 1) | .e2 => (2, 3)
/-- The end whose pair it is. -/
def pairEnd (p : PairNo) : End := if p.val < 2 then .e1 else .e2

/-- Both pairs read agreed active: CPL_OK, INPUTS_OK. -/
def cplOk (e : End) (s : State) : Bool := pairRead (endPairs e).1 s == .active && pairRead (endPairs e).2 s == .active
/-- A pair reads agreed inactive. -/
def anyInactive (e : End) (s : State) : Bool :=
  pairRead (endPairs e).1 s == .inactive || pairRead (endPairs e).2 s == .inactive
/-- A pair reads Unknown. -/
def anyUnknown (e : End) (s : State) : Bool :=
  pairRead (endPairs e).1 s == .unknown || pairRead (endPairs e).2 s == .unknown

/-! ### Keys at an end -/

/-- The lanes of an end whose port has link and receives span sweeps, with what the sweeps show. -/
def liveSpans (e : End) (s : State) : List (Lane × SweepWatch) :=
  [Lane.a, Lane.b].filterMap fun l => if sweepsOn l e s then (watchOf l e s).map fun w => (l, w) else none

/-- What they show. -/
def liveWatches (e : End) (s : State) : List SweepWatch := (liveSpans e s).map (·.2)

/-- The lanes of an end show different keys (R86). -/
def keyConflict (e : End) (s : State) : Bool :=
  match liveWatches e s with
  | [a, b] => a.key != b.key
  | _ => false

/-- The key that the span sweeps at an end carry, none where they carry none or two (R85, R86). -/
def shownKey (e : End) (s : State) : Option Key :=
  if keyConflict e s then none else (liveWatches e s).head?.map (·.key)

/-- A span on which INTEROP_ALLOW = 0 forbids a neighbour: it carries TTDP HELLO (R142). -/
def helloForbids (l : Lane) (e : End) (s : State) : Bool := carriesHello l e s && !s.rlv.interopAllow

/-- Every condition of R85 but the inputs' own reading holds on some lane for the key shown: its sweeps there carry CPL_OK 1 and
BARRED 0, no HELLO forbids the span (R142), and no disagreement lasts (R88). -/
def spanReady (e : End) (s : State) : Bool :=
  (shownKey e s).isSome && !(endOf e s).disagree
  && (liveSpans e s).any fun x => x.2.cplOk && !x.2.barred && !helloForbids x.1 e s

/-- A condition of R88: sweeps with an input inactive, or inputs active with no span up. -/
def disagreeNow (e : End) (s : State) : Bool :=
  let up := !(liveSpans e s).isEmpty
  (up && anyInactive e s) || (!up && cplOk e s)

/-- When the sweeps of an end last lapsed: 50 ms after the last of them; 0 where none has ever come. -/
def quietSince (e : End) (s : State) : Ns :=
  let t := fun (l : Lane) => match watchOf l e s with | some y => y.last + ms 50 | none => 0
  min s.now (max (t .a) (t .b))

/-- Since when the condition of R88 that holds now has held. -/
def disagreeFrom (e : End) (s : State) : Option Ns :=
  let x := endOf e s
  if !disagreeNow e s then none
  else if (liveSpans e s).isEmpty then some (max (quietSince e s) (x.inputsSince.getD s.now))
  else some (x.disagreeSince.getD s.now)

/-- An acceptance is withheld for an Unknown pair: nothing but that pair stands against it (R87). When it counts as withheld the
spec does not say: here as soon as the spans are ready (DESIGN CHOICE, log entry 68). -/
def withheldNow (e : End) (s : State) : Bool :=
  spanReady e s && anyUnknown e s && !anyInactive e s && (endOf e s).accepted.isNone && (endOf e s).lost.isNone

/-- The timers of R85 and R88 follow their conditions; the 50 ms of R85 count for one key. Different keys write event 0x5005 once
(R86), an acceptance withheld for an Unknown pair event 0x5004 once (R87). -/
def refreshEnd (e : End) (s : State) : State :=
  let x := endOf e s
  let ready := spanReady e s && cplOk e s
  let k := (shownKey e s).getD x.condKey
  let hold := withheldNow e s
  let s1 := modEnd e (fun y =>
    { y with condSince := if ready then some (if y.condKey == k then y.condSince.getD s.now else s.now) else none, condKey := k,
             inputsSince := if cplOk e s then some (y.inputsSince.getD s.now) else none,
             conflict := y.conflict && keyConflict e s, withheld := hold }) s
  let s2 := modEnd e (fun y => { y with disagreeSince := disagreeFrom e s1, disagree := y.disagree && disagreeNow e s1 }) s1
  let s3 := if keyConflict e s && !x.conflict then
      raise 0x5005 (d1 (End.num e) ++ d6 (((liveWatches e s).head?.map (·.key)).getD 0))
        (modEnd e (fun y => { y with conflict := true }) s2)
    else s2
  if hold && !x.withheld then raise 0x5004 (d1 (End.num e) ++ d6 ((shownKey e s).getD 0)) s3 else s3

/-- Both ends. -/
def refreshEnds (s : State) : State := refreshEnd .e2 (refreshEnd .e1 s)

/-! ### Corroboration (R100) -/

/-- A key is heard on a power-line channel. -/
def heardOnPlc (k : Key) (s : State) : Bool :=
  (s.plc[0]).heard.any (fun x => x.1 == k) || (s.plc[1]).heard.any (fun x => x.1 == k)

/-- Within the 2 s after its acceptance a neighbour heard on the power line is corroborated (R100). -/
def corroborateEnd (e : End) (s : State) : State :=
  match (endOf e s).accepted, (endOf e s).corrDue with
  | some k, some _ =>
    if heardOnPlc k s then modEnd e (fun x => { x with corr := true, corrDue := none }) s else s
  | _, _ => s

/-- Both ends. -/
def corroborate (s : State) : State := corroborateEnd .e2 (corroborateEnd .e1 s)

/-! ### Ends and apexes -/

/-- An end has an accepted neighbour and no bar: Rolavo messages cross it. -/
def hasNbr (e : End) (s : State) : Bool := (endOf e s).accepted.isSome && !barredAt e s

/-- An end is an outer end: no accepted neighbour, no range held, none being lost, or its span barred (R92, R97, R105). -/
def outerEnd (e : End) (s : State) : Bool :=
  ((endOf e s).accepted.isNone && (endOf e s).hold.isNone && (endOf e s).lost.isNone) || barredAt e s

/-- The vertex is alone: both its ends are outer ends. -/
def noOne (s : State) : Bool := outerEnd .e1 s && outerEnd .e2 s

/-- The end a train sweep of this apex leaves from: its neighbour's, opposite its outer end. -/
def sweepEnd (s : State) : Option End :=
  if outerEnd .e1 s && hasNbr .e2 s then some .e2 else if outerEnd .e2 s && hasNbr .e1 s then some .e1 else none

/-! ### Entries and messages -/

/-- The speed code of a lane's link at an end, 0 without sweeps (Table 3.3). -/
def spanSpeed (l : Lane) (e : End) (s : State) : BitVec 4 :=
  if !sweepsOn l e s then 0
  else match lanePort l e s with
    | some n => (match (port n s).speed with | .s1000 => 2 | .s100 => 1 | _ => 0)
    | none => 0

/-- This vertex's sweep entry (Table 3.3): `entered` is the end through which the sweep came. -/
def ownEntry (entered : Option End) (endF : BitVec 2) (s : State) : PolyEntry :=
  let up := fun (l : Lane) => match entered with | some e => spanIsUp l e s | none => false
  let sp := fun (l : Lane) => match entered with | some e => spanSpeed l e s | none => 0
  { key := vkey s, ord := 0, held := false, plcOnly := s.rlv.plcOnly, corr := s.rlv.end1.corr || s.rlv.end2.corr, laneB := up .b,
    laneA := up .a, duplex := s.red.pair == .duplex, endF := endF, epoch := s.rlv.epoch, speedB := sp .b, speedA := sp .a,
    interopOk := s.rlv.interopAllow }

/-- END of Table 3.3. -/
def endBits (e : End) : BitVec 2 := BitVec.ofNat 2 (End.num e)

/-- A new message of this vertex, with its number (Table 3.2). -/
def newMsg (b : RlvBody) (s : State) : RlvMsg × State :=
  (⟨vkey s, s.rlv.msgNum, 0, b⟩, { s with rlv.msgNum := s.rlv.msgNum + 1 })

/-- The class M frame of a message (R80). -/
def rlvFrame (m : RlvMsg) (s : State) : NatFrame := nodeFrame spanKey nodeLabel (encodeRlv m) s

/-- A message leaves at an end on each lane up there (R83); none crosses a barred span (R139). -/
def sendRlv (e : End) (m : RlvMsg) (s : State) : State := if hasNbr e s then sendBothLanes e (rlvFrame m s) s else s

/-- A message goes on, one span further. -/
def passOn (e : End) (m : RlvMsg) (s : State) : State := sendRlv e { m with hops := m.hops + 1 } s

/-- FOREIGN_DIST received at an end: 0 where a foreign HELLO is seen, else the smaller one of its sweeps, 63 without any (R146). -/
def distAt (e : End) (s : State) : Nat :=
  if foreignAtEnd e s then 0 else ((liveWatches e s).map fun w => w.foreignDist.toNat).foldl min 63

/-- The smallest FOREIGN_DIST received plus 1, at most 63 (R146). -/
def nextDist (s : State) : Nat := min 63 (min (distAt .e1 s) (distAt .e2 s) + 1)

/-- This vertex's own FOREIGN_DIST: 0 beside a foreign node. -/
def ownDist (s : State) : Nat := if foreignAtEnd .e1 s || foreignAtEnd .e2 s then 0 else nextDist s

/-- FOREIGN_DIST in a sweep that leaves on a span: 0 on one where a foreign HELLO is seen (R146). -/
def sentDist (l : Lane) (e : End) (s : State) : Nat := if foreignOn l e s then 0 else nextDist s

/-- When the last sign of a foreign node on a span lapses: its HELLO, or sweeps that show a distance below 63. -/
def foreignUntil (l : Lane) (e : End) (s : State) : Ns :=
  let x := spanOf l e s
  max (if x.foreign then (match x.helloLast with | some t => t + ms 130 | none => 0) else 0)
    (match x.watch with | some w => (if w.foreignDist.toNat < 62 then w.last + ms 50 else 0) | none => 0)

/-- Since when FOREIGN_DIST has read 63 at the latest: the last sign of a foreign node on any span has lapsed. -/
def foreignLapsed (s : State) : Ns :=
  min s.now (max (max (foreignUntil .a .e1 s) (foreignUntil .b .e1 s)) (max (foreignUntil .a .e2 s) (foreignUntil .b .e2 s)))

/-- FOREIGN_DIST kept up to date, and since when it has read 63 (R147). -/
def refreshDist (s : State) : State :=
  let d := ownDist s
  { s with rlv.foreignDist := BitVec.ofNat 6 d,
           rlv.foreignQuietSince := if d = 63 then some (s.rlv.foreignQuietSince.getD (foreignLapsed s)) else none }

/-- The pin a vertex writes into a train sweep: its own since the last commit, else what the sweep carried, or for an
originator the committed one (R108). -/
def sweepPin (carried : Option (Bool × Key)) (s : State) : Bool × Key :=
  match s.rlv.ownPin, carried with
  | some k, _ => (true, k)
  | none, some c => c
  | none, none => (s.rlv.pinKey != 0, s.rlv.pinKey)

/-- A `sweep` body of this vertex for an end (Table 3.4); a span sweep sets its span's FOREIGN_DIST. -/
def sweepBody (scope : BitVec 2) (e : End) (s : State) : Sweep :=
  { scope := scope, end2 := e == .e2, cplOk := cplOk e s, pinSet := false, barred := false, overflow := false,
    foreignDist := BitVec.ofNat 6 (nextDist s), epoch := s.rlv.epoch, digest := s.rlv.digest, pinKey := 0, entries := [] }

end Sys2Proof.Machine
end

