-- ==== Sys2Proof/Machine/Renumber.lean ====
section
/-! DEFINITION. Renumbering (R105 to R132): its start, the sweep an apex originates, the tally the reference builds, its checks,
hold-open messages, becoming alone, and the switch to a new epoch. -/
namespace Sys2Proof.Machine

/-! ### Frames at a change of polyline -/

/-- EPOCH of a native frame of this vertex becomes the current one (R134). -/
def restampNat (s : State) (f : NatFrame) : NatFrame :=
  if f.src == vkey s then { f with epoch := BitVec.ofNat 16 s.rlv.epoch.toNat } else f

/-- A queued frame built under an older epoch gets the current one, unless it has begun to leave (R134). -/
def restampOut (s : State) (o : OutFrame) : OutFrame :=
  match o.nat with
  | some f =>
    if f.src == vkey s && o.sent = 0 then { o with nat := some (restampNat s f), bytes := encodeNative (restampNat s f) } else o
  | none => o

/-- Queued frames of the power line, stamped anew. -/
def restampPlc (s : State) (b : List Byte) : List Byte :=
  match decodeNatBytes b with
  | some f => natBytes (restampNat s f)
  | none => b

/-- Every queued frame of this vertex is stamped with the current epoch (R134). -/
def restampAll (s : State) : State :=
  { s with
    lp := s.lp.map fun p => { p with queues := p.queues.map fun q => q.map (restampOut s) },
    bbn.uq := s.bbn.uq.map fun x => (x.1, restampOut s x.2),
    rlv.heldFrames := s.rlv.heldFrames.map (restampOut s),
    plc := s.plc.map fun c => { c with
      dataQ := c.dataQ.map fun x => { x with bytes := restampPlc s x.bytes },
      urgents := c.urgents.map fun u => { u with frame := restampNat s u.frame } } }

/-- A frame's destination is one vertex that the polyline does not contain (R136). -/
def goneDst (s : State) (f : NatFrame) : Bool :=
  f.dst != spanKey && f.dst != allKey && f.dst != vkey s && (ordOf f.dst s).isNone

/-- As `goneDst` for a queued frame. -/
def goneOut (s : State) (o : OutFrame) : Bool := match o.nat with | some f => goneDst s f | none => false

/-- Queued frames whose destination has left the polyline complete STALE_EPOCH (R136). -/
def staleOut (s : State) : State :=
  let queued := (s.lp.toList.map fun p => p.queues.toList.flatten).flatten ++ s.bbn.uq.map (·.2)
  let gone := (queued.filter (goneOut s)).map (·.origin)
  let plcGone := (s.plc.toList.map fun c =>
    ((c.dataQ.filter fun x => match decodeNatBytes x.bytes with | some f => goneDst s f | none => false).map (·.origin))
    ++ ((c.urgents.filter fun u => goneDst s u.frame).map fun u => u.origin)).flatten
  let s1 := { s with
    lp := s.lp.map fun p => { p with queues := p.queues.map fun q => q.filter fun o => !goneOut s o },
    bbn.uq := s.bbn.uq.filter fun x => !goneOut s x.2,
    plc := s.plc.map fun c => { c with
      dataQ := c.dataQ.filter fun x => match decodeNatBytes x.bytes with | some f => !goneDst s f | none => true,
      urgents := c.urgents.filter fun u => !goneDst s u.frame } }
  (gone ++ plcGone).foldl (fun t o => completeOrigin o 3 id t) s1

/-- Every frame queued on a lane port, from the highest queue down. -/
def laneQueued (s : State) : List (PortNo × OutFrame) :=
  ((List.finRange 8).map fun n =>
    if (portLane n s).isSome then ((List.finRange 8).reverse.map fun q => (port n s).queues[q].map fun f => (n, f)).flatten else []).flatten

/-- The lane ports with their queues emptied. -/
def emptyLaneQueues (s : State) : State :=
  { s with lp := s.lp.map fun p => if (roleLane p.role).isSome then { p with queues := Vector.replicate 8 [] } else p }

/-- Traffic runs natively again after interop mode: what waits on the lane ports takes its class's queue (R249); a class U frame of
this vertex takes an origination queue, one in transit and a raw frame cannot go on (R25, R162). -/
def toNative (ran : Bool) (s : State) : State :=
  if !ran then s
  else (laneQueued s).foldl (fun t x =>
    match x.2.nat with
    | none => completeOrigin x.2.origin stOk id t
    | some f =>
      if f.cls != 0 then enqueue x.1 x.2 t
      else if f.src == vkey t then { t with bbn.uq := t.bbn.uq ++ [(if f.lane then .b else .a, x.2)] }
      else t) (emptyLaneQueues s)

/-! ### Event 0x5010 and becoming alone -/

/-- COUNT of RLV_STATUS: the vertices of the polyline, 1 for a vertex alone. -/
def polyCount (s : State) : Nat := max 1 s.rlv.poly.length

/-- Event 0x5010, ahead of the others (R132, R423), its count, and the time mark behind it (R676); the store room's first
occurrences start anew (R674). -/
def epochEvent (changed : Bool) (s : State) : State :=
  let data := d4 s.rlv.epoch.toNat ++ d4 s.rlv.digest.toNat ++ d1 s.rlv.ord ++ d1 s.rlv.refEnd.toNat ++ d4 (polyCount s)
    ++ d6 s.rlv.refKey ++ d1 (bit changed)
  let s1 := { s with rlv.cntCommit := s.rlv.cntCommit + 1, srm.seen := [] }
  timeMark 2 0 (raiseRank 3 0x5010 data s1)

/-- The grandmaster is the reference apex (R186): a new one writes event 0x4031; a vertex that gets one may step at its first
Sync (R188), and waits at most 3 s for one (R191). -/
def newMaster (old : Key) (s : State) : State :=
  let mine := s.rlv.refKey == vkey s
  let s1 := { s with bbn.gm := mine, bbn.syncOk := mine || s.bbn.syncOk, bbn.bmca := none,
                     bbn.stepDue := if mine then none else s.bbn.stepDue,
                     bbn.lastSync := if mine then none else some (s.bbn.lastSync.getD s.now) }
  if s.rlv.refKey == old then s1
  else raise 0x4031 (d6 s.rlv.refKey) { s1 with bbn.firstSync := s1.bbn.firstSync || !mine }

/-- A vertex with no neighbour and no hold is alone: ordinal 1, the digest of its own key, its last epoch (R111); a bar is lifted
(R140), no lane runs at 100 Mbit/s (R156). The pin of a vertex that has left is dropped (R108). -/
def becomeAlone (s : State) : State :=
  let key := vkey s
  let dig := digestOf [key]
  let old := s.rlv.refKey
  let changed := s.rlv.digest != dig
  let moved := s.rlv.ord != 1 || s.rlv.refEnd != 0
  let keep := fun (k : Key) => if k == key then k else 0
  let s1 := { s with
    rlv.st := .alone, rlv.digest := dig, rlv.refKey := key, rlv.ord := 1, rlv.refEnd := 0, rlv.estimated := false,
    rlv.pinned := false, rlv.barLast := false, rlv.plcOnly := false, rlv.poly := [], rlv.pinKey := keep s.rlv.pinKey,
    rlv.pending := none, rlv.commitAt := none, rlv.backoffAt := none, rlv.gatherDue := none, rlv.pendingDue := none,
    rlv.gatherAtSwitch := false, rlv.announced := [], rlv.end1.epochDiffs := 0, rlv.end2.epochDiffs := 0,
    rlv.end1.barredHere := false, rlv.end2.barredHere := false, rlv.etb.runs := false, rlv.etb.valid := false,
    bbn.downSpans := [], bbn.noticesA := [], bbn.noticesB := [], bbn.speedA := 0, bbn.speedB := 0, bbn.restoredA := false,
    bbn.restoredB := false, bbn.cycle1ms := false,
    bbn.cycleChangeAt := none }
  let s2 := newMaster old (if changed then epochEvent moved s1 else s1)
  releaseHeld (staleOut (toNative s.rlv.etb.runs s2))

/-! ### Starting a renumbering -/

/-- Some lane runs at 100 Mbit/s: both times of R131 double. -/
def slowTrain (s : State) : Bool := s.bbn.speedA == 1 || s.bbn.speedB == 1
/-- The back-off of R124. -/
def backoffMs (s : State) : Nat := 5 + (vkey s).toNat % 16

/-- An apex originates a train sweep from its neighbour end, at most one per millisecond; a later request within it waits for its
end (R120). -/
def originateSweep (s : State) : State :=
  match sweepEnd s with
  | none => s
  | some e =>
    match s.rlv.lastSweepAt with
    | some t =>
      if s.now < t + ms 1 then { s with rlv.deferredSweepAt := some (t + ms 1) } else send e s
    | none => send e s
where
  /-- The sweep itself: its own entry, BARRED for its outer end, the known pin. -/
  send (e : End) (s : State) : State :=
    let outer := End.other e
    let pin := sweepPin none s
    let body : Sweep := { sweepBody 2 e s with pinSet := pin.1, pinKey := pin.2, barred := barredAt outer s,
                                               entries := [ownEntry none (endBits outer) s] }
    let m := newMsg (.sweep body) s
    sendRlv e m.1 { m.2 with rlv.lastSweepAt := some s.now, rlv.deferredSweepAt := none }

/-- A trigger leaves an end (R119). -/
def sendTrigger (e : End) (s : State) : State :=
  if hasNbr e s then
    let m := newMsg (.sweep (sweepBody 1 e s)) s
    sendRlv e m.1 m.2
  else s

/-- GATHER, waiting for a tally (R131). -/
def enterGather (s : State) : State :=
  { s with rlv.st := .gather, rlv.gatherDue := some (s.now + ms (if slowTrain s then 400 else 200)) }

/-- What a renumbering sends: a trigger from each end with a neighbour and, at an apex, a train sweep (R119); in PENDING the state
waits for the switch (R131). -/
def sendRenumber (s : State) : State :=
  let s1 := originateSweep (sendTrigger .e2 (sendTrigger .e1 s))
  if s1.rlv.st == .pending then { s1 with rlv.gatherAtSwitch := true } else enterGather s1

/-- A vertex without neighbours is alone; where that lifted a bar it has a neighbour again, and a renumbering starts (R111, R140). -/
def goAlone (s : State) : State :=
  let t := becomeAlone s
  if noOne t then t else sendRenumber t

/-- A renumbering starts (R119, Table 3.7); a vertex without neighbours is alone, but for one in PENDING, which keeps its tally
(R131). Interop mode has none. -/
def renumber (s : State) : State :=
  if !isNative s then s
  else if noOne s && !s.rlv.plcOnly && s.rlv.st != .pending then (if s.rlv.st == .alone then s else goAlone s)
  else sendRenumber s

/-! ### Hold-open -/

/-- Remaining ticks of a hold. -/
def holdRemain (h : Hold) (s : State) : Nat := nsTicks (h.expireAt - s.now)

/-- `hold_open` for a range, towards the other end (R93). -/
def sendHold (e : End) (action : BitVec 2) (first last remain : Nat) (s : State) : State :=
  let b : HoldOpen := ⟨action, BitVec.ofNat 8 first, BitVec.ofNat 8 last, s.rlv.epoch, s.rlv.digest, BitVec.ofNat 16 remain⟩
  let m := newMsg (.holdOpen b) s
  sendRlv (End.other e) m.1 m.2

/-- Data of events 0x5020 to 0x5022. -/
def holdData (e : End) (first last remain : Nat) : List Byte := d1 (End.num e) ++ d1 first ++ d1 last ++ d4 remain

/-- The hold at an end shrinks, or ends where `new` is none: `hold_open` and event 0x5021 (R94, R96); frames kept for vertices it no
longer holds go on (R98). -/
def shrinkHold (e : End) (new : Option Hold) (s : State) : State :=
  match (endOf e s).hold, new with
  | some _, some h =>
    let s1 := modEnd e (fun x => { x with hold := some h }) s
    releaseHeld (raise 0x5021 (holdData e h.first h.last (holdRemain h s)) (sendHold e 0 h.first h.last (holdRemain h s) s1))
  | some o, none =>
    let s1 := modEnd e (fun x => { x with hold := none }) s
    releaseHeld (raise 0x5021 (holdData e o.first o.last 0) (sendHold e 1 o.first o.last 0 s1))
  | none, _ => s

/-- A pair at an end reads agreed inactive while the end holds a range: released, removed, renumbered (R91). -/
def inactiveEndsHold (e : End) (s : State) : State :=
  if (endOf e s).hold.isSome && anyInactive e s then
    let nearest := match (endOf e s).hold with
      | some h => (if h.first < s.rlv.ord then h.last else h.first)
      | none => 0
    let key := ((s.rlv.poly.find? fun x => x.ord.toNat == nearest).map (·.key)).getD 0
    let s1 := shrinkHold e none s
    renumber (raise 0x5002 (d1 (End.num e) ++ d6 key) s1)
  else s

/-! ### The tally -/

/-- a is greater than b in serial arithmetic of 32 bits (R109). -/
def serialGt (a b : Word) : Bool := a != b && decide ((a - b).toNat < 2 ^ 31)

/-- E_MAX over entries in ordinal order (R109). -/
def epochMax (own : Word) (es : List PolyEntry) : Word := es.foldl (fun m e => if serialGt e.epoch m then e.epoch else m) own

/-- The first number from `n` on that no entry carries, tried `fuel` times (R109). -/
def freeEpoch : Nat → Word → List PolyEntry → Word
  | 0, n, _ => n
  | k + 1, n, es => if es.any fun e => e.epoch == n then freeEpoch k (n + 1) es else n

/-- NEW_EPOCH_NUM (R109). -/
def newEpochOf (own : Word) (es : List PolyEntry) : Word := freeEpoch 64 (epochMax own es + 1) es

/-- LANE and SPEED of a span belong to the entry behind it; on reversal each entry takes those of the one before it, held entries
none (R121, Table 3.3). `prev` is the entry whose fields the next not-held entry takes. -/
def shiftSpans (prev : PolyEntry) : List PolyEntry → List PolyEntry
  | [] => []
  | e :: rest =>
    if e.held then { e with laneA := false, laneB := false, speedA := 0, speedB := 0 } :: shiftSpans prev rest
    else { e with laneA := prev.laneA, laneB := prev.laneB, speedA := prev.speedA, speedB := prev.speedB } :: shiftSpans e rest

/-- The other of two ends, as END bits. -/
def flipEnd (b : BitVec 2) : BitVec 2 := match b.toNat with | 1 => 2 | 2 => 1 | _ => b

/-- The key of the first entry that is not held. -/
def firstLive : List PolyEntry → Option Key
  | [] => none
  | e :: rest => if e.held then firstLive rest else some e.key

/-- REF_END of each entry of a tally (R107, R123): opposite the end through which the sweep entered; for a held entry the one of
the committed polyline, turned where the vertices beside it changed their order, unknown where this vertex does not know it.
`before` is the entry placed last that is not held. -/
def refEnds (s : State) (before : Key) : List PolyEntry → List PolyEntry
  | [] => []
  | e :: rest =>
    if !e.held then { e with endF := flipEnd e.endF } :: refEnds s e.key rest
    else
      let known := s.rlv.poly.find? fun x => x.key == e.key
      let order := match ordOf before s, (firstLive rest).bind fun k => ordOf k s with
        | some a, some b => some (decide (a < b))
        | _, _ => none
      let f : BitVec 2 := match known, order with
        | some x, some true => x.endF
        | some x, some false => flipEnd x.endF
        | _, _ => 3
      { e with endF := f } :: refEnds s before rest

/-- Ordinals from `n` on. -/
def numberFrom : Nat → List PolyEntry → List PolyEntry
  | _, [] => []
  | n, e :: rest => { e with ord := BitVec.ofNat 8 n } :: numberFrom (n + 1) rest

/-- The entries of the tally a reference apex builds from a sweep that reached it at end `e` (R106, R107, R123): itself, then the
sweep's entries backwards. -/
def tallyEntries (e : End) (sweep : List PolyEntry) (s : State) : List PolyEntry :=
  let self := ownEntry (some e) (endBits (End.other e)) s
  let others := (refEnds s (vkey s) (shiftSpans self sweep.reverse)).take 62
  numberFrom 1 ({ self with laneA := false, laneB := false, speedA := 0, speedB := 0 } :: others)

/-- The held vertices between this one and the vertex it has rejoined at an end, in the order a sweep entering there meets them:
END unknown, no lane up, the rest from the committed polyline (R121). -/
def heldBetween (e : End) (s : State) : List PolyEntry :=
  match (endOf e s).hold with
  | some h =>
    if h.rejoined then
      let es := (s.rlv.poly.filter fun x => decide (h.first ≤ x.ord.toNat) && decide (x.ord.toNat ≤ h.last)).map fun x =>
        { x with ord := 0, held := true, endF := 3, laneA := false, laneB := false }
      if s.rlv.ord < h.first then es.reverse else es
    else []
  | none => []

/-- Which apex is the reference (R105): true for this vertex, and whether the pin chose. -/
def chooseReference (pin origin : Key) (ownBarred originBarred : Bool) (s : State) : Bool × Bool :=
  if pin != 0 && pin == vkey s then (true, true)
  else if pin != 0 && pin == origin then (false, true)
  else if ownBarred && !originBarred then (false, false)
  else if originBarred && !ownBarred then (true, false)
  else (decide ((vkey s).toNat < origin.toNat), false)

/-- The tally preferred of two (R130): the greater epoch number, else the lower reference key. Of two that are equal in both the spec
names none; here the newer one (DESIGN CHOICE, log entry 68). -/
def prefersNew (old new : Tally) : Bool :=
  if serialGt new.newEpoch old.newEpoch then true
  else if serialGt old.newEpoch new.newEpoch then false
  else decide (new.refKey.toNat ≤ old.refKey.toNat)

/-- A tally is held as pending (R125); a commit of one it replaces no longer counts (R127), a back-off of R124 runs on. -/
def holdPending (t : Tally) (s : State) : State :=
  { s with rlv.st := .pending, rlv.pending := some t, rlv.gatherDue := none, rlv.commitAt := none,
           rlv.pendingDue := some (s.now + ms (if slowTrain s then 300 else 150)) }

/-- A tally is kept, where none or a less preferred one is pending; second: kept. -/
def keepTally (t : Tally) (s : State) : State × Bool :=
  match s.rlv.pending with
  | some old => if prefersNew old t then (holdPending t s, true) else (s, false)
  | none => (holdPending t s, true)

/-- A train sweep complete at this apex, through end `e`: as reference it sends a tally, else it discards the sweep (R122,
R123). -/
def completeSweep (e : End) (m : RlvMsg) (w : Sweep) (s : State) : State :=
  let sweep := w.entries ++ heldBetween e s
  let pin := (sweepPin (some (w.pinSet, w.pinKey)) s)
  let pinKey : Key := if pin.1 then pin.2 else 0
  let ref := chooseReference pinKey m.origin (barredAt (End.other e) s) w.barred s
  if !ref.1 then s
  else
    let es := tallyEntries e sweep s
    let known := es.any fun x => x.key == pinKey
    let t : Tally :=
      { newEpoch := newEpochOf s.rlv.epoch es, newDigest := digestOf (es.map (·.key)), refKey := vkey s,
        pinKey := if known then pinKey else 0, nak := false, pinApplied := ref.2, replay := false, estimated := false,
        barLast := w.overflow || decide (62 < sweep.length), nakKey := 0, nakReason := 0, entries := es }
    let k := keepTally t s
    if k.2 then
      let msg := newMsg (.tally t) k.1
      sendRlv e msg.1 msg.2
    else k.1

/-! ### Checking a tally (R124) -/

/-- A key stands twice. -/
def hasTwice : List PolyEntry → Bool
  | [] => false
  | e :: rest => rest.any (fun x => x.key == e.key) || hasTwice rest

/-- The entries on one side of an entry, nearest first: before it or behind it. -/
def sides (k : Key) : List PolyEntry → List PolyEntry → Option (List PolyEntry × List PolyEntry)
  | _, [] => none
  | acc, e :: rest => if e.key == k then some (acc, rest) else sides k (e :: acc) rest

/-- Keys of a held range from this vertex outwards. -/
def heldKeys (h : Hold) (s : State) : List Key :=
  let ks := (s.rlv.poly.filter fun x => decide (h.first ≤ x.ord.toNat) && decide (x.ord.toNat ≤ h.last)).map (·.key)
  if s.rlv.ord < h.first then ks else ks.reverse

/-- Ordinals of the committed polyline beyond this vertex at an end: the first and the last (R90). -/
def beyondRange (e : End) (s : State) : Option (Nat × Nat) :=
  if s.rlv.refEnd.toNat ≠ 1 && s.rlv.refEnd.toNat ≠ 2 then none
  else if End.num e == s.rlv.refEnd.toNat then (if s.rlv.ord ≤ 1 then none else some (1, s.rlv.ord - 1))
  else if s.rlv.poly.length ≤ s.rlv.ord then none else some (s.rlv.ord + 1, s.rlv.poly.length)

/-- What the loss of a neighbour takes: the range beyond it, none for a key that no committed polyline contains at that end (R90,
R735). -/
def lostRange (e : End) (k : Key) (s : State) : Option (Nat × Nat) :=
  if (match ordOf k s with | some o => endTowards o s == some e | none => false) then beyondRange e s else none

/-- What the node holds at an end: a hold, or from a loss to its decision every vertex beyond it (R92). -/
def heldAtEnd (e : End) (s : State) : Option Hold :=
  match (endOf e s).lost with
  | some (k, t) => (lostRange e k s).map fun r => ⟨r.1, r.2, t, false⟩
  | none => (endOf e s).hold

/-- What the entries outwards from this one at an end are refused for: reason 0x01 or 0x04, none when they match (R124). An
estimated tally joins segments that no span joins (R102); the last entry of a BAR_LAST tally bars what lies beyond it (R139). -/
def sideRefused (e : End) (t : Tally) (out : List PolyEntry) (s : State) : Option Nat :=
  let x := endOf e s
  let after := fun (rest : List PolyEntry) => match x.accepted with
    | some k => if (rest.head?.map (·.key)) == some k then none else some 1
    | none => none
  if barredAt e s || (t.barLast && out.isEmpty && (t.entries.getLast?.map (·.key)) == some (vkey s)) then none
  else match heldAtEnd e s with
    | some h =>
      let ks := heldKeys h s
      let got := out.take ks.length
      if got.map (·.key) != ks || !(got.all (·.held)) then some 4
      else if h.rejoined then after (out.drop ks.length) else none
    | none =>
      match x.accepted with
      | some _ => after out
      | none => if x.lost.isSome || t.estimated || out.isEmpty then none else some 1

/-- The first failed check of R124: `e` is the end that faces the tally's reference. -/
def tallyRefused (e : End) (t : Tally) (s : State) : Option Nat :=
  if hasTwice t.entries then some 3
  else match sides (vkey s) [] t.entries with
    | none => some 1
    | some (lower, upper) =>
      match sideRefused e t lower s, sideRefused (End.other e) t upper s with
      | some r, _ => some r
      | none, some r => some r
      | none, none =>
        let own := t.entries.find? fun x => x.key == vkey s
        if (own.map (·.epoch)) != some s.rlv.epoch || t.newEpoch == s.rlv.epoch then some 2 else none

/-! ### The switch -/

/-- The lowest speed other than down that the entries report for a lane, 0 where none reports one (R157). -/
def lowestSpeed (l : Lane) (es : List PolyEntry) : Nat :=
  (es.map fun e => (match l with | .a => e.speedA | .b => e.speedB).toNat).foldl
    (fun m v => if v = 0 then m else if m = 0 then v else min m v) 0

/-- Spans a tally reports down: between entries next to each other but for held ones, which the two vertices beside them have rejoined
by one span per lane (R734). `prev` is the last entry that is not held, 0 at the first. -/
def tallyDown (prev : Nat) : List PolyEntry → List DownSpan
  | [] => []
  | e :: rest =>
    if e.held then tallyDown prev rest
    else
      let o := e.ord.toNat
      let d := fun (l : Lane) (up : Bool) => if prev = 0 || up then [] else [(⟨l, prev, o⟩ : DownSpan)]
      d .a e.laneA ++ d .b e.laneB ++ tallyDown o rest

/-- Runs of held ordinals, other than this vertex's own, as ranges kept open by others (R113). -/
def heldRuns (now : Ns) (self : Nat) : List PolyEntry → List (Key × Nat × Nat × Ns)
  | [] => []
  | e :: rest =>
    let more := heldRuns now self rest
    let o := e.ord.toNat
    if !e.held || o = self then more
    else match more with
      | (k, f, l, t) :: others => if f = o + 1 then (k, o, l, t) :: others else (0, o, o, now + ticksNs 10240) :: more
      | [] => [(0, o, o, now + ticksNs 10240)]

/-- A hold carried into a new polyline: the held keys that are still in it, under their new ordinals (R96). -/
def carryHold (e : End) (keys : List Key) (s : State) : State :=
  match (endOf e s).hold with
  | none => s
  | some h =>
    let os := keys.filterMap fun k => ordOf k s
    match os with
    | [] => shrinkHold e none s
    | o :: rest =>
      let new : Hold := { h with first := rest.foldl min o, last := rest.foldl max o }
      if os.length = keys.length then modEnd e (fun x => { x with hold := some new }) s else shrinkHold e (some new) s

/-- The lanes run at the speeds a committed tally reports: a fall restricts the ports of the lane (R157, R213); a change of a
lane's speed or of the cycle length writes event 0x4040; the cycle changes at a 1,000 µs boundary (R156, R158). -/
def laneSpeeds (es : List PolyEntry) (s : State) : State :=
  let a := lowestSpeed .a es
  let b := lowestSpeed .b es
  let slow := a = 1 || b = 1
  let s1 := { s with bbn.speedA := BitVec.ofNat 2 a, bbn.speedB := BitVec.ofNat 2 b, bbn.restoredA := false,
                     bbn.restoredB := false }
  let s2 :=
    if slow && !s.bbn.cycle1ms then
      if ttime s % 1000000 < 500000 then { s1 with bbn.cycle1ms := true, bbn.cycleChangeAt := none }
      else { s1 with bbn.cycleChangeAt := some ((ttime s / 1000000 + 1) * 1000000) }
    else if !slow then { s1 with bbn.cycle1ms := false, bbn.cycleChangeAt := none }
    else s1
  let note := fun (l : Lane) (old new : Nat) (t : State) =>
    let t1 := if new = 1 then
        { t with lp := t.lp.map fun p => match roleLane p.role with
            | some (x, _) => if x == l then { p with restricted := true } else p
            | none => p }
      else t
    let cyc := s.bbn.cycle1ms != slow
    if !((old ≠ 0 && new ≠ 0 && old ≠ new) || (cyc && (new = 1 || (!slow && l == .a && new ≠ 0)))) then t1
    else raise 0x4040 (d1 (Lane.num l) ++ d1 (if new = 2 then 3 else 2) ++ d1 (bit slow)) t1
  retargetAll (note .b s.bbn.speedB.toNat b (note .a s.bbn.speedA.toNat a s2))

/-- Pin events at a switch: applied, or ignored because the pinned vertex is no apex (R108). -/
def pinEvents (oldPin : Key) (oldApplied : Bool) (t : Tally) (s : State) : State :=
  if t.pinKey == 0 || (oldPin == t.pinKey && oldApplied == t.pinApplied) then s
  else raise (if t.pinApplied then 0x5031 else 0x5032) (d6 t.pinKey) s

/-- The last of 63 vertices bars its span beyond; a bar ends when the polyline holds fewer (R139, R140). -/
def barring (t : Tally) (s : State) : State :=
  let beyond : End := if s.rlv.refEnd == 1 then .e2 else .e1
  let mine := t.barLast && s.rlv.ord == t.entries.length
  let was := s.rlv.end1.barredHere || s.rlv.end2.barredHere
  if mine then
    if (endOf beyond s).barredHere then s
    else raise 0x5030 (d1 (End.num beyond) ++ d6 ((endOf beyond s).accepted.getD 0))
      (modEnd beyond (fun x => { x with barredHere := true }) s)
  else if was && decide (t.entries.length < 63) then
    renumber { s with rlv.end1.barredHere := false, rlv.end2.barredHere := false }
  else s

/-- The vertex runs under a tally: the switch of R127, or the adoption of R95. Frames and class U follow the new lane map (R160, R182);
notices of the old numbering are dropped, and spans of this vertex that have failed since are declared under the new one (R180,
R181). -/
def install (t : Tally) (s : State) : State :=
  let own := (t.entries.find? fun x => x.key == vkey s).getD (ownEntry none 3 s)
  let held := fun (e : End) => match (endOf e s).hold with | some h => heldKeys h s | none => []
  let k1 := held .e1
  let k2 := held .e2
  let moved := s.rlv.ord != own.ord.toNat || s.rlv.refEnd != own.endF
  let s1 := { s with
    rlv.st := .settled, rlv.epoch := t.newEpoch, rlv.digest := t.newDigest, rlv.refKey := t.refKey, rlv.ord := own.ord.toNat,
    rlv.refEnd := own.endF, rlv.estimated := t.estimated, rlv.pinned := t.pinApplied, rlv.barLast := t.barLast,
    rlv.poly := t.entries, rlv.pinKey := t.pinKey, rlv.ownPin := none, rlv.pending := none, rlv.commitAt := none,
    rlv.pendingDue := none, rlv.gatherDue := none, rlv.gatherAtSwitch := false, rlv.etb.runs := false, rlv.etb.valid := false,
    rlv.graceUntil := some (s.now + ms 100), rlv.announced := heldRuns s.now own.ord.toNat t.entries,
    rlv.end1.epochDiffs := 0, rlv.end2.epochDiffs := 0, rlv.plcOnly := own.plcOnly,
    bbn.quietCycle := some (cycleIdx s * cycleNs s), bbn.downSpans := tallyDown 0 t.entries,
    bbn.noticesA := [], bbn.noticesB := [] }
  let s2 := newMaster s.rlv.refKey (epochEvent moved s1)
  let s3 := carryHold .e2 k2 (carryHold .e1 k1 s2)
  let s4 := laneSpeeds t.entries (pinEvents s.rlv.pinKey s.rlv.pinned t s3)
  let s5 := releaseHeld (shiftAll (staleOut (restampAll (toNative s.rlv.etb.runs s4))))
  let s6 := recheckSpan false .e2 (recheckSpan false .e1 s5)
  let s7 := if !s.rlv.gatherAtSwitch then s6 else if noOne s6 && !s6.rlv.plcOnly then goAlone s6 else enterGather s6
  if s7.rlv.st == .alone then s7 else barring t s7

/-- The full cycle index that the low 32 bits of CYCLE name: the nearest to the present one (R116). -/
def fullCycle (low : Word) (s : State) : Int :=
  let cur : Nat := cycleIdx s
  let d : Nat := (low.toNat + 2 ^ 32 - cur % 2 ^ 32) % 2 ^ 32
  if d < 2 ^ 31 then (cur : Int) + (d : Int) else (cur : Int) + (d : Int) - (2 ^ 32 : Int)

/-- A commit that matches the pending tally sets the switch; after its cycle has begun, the next boundary and event 0x5012
(R127, R129). -/
def takeCommit (c : Commit) (s : State) : State :=
  match s.rlv.pending with
  | some t =>
    if t.newEpoch != c.newEpoch || t.newDigest != c.newDigest || s.rlv.commitAt.isSome then s
    else
      let full := fullCycle c.cycle s
      if (cycleIdx s : Int) < full then { s with rlv.commitAt := some full.toNat, rlv.pendingDue := none }
      else raise 0x5012 (d4 c.cycle.toNat) { s with rlv.commitAt := some (cycleIdx s + 1), rlv.pendingDue := none }
  | none => s

/-- The far apex answers an unrefused tally that it keeps with a commit through the end it came from (R126). -/
def answerCommit (e : End) (t : Tally) (s : State) : State :=
  let c : Commit := ⟨t.newEpoch, t.newDigest, word (cycleIdx s + t.entries.length + 1)⟩
  let m := newMsg (.commit c) s
  takeCommit c (sendRlv e m.1 m.2)

end Sys2Proof.Machine
end

