-- ==== Sys2Proof/Machine/Rolavo.lean ====
section
/-! DEFINITION. Rolavo at work (chapter 3): messages received, neighbours accepted, lost, held and removed, joining over the power
line, the timers of a renumbering, interop mode, the two management messages; the meanings of the chapter's commands. -/
namespace Sys2Proof.Machine

/-! ### Messages received -/

/-- This vertex's own sweeps arrive on a span: event 0x5013, at most once per minute and span (R86). -/
def ownSweep (l : Lane) (e : End) (s : State) : State :=
  raiseSpaced (spanOf l e s).ringEvAt (sec 60) (fun t => modSpan l e (fun x => { x with ringEvAt := some t.now }) t)
    0x5013 (d1 (End.num e)) s

/-- A trigger or train sweep that has gone in a ring is dropped: event 0x5013 (R121). -/
def ringDrop (e : End) (s : State) : State := raise 0x5013 (d1 (End.num e)) s

/-- A malformed message on a span: event 0x5015, at most once per second and span (R118). -/
def badRlv (l : Lane) (e : End) (s : State) : State :=
  raiseSpaced (spanOf l e s).badEvAt (sec 1) (fun t => modSpan l e (fun x => { x with badEvAt := some t.now }) t)
    0x5015 (d1 (End.num e)) s

/-- A malformed message over the power line, which has no end: event 0x5015 with end 0, at most once per second and channel (DESIGN
CHOICE, log entry 68). -/
def badRlvPlc (c : Chan) (s : State) : State :=
  raiseSpaced (plc c s).badRlvAt (sec 1) (fun t => modPlc c (fun x => { x with badRlvAt := some t.now }) t) 0x5015 (d1 0) s

/-- A copy heard within the last second; otherwise it is noted (R83). -/
def firstCopy (m : RlvMsg) (s : State) : Bool × State :=
  let t : BitVec 4 := BitVec.ofNat 4 (rlvType m.body)
  let recent := s.rlv.seen.filter fun x => decide (s.now < x.2.2.2 + sec 1)
  if recent.any fun x => x.1 == t && x.2.1 == m.origin && x.2.2.1 == m.msgNum then (false, { s with rlv.seen := recent })
  else (true, { s with rlv.seen := recent ++ [(t, m.origin, m.msgNum, s.now)] })

/-- The watch a span sweep leaves. -/
def newWatch (m : RlvMsg) (w : Sweep) (s : State) : SweepWatch :=
  ⟨m.origin, w.cplOk, w.barred, w.epoch, w.foreignDist, s.now⟩

/-- An accepted neighbour on another epoch: at the third such span sweep in SETTLED, event 0x5016 and a renumbering (R138). -/
def epochDiffer (e : End) (m : RlvMsg) (w : Sweep) (s : State) : State :=
  let x := endOf e s
  if s.rlv.st != .settled || x.accepted != some m.origin then s
  else if w.epoch == s.rlv.epoch then modEnd e (fun y => { y with epochDiffs := 0 }) s
  else if x.epochDiffs + 1 < 3 then modEnd e (fun y => { y with epochDiffs := y.epochDiffs + 1 }) s
  else renumber (raise 0x5016 (d1 (End.num e) ++ d4 w.epoch.toNat) (modEnd e (fun y => { y with epochDiffs := 0 }) s))

/-- What a span sweep shows is kept; native, it also ends the wait of R141, and the span's HELLO is no foreign node's. -/
def noteSweep (l : Lane) (e : End) (m : RlvMsg) (w : Sweep) (s : State) : State :=
  let mine := (endOf e s).accepted == some m.origin
  modSpan l e (fun x => { x with watch := some (newWatch m w s), nbrAt := if mine then some s.now else x.nbrAt,
                                 hello := none, foreign := false }) s

/-- A span sweep on a lane port (R82, R85, R86, R89, R138 to R141). -/
def spanSweepIn (l : Lane) (e : End) (n : PortNo) (m : RlvMsg) (w : Sweep) (s : State) : State :=
  if m.origin == vkey s then ownSweep l e s
  else
    let s0 := refreshEnd e s
    let old := watchOf l e s0
    let gap := !fresh old s0 || (old.map (·.key)) != some m.origin
    let wasBarred := match old with | some x => x.barred | none => false
    let s1 := modPort n (fun p => { p with sweepSince := if gap then some s.now else some (p.sweepSince.getD s.now) })
      (noteSweep l e m w s0)
    let s3 := refreshDist (refreshEnd e s1)
    let s4 := epochDiffer e m w s3
    if wasBarred && !w.barred && (endOf e s4).accepted.isSome then renumber s4 else s4

/-- A message may be acted on at an end: from its accepted neighbour, over no bar (R97, R139). -/
def fromNeighbour (e : End) (src : Key) (s : State) : Bool := hasNbr e s && (endOf e s).accepted == some src

/-- A trigger goes on to the other end; an apex originates a train sweep (R119 to R121). -/
def triggerIn (e : End) (m : RlvMsg) (s : State) : State :=
  if m.origin == vkey s || 63 < m.hops.toNat + 1 then ringDrop e s
  else if outerEnd (End.other e) s then originateSweep s
  else passOn (End.other e) m s

/-- A train sweep goes on with this vertex's entry, or is complete at an apex (R121, R122). -/
def sweepIn (e : End) (m : RlvMsg) (w : Sweep) (s : State) : State :=
  if m.origin == vkey s || 63 < m.hops.toNat + 1 then ringDrop e s
  else if outerEnd (End.other e) s then completeSweep e m w s
  else
    let o := End.other e
    let es := w.entries ++ heldBetween e s ++ [ownEntry (some e) (endBits e) s]
    let pin := sweepPin (some (w.pinSet, w.pinKey)) s
    let body : Sweep :=
      { sweepBody 2 o s with pinSet := pin.1, pinKey := pin.2, barred := w.barred,
                             overflow := w.overflow || decide (63 < es.length), entries := lastN 63 es }
    passOn o { m with body := .sweep body } s

/-- A tally that another pending one is preferred to is neither kept nor passed on (R130). -/
def losesTo (t : Tally) (s : State) : Bool := match s.rlv.pending with | some old => !prefersNew old t | none => false

/-- A refused tally with its first refusal (R124). -/
def refusedBy (why : Nat) (t : Tally) (s : State) : Tally :=
  if t.nak then t else { t with nak := true, nakKey := vkey s, nakReason := BitVec.ofNat 8 why }

/-- A refusal: event 0x5014 for a second entry under this vertex's key, event 0x5011, its count and the back-off (R124, Table 3.10). -/
def refuseTally (why : Nat) (t : Tally) (s : State) : State :=
  let dup := (t.entries.filter fun x => x.key == vkey s).length
  let s1 := if why = 3 && 2 ≤ dup then raise 0x5014 (d6 (vkey s)) s else s
  let s2 := raise 0x5011 (d1 why ++ d6 (vkey s)) { s1 with rlv.cntAbandon := s1.rlv.cntAbandon + 1 }
  { s2 with rlv.backoffAt := some (s2.now + ms (backoffMs s2)) }

/-- The end of a tally that faces its reference is the one it reached this vertex by, `e`. A tally is checked, kept or refused, passed
on, and answered by the far apex, its last entry (R124 to R126, R130). -/
def tallyIn (e : End) (m : RlvMsg) (t : Tally) (s : State) : State :=
  let o := End.other e
  let far := outerEnd o s || (t.entries.getLast?.map (·.key)) == some (vkey s)
  let pass := fun (x : Tally) (u : State) => if far then u else passOn o { m with body := .tally x } u
  if losesTo t s then s
  else match tallyRefused e t s with
    | some why => pass (refusedBy why t s) (refuseTally why t s)
    | none =>
      if t.nak then pass t s
      else if far then answerCommit e t (holdPending t s)
      else pass t (holdPending t s)

/-- A REPLAY tally (R95): adopted where it names this vertex HELD and this vertex's epoch is not greater; a vertex already at that
epoch and digest has nothing to adopt. -/
def replayIn (t : Tally) (s : State) : State :=
  let named := t.entries.any fun x => x.key == vkey s && x.held
  if named && !serialGt s.rlv.epoch t.newEpoch then
    if s.rlv.epoch == t.newEpoch && s.rlv.digest == t.newDigest then s else install { t with replay := false } s
  else renumber s

/-- A commit goes on whether or not it matches (R127). -/
def commitIn (e : End) (m : RlvMsg) (c : Commit) (s : State) : State := takeCommit c (passOn (End.other e) m s)

/-- Ranges kept by others without those a range meets or another of the same vertex replaces. -/
def forgetRange (origin : Key) (first last : Nat) (s : State) : State :=
  { s with rlv.announced := s.rlv.announced.filter fun h =>
      h.1 != origin && !(decide (h.2.1 ≤ last) && decide (first ≤ h.2.2.1)) }

/-- `hold_open` of another vertex: its range is held, or is no longer (R93, R94, R98). One of another epoch is passed on only. -/
def holdIn (e : End) (m : RlvMsg) (h : HoldOpen) (s : State) : State :=
  let s1 := passOn (End.other e) m s
  if h.epoch != s.rlv.epoch || h.digest != s.rlv.digest then s1
  else
    let first := h.ordFirst.toNat
    let last := h.ordLast.toNat
    let s2 := forgetRange m.origin first last s1
    if h.action == 0 then
      releaseHeld (dropHeldSpans
        { s2 with rlv.announced := s2.rlv.announced ++ [(m.origin, first, last, s.now + ticksNs h.remain.toNat)] })
    else releaseHeld s2

/-- A Rolavo message received on a lane port, in a span-scoped native frame (R80, R83, R112, R118). -/
def receiveRlv (n : PortNo) (l : Lane) (e : End) (f : NatFrame) (s : State) : State :=
  match decodeRlv f.payload with
  | none => badRlv l e s
  | some m =>
    match m.body with
    | .sweep w =>
      if w.scope == 0 then spanSweepIn l e n m w s
      else if !isNative s || !fromNeighbour e f.src s then s
      else
        let c := firstCopy m s
        if !c.1 then c.2 else if w.scope == 1 then triggerIn e m c.2 else sweepIn e m w c.2
    | .tally t =>
      if !isNative s || barredAt e s then s
      else
        let c := firstCopy m s
        if !c.1 || m.origin == vkey s then c.2
        else if t.replay then replayIn t c.2
        else if fromNeighbour e f.src s then tallyIn e m t c.2
        else c.2
    | .commit x =>
      if !isNative s || !fromNeighbour e f.src s then s
      else
        let c := firstCopy m s
        if !c.1 || m.origin == vkey s then c.2 else commitIn e m x c.2
    | .holdOpen x =>
      if !isNative s || !fromNeighbour e f.src s then s
      else
        let c := firstCopy m s
        if !c.1 || m.origin == vkey s then c.2 else holdIn e m x c.2

/-- A message of the coordinator goes on over the power line to the stations this one repeats for (R102, R331). -/
def repeatRlv (c : Chan) (m : RlvMsg) (s : State) : State :=
  let p := plc c s
  let lead := (p.stations.find? fun x => x.key == p.coord).map (·.stn)
  let next := p.chords.filterMap fun x =>
    if some x.orig == lead && x.reps.contains p.stn then some (x.reps.getD (x.reps.idxOf p.stn + 1) x.dst) else none
  next.eraseDups.foldl (fun t stn => plcQueue c stn (rlvFrame m t) none none t) s

/-- What another segment's ordinal 1 tells of it to the coordinator or polling master (R102, log entry 69). -/
def segmentIn (k : Key) (t : Tally) (s : State) : State :=
  { s with rlv.segments := (s.rlv.segments.filter fun x => x.1 != k) ++ [(k, t.entries)] }

/-- A message received over the power line (R102): a tally or commit of the coordinator is kept and handed on along this segment, and
to the stations behind this one; the coordinator learns other segments. -/
def receiveRlvPlc (c : Chan) (f : NatFrame) (s : State) : State :=
  match decodeRlv f.payload with
  | none => badRlvPlc c s
  | some m =>
    let d := firstCopy m s
    if !d.1 || m.origin == vkey s || !isNative s then d.2
    else
      let along := fun (t : State) => repeatRlv c m (passOn .e2 m (passOn .e1 m t))
      match m.body with
      | .tally t =>
        if t.replay then (if (plc c s).role != 0 then segmentIn m.origin t d.2 else d.2)
        else if t.estimated && !t.nak && (t.entries.any fun x => x.key == vkey s) && !losesTo t d.2 then along (holdPending t d.2)
        else d.2
      | .commit x => takeCommit x (along d.2)
      | _ => d.2

/-! ### Neighbours -/

/-- The tally in force in the form of Table 3.5; a vertex alone answers with itself (R737). -/
def presentTally (s : State) : Tally :=
  if s.rlv.st == .alone || s.rlv.poly.isEmpty then
    let e : PolyEntry := { ownEntry none 3 s with ord := 1, plcOnly := false, corr := false, duplex := false, interopOk := false }
    { newEpoch := s.rlv.epoch, newDigest := s.rlv.digest, refKey := vkey s, pinKey := 0, nak := false, pinApplied := false,
      replay := false, estimated := false, barLast := false, nakKey := 0, nakReason := 0, entries := [e] }
  else
    { newEpoch := s.rlv.epoch, newDigest := s.rlv.digest, refKey := s.rlv.refKey, pinKey := s.rlv.pinKey, nak := false,
      pinApplied := s.rlv.pinned, replay := false, estimated := s.rlv.estimated, barLast := s.rlv.barLast, nakKey := 0,
      nakReason := 0, entries := s.rlv.poly }

/-- The committed tally: while the ETB topology is in force, the native one before it (R145, R147, log entry 67). -/
def committedTally (s : State) : Tally :=
  if s.rlv.etb.runs then s.rlv.etb.native.getD (presentTally s) else presentTally s

/-- A copy of the committed tally for a vertex that rejoins, with those held now marked HELD (R95). -/
def sendReplay (e : End) (first last : Nat) (s : State) : State :=
  let t := committedTally s
  let es := t.entries.map fun x =>
    if decide (first ≤ x.ord.toNat) && decide (x.ord.toNat ≤ last) then { x with held := true } else x
  let m := newMsg (.tally { t with replay := true, entries := es }) s
  sendRlv e m.1 m.2

/-- A neighbour accepted at an end that holds a range with its key in it: the hold shrinks to the vertices between (R94). -/
def rejoin (e : End) (h : Hold) (o : Nat) (s : State) : State :=
  let between : Option Hold :=
    if s.rlv.ord < h.first then (if o ≤ h.first then none else some ⟨h.first, o - 1, h.expireAt, true⟩)
    else (if h.last ≤ o then none else some ⟨o + 1, h.last, h.expireAt, true⟩)
  let s1 := sendReplay e h.first h.last (recheckSpan true e (dropHeldSpans (shrinkHold e between s)))
  if between.isNone then s1 else renumber s1

/-- The key the committed polyline places at an end, across vertices it has rejoined (R119). -/
def polyKeyAt (e : End) (s : State) : Option Key :=
  (nbrOrd e s).bind fun o => (s.rlv.poly.find? fun x => x.ord.toNat == o).map (·.key)

/-- A neighbour's key is accepted at an end: event 0x5001, the 2 s of R100, and a rejoin, or a renumbering unless the committed
polyline places that key there (R85, R94, R119). -/
def acceptKey (e : End) (k : Key) (s : State) : State :=
  let seen := fun (x : SpanState) => match x.watch with | some w => { x with nbrAt := if w.key == k then some w.last else none } | none => x
  let s1 := corroborateEnd e (modEnd e (fun x =>
    { x with accepted := some k, corr := false, corrDue := some (s.now + sec 2), epochDiffs := 0, spanA := seen x.spanA,
             spanB := seen x.spanB }) { s with rlv.plcOnly := false })
  let s2 := raise 0x5001 (d1 (End.num e) ++ d6 k) s1
  match (endOf e s2).hold, ordOf k s2 with
  | some h, some o =>
    if decide (h.first ≤ o) && decide (o ≤ h.last) then rejoin e h o s2 else renumber s2
  | _, _ => if polyKeyAt e s2 == some k then s2 else renumber s2

/-- NEIGHBOUR_ACCEPT: every condition of R85 has held for 50 ms; in a rise from S6 on (R736). In interop mode none is accepted: the
spec does not say (DESIGN CHOICE, log entry 68). -/
def neighbourAccept (e : End) (s : State) : State :=
  let s1 := refreshEnd e s
  let x := endOf e s1
  match shownKey e s1, x.condSince with
  | some k, some t =>
    if x.accepted.isNone && x.lost.isNone && s1.now ≥ t + ms 50 && isNative s1 && lanesRun s1 then acceptKey e k s1 else s1
  | _, _ => s1

/-- R88: the condition has lasted 5 s. -/
def spanInputDisagree (e : End) (s : State) : State :=
  let s1 := refreshEnd e s
  let x := endOf e s1
  match x.disagreeSince with
  | some t =>
    if t + sec 5 ≤ s1.now && !x.disagree then
      raise 0x5003 (d1 (End.num e) ++ d6 (((liveWatches e s1).head?.map (·.key)).getD 0))
        (modEnd e (fun y => { y with disagree := true, condSince := none }) s1)
    else s1
  | none => s1

/-- A lane's port at an end has link and has received a span sweep of the accepted neighbour within 50 ms. -/
def nbrHeard (l : Lane) (e : End) (s : State) : Bool :=
  (match lanePort l e s with | some n => (port n s).link | none => false)
  && (match (spanOf l e s).nbrAt with | some t => decide (s.now < t + ms 50) | none => false)

/-- No lane of an end has (R89). -/
def neighbourGone (e : End) (s : State) : Bool := !nbrHeard .a e s && !nbrHeard .b e s

/-- R89: the neighbour is lost; the decision follows in 100 ms (R90, R92); a bar is lifted (R140). -/
def neighbourLoss (e : End) (s : State) : State :=
  match (endOf e s).accepted with
  | none => refreshEnd e s
  | some k =>
    if !neighbourGone e s then s
    else
      let was := (endOf e s).barredHere
      let s1 := modEnd e (fun x => { x with accepted := none, corr := false, corrDue := none, lost := some (k, s.now + ms 100),
                                            barredHere := false, epochDiffs := 0 }) s
      let s2 := refreshEnd e s1
      if was then renumber s2 else s2

/-- R90: what the loss means: removal, hold, or nothing held for a key no committed polyline contains at that end (R735). The hold
takes every vertex beyond, where a shrunken hold still runs too, with a full 10 s (R93; DESIGN CHOICE, log entry 68). Interop mode
holds nothing (R144). -/
def lossDecision (e : End) (s : State) : State :=
  match (endOf e s).lost with
  | none => s
  | some (k, at_) =>
    if s.now < at_ then s
    else
      let s1 := modEnd e (fun x => { x with lost := none }) s
      match if isNative s then lostRange e k s else none with
      | some (first, last) =>
        if anyInactive e s1 then
          renumber (raise 0x5002 (d1 (End.num e) ++ d6 k) (modEnd e (fun x => { x with hold := none }) s1))
        else
          let h : Hold := ⟨first, last, s1.now + ticksNs 10240, false⟩
          let s2 := dropHeldSpans (modEnd e (fun x => { x with hold := some h }) s1)
          refreshEnd e (raise 0x5020 (holdData e first last 10240) (sendHold e 0 first last 10240 s2))
      | none => renumber s1

/-- R96: a hold reaches 10 s. -/
def holdExpiry (e : End) (s : State) : State :=
  match (endOf e s).hold with
  | some h =>
    if h.expireAt ≤ s.now then
      let s1 := modEnd e (fun x => { x with hold := none }) s
      renumber (raise 0x5022 (holdData e h.first h.last 0) (sendHold e 2 h.first h.last 0 s1))
    else s
  | none => s

/-- R100: 2 s after an acceptance. -/
def corroborationCheck (e : End) (s : State) : State :=
  let s1 := corroborateEnd e s
  match (endOf e s1).accepted with
  | some k =>
    if !due (endOf e s1).corrDue s then s1
    else raise 0x5006 (d1 (End.num e) ++ d6 k) (modEnd e (fun y => { y with corrDue := none }) s1)
  | none => s1

/-! ### Joining over the power line (R101, R102) -/

/-- Path loss between two stations of a channel, as reported; 255 where none is known (R102). -/
def pathLoss (c : Chan) (a b : Key) (s : State) : Nat :=
  let p := plc c s
  let stn := fun (k : Key) => if k == vkey s then some p.stn else (p.stations.find? fun x => x.key == k).map (·.stn)
  match stn a, stn b with
  | some x, some y =>
    ((p.links.filter fun l => (l.tx == x && l.rx == y) || (l.tx == y && l.rx == x)).map fun l => l.loss.toNat).foldl min 255
  | _, _ => 255

/-- The two ends of a segment. -/
def segEnds (g : List PolyEntry) : List Key := (g.head?.map (·.key)).toList ++ (g.getLast?.map (·.key)).toList

/-- A segment turned round: its ends swap (R107). -/
def turn (g : List PolyEntry) : List PolyEntry := g.reverse.map fun e => { e with endF := flipEnd e.endF }

/-- A segment with the nearer of its ends first, seen from a vertex. -/
def nearFirst (c : Chan) (k : Key) (s : State) (g : List PolyEntry) : List PolyEntry :=
  match g.head?, g.getLast? with
  | some a, some b =>
    let la := pathLoss c k a.key s
    let lb := pathLoss c k b.key s
    if lb < la || (la == lb && decide (b.key.toNat < a.key.toNat)) then turn g else g
  | _, _ => g

/-- A segment comes before another for appending: less path loss, then the lower key. -/
def nearer (c : Chan) (k : Key) (s : State) (a b : List PolyEntry) : Bool :=
  match a.head?, b.head? with
  | some x, some y =>
    let lx := pathLoss c k x.key s
    let ly := pathLoss c k y.key s
    decide (lx < ly) || (lx == ly && decide (x.key.toNat < y.key.toNat))
  | _, _ => false

/-- Segments appended one after another (R102, steps 2 and 3). -/
def appendSegs (c : Chan) (s : State) : Nat → Key → List (List PolyEntry) → List PolyEntry
  | 0, _, _ => []
  | fuel + 1, k, segs =>
    let turned := segs.map (nearFirst c k s)
    match turned with
    | [] => []
    | g :: rest =>
      let best := rest.foldl (fun b x => if nearer c k s x b then x else b) g
      let left := turned.filter fun x => segEnds x != segEnds best
      best ++ appendSegs c s fuel ((best.getLast?.map (·.key)).getD k) left

/-- The pair of segment ends with the greatest known path loss, the lower keys first among equals (R102, step 1); where no loss is
known, the lowest keys (DESIGN CHOICE, log entry 69). -/
def farthest (c : Chan) (ends : List Key) (s : State) : Option (Key × Key) :=
  let pairs := (ends.map fun a => (ends.filter fun b => decide (a.toNat < b.toNat)).map fun b => (a, b)).flatten
  let known := pairs.filter fun p => decide (pathLoss c p.1 p.2 s < 255)
  let least := fun (p q : Key × Key) =>
    decide (p.1.toNat < q.1.toNat) || (p.1 == q.1 && decide (p.2.toNat < q.2.toNat))
  (if known.isEmpty then pairs else known).foldl (fun best p =>
    match best with
    | none => some p
    | some q =>
      let lp := pathLoss c p.1 p.2 s
      let lq := pathLoss c q.1 q.2 s
      if !known.isEmpty && lp != lq then (if lq < lp then some p else best) else if least p q then some p else best) none

/-- This vertex's own chain, from the committed polyline without what joined over the power line, else itself. -/
def ownChain (s : State) : List PolyEntry :=
  let es := s.rlv.poly.filter fun e => !e.plcOnly
  if !s.rlv.estimated && es.any fun e => e.key == vkey s then es else chainAround es
where
  /-- The entries of an estimated polyline that lanes join to this vertex's, with this vertex's own; itself where there is none. -/
  chainAround (es : List PolyEntry) : List PolyEntry :=
    let own : List PolyEntry := [{ ownEntry none 3 s with plcOnly := noOne s }]
    match sides (vkey s) [] es, es.find? fun e => e.key == vkey s with
    | some (before, after), some me =>
      if me.plcOnly then own
      else (joined me before).reverse ++ me :: linked after
    | _, _ => own
  /-- Entries before one, nearest first, as far as each span has a lane up. -/
  joined (x : PolyEntry) : List PolyEntry → List PolyEntry
    | [] => []
    | e :: rest => if x.laneA || x.laneB then e :: joined e rest else []
  /-- Entries behind, as far as each span has a lane up. -/
  linked : List PolyEntry → List PolyEntry
    | [] => []
    | e :: rest => if e.laneA || e.laneB then e :: linked rest else []

/-- The entry of a station heard over the power line only. -/
def plcEntry (k : Key) (s : State) : PolyEntry :=
  { key := k, ord := 0, held := false, plcOnly := true, corr := false, laneB := false, laneA := false, duplex := false, endF := 3,
    epoch := ((s.rlv.poly.find? fun e => e.key == k).map (·.epoch)).getD s.rlv.epoch, speedB := 0, speedA := 0,
    interopOk := false }

/-- A station the coordinator holds as present on a channel. -/
def present (c : Chan) (k : Key) (s : State) : Bool :=
  (plc c s).stations.any fun x => x.key == k && x.reservedUntil.isNone

/-- The segments of the train (R102): this vertex's chain, the chains other segments have told, each station in none of them alone. -/
def segmentsOf (c : Chan) (s : State) : List (List PolyEntry) :=
  let own := ownChain s
  let has := fun (g : List PolyEntry) (k : Key) => g.any fun e => e.key == k
  let told := (s.rlv.segments.filter fun x => present c x.1 s && !(x.2.any fun e => has own e.key)).map (·.2)
  let lone := ((plc c s).stations.filter fun st => st.reservedUntil.isNone && !((own :: told).any fun g => has g st.key)).map
    fun st => [plcEntry st.key s]
  own :: (told ++ lone)

/-- The segments in the order of R102, from the end with the lower key. -/
def orderSegments (c : Chan) (s : State) : List PolyEntry :=
  let segs := segmentsOf c s
  let start : Key := match farthest c (segs.map segEnds).flatten s with
    | some (a, _) => a
    | none => vkey s
  match segs.find? fun g => (segEnds g).contains start with
  | some g =>
    let g1 := if (g.head?.map (·.key)) == some start then g else turn g
    g1 ++ appendSegs c s segs.length ((g1.getLast?.map (·.key)).getD start) (segs.filter fun x => segEnds x != segEnds g)
  | none => ownChain s

/-- The tally of R102: the segments in order, REF_END unknown for those joined over the power line (R103), the known pin carried; the
reference is the pinned end where the pinned vertex is one (R105, R108). -/
def estimatedTally (c : Chan) (s : State) : Tally :=
  let pin := sweepPin none s
  let row := orderSegments c s
  let last := (row.getLast?.map (·.key)) == some pin.2 && pin.1 && 2 ≤ row.length
  let es : List PolyEntry := numberFrom 1 ((if last then turn row else row).take 63)
  let ref : Key := (es.head?.map (·.key)).getD 0
  let known := pin.1 && es.any fun e => e.key == pin.2
  { newEpoch := newEpochOf s.rlv.epoch es, newDigest := digestOf (es.map (·.key)), refKey := ref,
    pinKey := if known then pin.2 else 0, nak := false, pinApplied := known && pin.2 == ref, replay := false, estimated := true,
    barLast := false, nakKey := 0, nakReason := 0, entries := es }

/-- A message for the station of a key on a channel, span-scoped as every Rolavo message (R80). -/
def sendRlvPlc (c : Chan) (m : RlvMsg) (keys : List Key) (s : State) : State :=
  let hops := keys.filterMap fun k => ((plc c s).stations.find? fun x => x.key == k).map fun st => plcNextHop c st.stn s
  hops.eraseDups.foldl (fun t h => plcQueue c h (rlvFrame m t) none none t) s

/-- A message over the power line to every station of other segments and along this one (R102). -/
def sendSegments (c : Chan) (m : RlvMsg) (t : Tally) (s : State) : State :=
  let own := ownChain s
  let far := (t.entries.map (·.key)).filter fun k => !(own.any fun e => e.key == k)
  sendRlvPlc c m far (sendRlv .e2 m (sendRlv .e1 m s))

/-- Role of a channel: the vertex is coordinator or polling master. -/
def plcLeads (c : Chan) (s : State) : Bool := (plc c s).att == .associated && (plc c s).role != 0

/-- The coordinator proposes and commits (R102): the tally and the commit go out together, the commit's cycle two superframes
beyond the rule of R126. -/
def proposeEstimated (c : Chan) (s : State) : State :=
  let t := estimatedTally c s
  let k := keepTally t s
  if !k.2 then k.1
  else
    let m1 := newMsg (.tally t) k.1
    let s1 := sendSegments c m1.1 t m1.2
    let lead := 2 * 32 * (plc c s).halfCycle / cycleNs s
    let x : Commit := ⟨t.newEpoch, t.newDigest, word (cycleIdx s + t.entries.length + 1 + lead)⟩
    let m2 := newMsg (.commit x) s1
    takeCommit x (sendSegments c m2.1 t m2.2)

/-- Heard for 2 s: the coordinator or polling master has named this vertex in its beacons that long; one that leads the channel has
itself heard a station that long (R101). -/
def heardLong (c : Chan) (s : State) : Bool :=
  let p := plc c s
  let long := fun (t : Ns) => decide (t + sec 2 ≤ s.now)
  if p.role != 0 then p.heard.any fun x => long x.2 else match p.namedSince with | some t => long t | none => false

/-- No end has an accepted neighbour (R101). -/
def noNeighbour (s : State) : Bool := s.rlv.end1.accepted.isNone && s.rlv.end2.accepted.isNone

/-- The ordinal 1 of a chain that lanes join tells the channel's coordinator its committed tally, as a REPLAY tally: how the coordinator
learns other segments the spec does not say (DESIGN CHOICE, log entry 69). -/
def tellSegment (c : Chan) (s : State) : State :=
  let p := plc c s
  if s.rlv.ord = 1 && decide (2 ≤ s.rlv.poly.length) && !noNeighbour s && p.att == .associated && p.role == 0 && p.coord != 0 then
    let m := newMsg (.tally { committedTally s with replay := true }) s
    sendRlvPlc c m.1 [p.coord] m.2
  else s

/-- R101, R102. -/
def plcOnlyJoin (c : Chan) (s : State) : State :=
  let p := plc c s
  let joins := noNeighbour s && !s.rlv.plcOnly && p.att == .associated && heardLong c s && isNative s
  let s1 := if joins then
      renumber (raise 0x5007 (d1 c.val) { s with rlv.plcOnly := true })
    else tellSegment c s
  if plcLeads c s1 && isNative s1 && heardLong c s1 then proposeEstimated c s1 else s1

/-! ### Timers of a renumbering -/

/-- R120: the sweep that serves the triggers of the millisecond after one. -/
def deferredSweep (s : State) : State :=
  if due s.rlv.deferredSweepAt s then
    originateSweep { s with rlv.deferredSweepAt := none, rlv.lastSweepAt := none }
  else s

/-- R124: the back-off is over. -/
def backoffExpiry (s : State) : State :=
  if due s.rlv.backoffAt s then renumber { s with rlv.backoffAt := none } else s

/-- A proposal abandoned: event 0x5011, its count, the back-off (R131). -/
def abandon (s : State) : State :=
  let s1 := raise 0x5011 (d1 0 ++ d6 0) { s with rlv.cntAbandon := s.rlv.cntAbandon + 1 }
  { s1 with rlv.backoffAt := some (s1.now + ms (backoffMs s1)) }

/-- R131 in GATHER. -/
def gatherTimeout (s : State) : State :=
  if s.rlv.st == .gather && due s.rlv.gatherDue s then abandon { s with rlv.gatherDue := none } else s

/-- R131 in PENDING. -/
def pendingTimeout (s : State) : State :=
  if s.rlv.st == .pending && due s.rlv.pendingDue s then
    abandon { s with rlv.st := .gather, rlv.pending := none, rlv.pendingDue := none, rlv.commitAt := none,
                     rlv.gatherAtSwitch := false, rlv.gatherDue := none }
  else s

/-- R137: only the current epoch is accepted from now on. -/
def graceEnd (s : State) : State := if due s.rlv.graceUntil s then { s with rlv.graceUntil := none } else s

/-- R127: the named cycle has begun. -/
def epochSwitch (s : State) : State :=
  match s.rlv.commitAt, s.rlv.pending with
  | some c, some t => if c ≤ cycleIdx s then install t s else s
  | _, _ => s

/-- R158: the 1,000 µs boundary has come. -/
def cycleLengthChange (s : State) : State :=
  match s.bbn.cycleChangeAt with
  | some t => if t ≤ ttime s then { s with bbn.cycle1ms := true, bbn.cycleChangeAt := none } else s
  | none => s

/-! ### Interop mode -/

/-- What waits natively is stored and forwarded by its PCP from now on (R192): the lane ports' queues, class U frames in origination
queues or waiting for their instants, frames kept for held vertices. -/
def toInterop (was s : State) : State :=
  let s1 := (laneQueued s).foldl (fun t x => enqueue x.1 x.2 t) (emptyLaneQueues s)
  let s2 := (was.bbn.transit.filter (·.fcsOk)).foldl (fun t x =>
    launch (routeTo 0 x.frame.label x.frame.dst t) x.frame none none t) s1
  releaseHeld (was.bbn.uq.foldl (fun t x => moveUrgent x.2 t) s2)

/-- Preemption begins anew on the linked lane ports: the train mode decides how it runs there (R273). -/
def restartVerify (s : State) : State :=
  (List.finRange 8).foldl (fun t n => if (portLane n t).isSome && (port n t).link then startVerify n t else t) s

/-- Interop mode begins (R141, R144, R145, R192, R195): event 0x5040; no epoch, hold, slot or lane map applies, this node is
grandmaster until the BMCA finds a better one, traffic stops until the ETB topology is valid. -/
def enterInterop (s : State) : State :=
  if !isNative s then s
  else
    let due_ := (List.finRange 8).map fun n => if (portLane n s).isSome then some s.now else none
    let s1 : State := { s with
      rlv.st := .interop, rlv.pending := none, rlv.commitAt := none, rlv.pendingDue := none, rlv.gatherDue := none,
      rlv.backoffAt := none, rlv.gatherAtSwitch := false, rlv.deferredSweepAt := none, rlv.end1.hold := none, rlv.end2.hold := none,
      rlv.announced := [], rlv.foreignQuietSince := none, rlv.etb.runs := true, rlv.etb.valid := false,
      rlv.etb.native := some (committedTally s), rlv.etb.foreign := [],
      rlv.etb.helloDue := Vector.ofFn fun n => (due_[n.val]?).getD none,
      bbn.transit := [], bbn.uq := [], bbn.noticesA := [], bbn.noticesB := [], bbn.downSpans := [], bbn.cycleChangeAt := none,
      bbn.gm := true, bbn.syncOk := true, bbn.bmca := none, bbn.stepDue := none, bbn.lastSync := none, bbn.fdb := [] }
    let s2 := refreshDist (restartVerify (toInterop s (raise 0x5040 [] s1)))
    { s2 with rlv.foreignQuietSince := s2.rlv.foreignQuietSince.map fun _ => s.now }

/-- A HELLO the profile forbids (R142): event 0x5042, at most once per minute and span. -/
def helloRefused (l : Lane) (e : End) (s : State) : State :=
  raiseSpaced (spanOf l e s).helloEvAt (sec 60) (fun t => modSpan l e (fun x => { x with helloEvAt := some t.now }) t)
    0x5042 (d1 (End.num e)) (refreshEnd e s)

/-- A HELLO takes the vertex into interop mode where its profile allows it, else it is refused (R141, R142). -/
def helloActs (l : Lane) (e : End) (s : State) : State :=
  if s.rlv.interopAllow then refreshDist (enterInterop (refreshDist s)) else helloRefused l e (refreshDist s)

/-- R141: 30 ms without a native span sweep on that span: its HELLO is a foreign node's. -/
def helloConfirm (n : PortNo) (s : State) : State :=
  match portLane n s with
  | none => s
  | some (l, e) =>
    match (spanOf l e s).hello with
    | some t =>
      if t + ms 30 ≤ s.now then
        helloActs l e (modSpan l e (fun x => { x with hello := none, foreign := true }) s)
      else s
    | none => s

/-- A TTDP HELLO received, of a foreign node or of a TN-880 in interop mode (R141, R142): it acts at once, and 30 ms run in which a
native span sweep shows that it is no foreign node's. -/
def helloIn (n : PortNo) (s : State) : State :=
  match portLane n s with
  | none => s
  | some (l, e) =>
    helloActs l e (modSpan l e (fun x =>
      { x with helloLast := some s.now, hello := if x.foreign then x.hello else some (x.hello.getD s.now) }) s)

/-- An ETB node as an entry of the polyline: numbered by the ETB, addressed by its key where it is a TN-880 (R145). -/
def etbEntry (k : Key) (s : State) : PolyEntry :=
  { key := k, ord := 0, held := false, plcOnly := false, corr := false, laneB := true, laneA := true, duplex := false, endF := 3,
    epoch := s.rlv.epoch, speedB := 0, speedA := 0, interopOk := true }

/-- The ETB inauguration in interop mode (R143 to R145): no nodes, it is under way and traffic stops; else the topology is valid, the
ordinal is the ETB node number, and a change of the topology counter is a new epoch with the counter as its digest. -/
def topologyIn (counter : Word) (nodes : List (Key × Bool)) (facing : End) (s : State) : State :=
  if isNative s then s
  else if nodes.isEmpty then { s with rlv.etb.valid := false }
  else
    let es := numberFrom 1 (nodes.map fun x => etbEntry x.1 s)
    match es.find? fun x => x.key == vkey s with
    | none => s
    | some own =>
      let moved := s.rlv.ord != own.ord.toNat || s.rlv.refEnd != endBits facing
      let changed := s.rlv.digest != counter
      let s1 : State := { s with
        rlv.poly := es, rlv.ord := own.ord.toNat, rlv.refEnd := endBits facing, rlv.refKey := (es.head?.map (·.key)).getD 0,
        rlv.estimated := false, rlv.pinned := false, rlv.barLast := false, rlv.plcOnly := false, rlv.etb.valid := true,
        rlv.etb.counter := counter, rlv.etb.foreign := (nodes.filter fun x => !x.2).map (·.1), rlv.digest := counter,
        rlv.epoch := if changed then s.rlv.epoch + 1 else s.rlv.epoch }
      let s2 := if changed then epochEvent moved s1 else s1
      staleOut (restampAll s2)

/-- R147: FOREIGN_DIST has read 63 for 10 s: a native renumbering; traffic runs on the ETB topology until its commit. -/
def interopExit (s : State) : State :=
  let s0 := refreshDist s
  if isNative s then s
  else match s0.rlv.foreignQuietSince with
    | some t =>
      if t + sec 10 ≤ s.now then
        renumber (restartVerify (newMaster s0.rlv.refKey (raise 0x5041 [] { s0 with rlv.st := .gather })))
      else s0
    | none => s0

/-! ### Management messages -/

/-- `rlv_query` (opcode 0x0501): the committed tally, or this vertex alone (R737). -/
def rlvQuery (r : Req) (s : State) : State :=
  authorised 0x0501 r (fun t =>
    if r.body.isEmpty then answer r 0x0501 stOk (encodeTally (committedTally t)) t else malformed r 0x0501 t) s

/-- `rlv_pin_reference` (opcode 0x0502): a 6-byte key, 0 clears the pin; a renumbering follows (R108). -/
def rlvPin (r : Req) (s : State) : State :=
  authorised 0x0502 r (fun t =>
    if r.body.length ≠ 6 then malformed r 0x0502 t
    else renumber (answer r 0x0502 stOk [] { t with rlv.ownPin := some (mkKey (ofLE r.body)) })) s

/-! ### Span sweeps of this vertex -/

/-- In interop mode a lane port sends TTDP HELLO and TOPOLOGY too (R143): every 15 ms while the ETB topology is not valid, every 100 ms
once it is, the standard's two timer regimes (PRESUMED, log entry 67). -/
def sendHello (n : PortNo) (s : State) : State :=
  if isNative s || !due (s.rlv.etb.helloDue[n]) s then s
  else
    let fast := !s.rlv.etb.valid
    emit (.topology n s.rlv.etb.counter) (emit (.hello n fast)
      { s with rlv.etb.helloDue := s.rlv.etb.helloDue.set n (some (s.now + ms (if fast then 15 else 100))) })

/-- R82: a span sweep is due on a lane port; the next is due 10 ms after this one's due time. -/
def spanSweepSend (n : PortNo) (s : State) : State :=
  match portLane n s, s.rlv.sweepDue[n] with
  | some (l, e), some t =>
    if t ≤ s.now && (port n s).link then
      let s1 := sendHello n (refreshDist s)
      let body := { sweepBody 0 e s1 with barred := (endOf e s1).barredHere, foreignDist := BitVec.ofNat 6 (sentDist l e s1) }
      let m := newMsg (.sweep body) { s1 with rlv.sweepDue := s1.rlv.sweepDue.set n (some (t + ms 10)) }
      sendOnLane l e (rlvFrame m.1 m.2) none none m.2
    else s
  | _, _ => s

/-! ### Meanings -/

/-- R82. -/
def execSpanSweepSend (port_ : PortNo) (s : State) : Out := .next (preemptAll (spanSweepSend port_ s))
/-- R85, R94, R119. -/
def execNeighbourAccept (e : End) (s : State) : Out := .next (preemptAll (neighbourAccept e s))
/-- R88. -/
def execSpanInputDisagree (e : End) (s : State) : Out := .next (spanInputDisagree e s)
/-- R89. -/
def execNeighbourLoss (e : End) (s : State) : Out := .next (neighbourLoss e s)
/-- R90, R735. -/
def execLossDecision (e : End) (s : State) : Out := .next (preemptAll (lossDecision e s))
/-- R96. -/
def execHoldExpiry (e : End) (s : State) : Out := .next (preemptAll (holdExpiry e s))
/-- R100. -/
def execCorroborationCheck (e : End) (s : State) : Out := .next (corroborationCheck e s)
/-- R101, R102. -/
def execPlcOnlyJoin (chan : Chan) (s : State) : Out := .next (plcOnlyJoin chan s)
/-- R120. -/
def execDeferredSweepOriginate (s : State) : Out := .next (preemptAll (deferredSweep s))
/-- R124. -/
def execRenumberBackoffExpiry (s : State) : Out := .next (preemptAll (backoffExpiry s))
/-- R127. -/
def execEpochSwitch (s : State) : Out := .next (epochSwitch s)
/-- R158. -/
def execCycleLengthChange (s : State) : Out := .next (cycleLengthChange s)
/-- R131. -/
def execGatherTimeout (s : State) : Out := .next (gatherTimeout s)
/-- R131. -/
def execPendingTimeout (s : State) : Out := .next (pendingTimeout s)
/-- R137. -/
def execStaleGraceEnd (s : State) : Out := .next (graceEnd s)
/-- R147. -/
def execInteropExit (s : State) : Out := .next (interopExit s)
/-- R737. -/
def execRlvQuery (req : Req) (s : State) : Out := .next (rlvQuery req s)
/-- R108. -/
def execRlvPinReference (req : Req) (s : State) : Out := .next (rlvPin req s)

end Sys2Proof.Machine
end

