-- ==== Sys2Proof/Machine/Wake.lean ====
section
/-! DEFINITION. OUT0 and OUT1 as they are driven (R378, R379, R589), wake causes and the requests that move the unit (R523, R529 to
R531, R537 to R541, R584 to R586). -/
namespace Sys2Proof.Machine

/-- A change of the OUT1 contact from what it was: event 0x7032 each time it closes (R379). -/
def noteOut1 (was : Bool) (s : State) : State :=
  if contact1 s && !was then raise 0x7032 (d1 s.vx.out1Mode.toNat) s else s
/-- A change of the OUT0 contact from what it was: event 0x7030 or 0x7031. -/
def noteOut0 (was : Bool) (s : State) : State :=
  if contact0 s == was then s else raise (if contact0 s then 0x7031 else 0x7030) (d1 (healthNow s).toNat) s

/-- OUT1 is driven closed or open. -/
def out1Drive (closed : Bool) (s : State) : State := noteOut1 (contact1 s) { s with vx.out1Closed := closed }
/-- OUT0 is driven closed or open. -/
def out0Drive (closed : Bool) (s : State) : State := noteOut0 (contact0 s) { s with vx.out0Closed := closed }

/-- The WAKE of a train wake is being sent, or is due, on some channel (R589). -/
def wakeSending (s : State) : Bool :=
  s.slp.wakeTrain && (s.slp.wakeSend[0].isSome || s.slp.wakeSend[1].isSome || s.slp.wakePend[0] || s.slp.wakePend[1])

/-- OUT1 in level mode follows the request: while WAKE is sent, and while AWAKE with demand (R589). -/
def refreshOut1 (s : State) : State :=
  if s.vx.out1Mode != 1 then s
  else out1Drive (wakeSending s || (s.slp.st == .awake && demand s)) s

/-- OUT1_MODE has been written (R379): off and a new pulse mode open the contact, level follows the request. -/
def out1Mode (changed : Bool) (s : State) : State :=
  if !changed then s
  else
    let s1 := { s with vx.out1Until := none }
    if s1.vx.out1Mode == 1 then refreshOut1 s1 else out1Drive false s1

/-- A request for the train awake: a pulse, or the level (R379, R589). -/
def requestAwake (s : State) : State :=
  if s.vx.out1Mode == 2 then
    out1Drive true { s with vx.out1Until := some (s.now + ms (100 * s.vx.out1Pulse.toNat)) }
  else refreshOut1 s

/-! ### Wake causes -/

/-- Bit of a cause. -/
def causeBit (b : Nat) : Word := 1 <<< b

/-- WAKE# of an endpoint's link asserted where HOST_PRSNT# is low on its row, unless the link is in L0 or its own host resume is among
the causes (R539). -/
def assertWakeAt (ep : Endpoint) (s : State) : State :=
  let resume := flagOf s.cel.wakeCause (1 + Link.num ep.link)
  if !prsnt ep.ct s || (endpoint ep s).power == .l0 || resume || (endpoint ep s).wakeN then s
  else emit (.wakeN ep true) (modEndpoint ep (fun e => { e with wakeN := true }) s)

/-- WAKE# of a link asserted on both rows (R539). -/
def assertWake (l : Link) (s : State) : State := assertWakeAt ⟨l, .b⟩ (assertWakeAt ⟨l, .a⟩ s)

/-- WAKE# of an endpoint's link released (R540). -/
def releaseWakeAt (ep : Endpoint) (s : State) : State :=
  if (endpoint ep s).wakeN then emit (.wakeN ep false) (modEndpoint ep (fun e => { e with wakeN := false }) s) else s

/-- WAKE# of a link released on both rows. -/
def releaseWake (l : Link) (s : State) : State := releaseWakeAt ⟨l, .b⟩ (releaseWakeAt ⟨l, .a⟩ s)

/-- A cause is gathered: CEL_WAKE_CAUSE, the first cause and its tick, each link's latch (R538, R541). -/
def gatherCause (b : Nat) (s : State) : State :=
  let first := s.cel.wakeCause == 0
  let s1 := { s with cel.wakeFirst := if first then b else s.cel.wakeFirst,
                     cel.wakeTick := if first then word (mono s) else s.cel.wakeTick,
                     cel.wakeCause := s.cel.wakeCause ||| causeBit b }
  let note := fun (h : HifLink) => { h with wakeLatch := h.wakeLatch ||| causeBit b, wakeDue := true }
  modLink .h2 note (modLink .h1 note s1)

/-- SETTLING begins: event 0xB001; nothing adopted, no notice seen (Table 15.4, R580). -/
def enterSettling (s : State) : State :=
  raise 0xB001 [] { s with slp.st := .settling, slp.sleepAt := none, slp.noticeSeen := false, slp.noticeMade := false }

/-- SETTLING is left for AWAKE: event 0xB002 with the key of what ended it, its count, what was adopted discarded (Table 15.4, R580). -/
def leaveSettling (origin : Key) (s : State) : State :=
  if s.slp.st != .settling then s
  else
    raise 0xB002 (d6 origin)
      { s with slp.st := .awake, slp.sleepAt := none, slp.noticeSeen := false, slp.noticeMade := false, slp.localWake := false,
               slp.localWakeDue := none, slp.cntCancel := s.slp.cntCancel + 1 }

/-- The slot of the PC-2. -/
def pcSlot : Slot := 8
/-- PLC_CFG.ACCESS: 0 off, 1 coordinator, 2 polling. -/
def plcAccess (p : PlcChan) : Nat := fieldOf p.cfg 0 2

/-- The channel may attach once its units run: its access is not off, a PC-2 is ready, nothing holds it detached. -/
def plcFit (c : Chan) (s : State) : Bool :=
  plcAccess (plc c s) ≠ 0 && !(plc c s).heldOff && slotReady pcSlot s && !leverBusy pcSlot s

/-- The channels that are attached, or will attach with this rise, send WAKE (R585). -/
def wakeDueOn (s : State) : Vector Bool 2 := Vector.ofFn fun c => plcFit c s

/-- A train wake (R585): AWAKE, WAKE due on both channels, OUT1, its event and count by the cause that came first. -/
def trainWake (first : Nat) (s0 : State) : State :=
  let s := leaveSettling (vkey s0) s0
  let s1 := { s with slp.st := .awake, slp.masterArmed := false, slp.armedAt := none, slp.sleepAt := none, slp.localWake := false,
                     slp.localWakeDue := none, slp.wakePend := wakeDueOn s, slp.wakeTrain := true }
  let plc := first == 5 || first == 6
  let s2 := if plc then raise 0xB011 (d1 (first - 5)) { s1 with slp.cntWakeRelay := s1.slp.cntWakeRelay + 1 }
    else raise 0xB010 (d4 s.cel.wakeCause.toNat) { s1 with slp.cntWakeTrain := s1.slp.cntWakeTrain + 1 }
  requestAwake s2

/-- A local wake (R586). -/
def localWake (s : State) : State :=
  let s1 := enterSettling { s with slp.localWake := true }
  raise 0xB012 (d4 s.cel.wakeCause.toNat) { s1 with slp.cntWakeLocal := s1.slp.cntWakeLocal + 1 }

/-- Train or local wake by its causes (R584); SUPPLY leaves the vertex AWAKE, whatever the mask says; interop mode stays AWAKE (R577). -/
def judgeWake (causes : Word) (first : Nat) (s : State) : State :=
  if !isNative s then { s with slp.st := .awake, slp.kaSince := s.now }
  else if (causes.toNat &&& s.slp.trainWake.toNat) / 2 ≠ 0 then trainWake first s
  else if flagOf causes 0 then { s with slp.st := .awake, slp.kaSince := s.now }
  else localWake s

/-- A passage through RISING ends a hold by `plc_attach` (R295). -/
def plcHoldEnds (s : State) : State := { s with plc := s.plc.map fun p => { p with heldOff := false } }

/-- RISING begins (R526, R539): event 0x2002, its count, WAKE#, the judgement of its causes; KA_AGE starts at 0 (R572). -/
def beginRise (s : State) : State :=
  let s1 := { s with cel.pstate := .rising, cel.step := 1, cel.stepAt := s.now, cel.latch := .none, cel.warm := !s.cel.coldNext,
                     cel.energyHold := false, cel.heatHold := false, cel.retryAt := none, cel.cntRise := s.cel.cntRise + 1, slp.kaSince := s.now,
                     cel.fromRun := false }
  let s2 := raise 0x2002 (d1 (bit s1.cel.warm) ++ d4 s1.cel.wakeCause.toNat) (plcHoldEnds s1)
  judgeWake s2.cel.wakeCause s2.cel.wakeFirst (assertWake .h2 (assertWake .h1 s2))

/-- The energy condition of a rise: mains, battery or 100 J (R531). -/
def riseEnergy (s : State) : Bool := sourceCode s ≤ 1 || 100 ≤ bankEnergy s

/-- A rise may begin. -/
def riseAllowed (s : State) : Bool := riseEnergy s && !s.bgt.hotOff

/-- RISING begins where neither heat (R549) nor energy holds it; else the causes stay latched, and a hold for energy writes event 0x2008
once (R531). -/
def tryRise (s : State) : State :=
  if riseAllowed s then beginRise s
  else if s.bgt.hotOff then { s with cel.heatHold := true }
  else if s.cel.energyHold then { s with cel.heatHold := false }
  else raise 0x2008 (d4 (bankEnergy s)) { s with cel.energyHold := true, cel.heatHold := false }

/-- A rise that was held begins as soon as nothing holds it any more (R531, R549). -/
def retryHeld (s : State) : State :=
  if s.cel.pstate == .cellar && (s.cel.energyHold || s.cel.heatHold) then tryRise s else s

/-- An on request (R523, R529, R530). -/
def requestOn (s : State) : State :=
  match s.cel.pstate with
  | .cellar => tryRise s
  | .falling => { s with cel.latch := .onReq }
  | .rising => if s.cel.latch == .offReq then { s with cel.latch := .onReq } else s
  | _ => s

/-- What ends as the node leaves RUN or turns down: a capture (R725), a remote-window lock (R483). -/
def fallEnds (s : State) : State := lockLost (capsuleStops s)

/-- FALLING begins at a step: event 0x2004 with the request and the step, and its count (R528). -/
def beginFall (k : Nat) (s : State) : State :=
  lockLost <| raise 0x2004 (d1 1 ++ d1 k) <| capsuleStops
    { s with cel.pstate := .falling, cel.step := k, cel.stepAt := s.now, cel.latch := .none, cel.fromRun := k == 7, cel.turnCause := 0, cel.turnFirst := 0,
             cel.cntFall := s.cel.cntFall + 1 }

/-- OUT0 opens by its coil drive when the node leaves RUN (R378). -/
def out0Open (s : State) : State := { out0Drive false s with vx.out0HoldUntil := none }

/-- An off request (R523, R529, R530). -/
def requestOff (s : State) : State :=
  match s.cel.pstate with
  | .run => out0Open (beginFall 7 s)
  | .rising => { s with cel.latch := .offReq }
  | .falling => if s.cel.latch == .onReq then { s with cel.latch := .offReq } else s
  | _ => s

/-- A wake cause of Table 13.8 arises (R537, R538): gathered and served in CELLAR and FALLING; a host's resume is gathered in
RISING and RUN too. -/
def raiseCause (b : Nat) (s : State) : State :=
  match s.cel.pstate with
  | .cellar =>
    let new := !flagOf s.cel.wakeCause b
    let s1 := gatherCause b s
    let s2 := if new then { s1 with cel.stepFail := false, cel.fails := 0 } else s1
    if s2.cel.stepFail then s2 else tryRise s2
  | .falling =>
    let first := if s.cel.turnCause == 0 then b else s.cel.turnFirst
    requestOn (gatherCause b { s with cel.turnFirst := first, cel.turnCause := s.cel.turnCause ||| causeBit b })
  | .rising => if b = 1 || b = 2 then assertWake .h2 (assertWake .h1 (gatherCause b s)) else s
  | .run => if b = 1 || b = 2 then gatherCause b s else s
  | _ => s

end Sys2Proof.Machine
end

