-- ==== Sys2Proof/Machine/Ports.lean ====
section
/-! DEFINITION. The line ports (chapter 5, R75): link up and down, loss of signal, speed changes, lane speed restore, wake
patterns, cable tests, foreign voltage. -/
namespace Sys2Proof.Machine

/-! ### Link -/

/-- The speed of a lane's link is below the speed the lane runs at, or is to run at after a restore (R157, R215). -/
def slowSpan (l : Lane) (e : End) (s : State) : Bool :=
  nativeRun s && (nbrOrd e s).isSome &&
  (match lanePort l e s with
   | some n =>
     (match l with | .a => s.bbn.speedA == 2 || s.bbn.restoredA | .b => s.bbn.speedB == 2 || s.bbn.restoredB)
     && decide (speedRank (port n s).speed < 3)
   | none => false)

/-- What Rolavo derives from the links of an end is brought up to date (R85, R88, R146). -/
def refreshPort (n : PortNo) (s : State) : State :=
  match portLane n s with
  | some (_, e) => refreshDist (refreshEnd e s)
  | none => s

/-- A span that links below the lane's speed is down for the lane, and a renumbering starts (R157, R215). -/
def slowLink (n : PortNo) (s : State) : State :=
  match portLane n s with
  | some (l, e) =>
    if slowSpan l e s then
      let s1 := declareDown l e s
      renumber (raise 0x4040 (d1 (Lane.num l) ++ d1 (speedCode (port n s).speed) ++ d1 (bit s.bbn.cycle1ms)) s1)
    else s
  | none => s

/-- The node watches its ports for a wake: in CELLAR, or ASLEEP (R235, R236), and from the end of F5 to the end of S4 (R237). -/
def watching (s : State) : Bool :=
  s.slp.st == .asleep
  || (match s.cel.pstate with
      | .cellar => true
      | .falling | .rising => decide (s.cel.step ≤ 4)
      | _ => false)

/-- A wake by a port: LP_WAKE_HIT, event 0x3030, the ETH cause (R235, R236). -/
def portWakes (n : PortNo) (pattern : Nat) (s : State) : State :=
  raiseCause 4 (raise 0x3030 (d1 n.val ++ d1 pattern)
    (modPort n (fun p => { p with wakeHit := word (2 ^ 31 + pattern) }) s))

/-- A restore has taken effect and this node's own ports of the lane that face a vertex of the polyline have linked (R214). -/
def restoreOver (r : RestoreState) (s : State) : Bool :=
  r.applied && !(List.finRange 8).any fun n =>
    match portLane n s with
    | some (l, e) => l == r.lane && (nbrOrd e s).isSome && phyWanted n s && (!(port n s).link || (port n s).changing)
    | none => false

/-- Restores that are over end; `lp_speed_restore` is answered with that (R214). -/
def restoreDone (s : State) : State :=
  (s.restores.filter fun r => restoreOver r s).foldl (fun t r =>
    match r.req with
    | some (p, tag) => respond p tag 0x0302 stOk [] t
    | none => t) { s with restores := s.restores.filter fun r => !restoreOver r s }

/-- A port's link may come up at a speed now: connected to its port (R49), its PHY on, at its target when forced, else at a permitted
speed of at most the target (R41, R200, R206, R210, R239). -/
def mayLink (n : PortNo) (v : LinkSpeed) (s : State) : Bool :=
  let p := port n s
  p.phyOn && !p.link && p.test.isNone && v != .down && connected n s && speedRank v ≤ speedRank p.target
  && (if p.forced then v == p.target else permitted n s v)

/-- What a consist port had on the wire when its link went down has left; a part-sent frame begins again (R275). -/
def restartPort (n : PortNo) (s : State) : State :=
  let s1 := match (port n s).sending with
    | some x => frameEnds n x (modPort n (fun p => { p with sending := none }) s)
    | none => s
  match (port n s1).part with
  | some (f, q) =>
    let i : Fin 8 := ⟨q % 8, Nat.mod_lt _ (by decide)⟩
    modPort n (fun p => { p with part := none, queues := p.queues.set i ({ f with sent := 0, firstAt := none } :: p.queues[i]) }) s1
  | none => s1

/-- A port's link comes up (R217, R207, R208, R157, R236, R270, R284). -/
def linkUp (n : PortNo) (v : LinkSpeed) (mdix master parDet : Bool) (s : State) : State :=
  if !mayLink n v s then s
  else
    let p := port n s
    let par := parDet && !p.forced
    let wakes := p.watch && p.wakeLink && p.role == 1 && p.downInWatch && watching s
    let s1 := modPort n (fun x =>
      { x with link := true, speed := v, mdix := mdix, master := master && v == .s1000, parDet := par, los := false,
               changing := false, overdueAt := none, retryAt := none, abortNoted := false, downInWatch := false,
               sweepSince := none, assembly := none, txFrame := 0, txFrag := 0, syncAt := some s.now, pdelayAt := some s.now }) (restartPort n s)
    let s2 := raise 0x3001 (d1 n.val ++ d1 (speedCode v)) s1
    let s3 := if par then raise 0x3003 (d1 n.val) s2 else s2
    let s4 := if p.changing then raise 0x3041 (d1 n.val ++ d1 (speedCode v)) s3 else s3
    let s5 := { startVerify n s4 with rlv.sweepDue := s4.rlv.sweepDue.set n
                                        (if (portLane n s4).isSome then some s4.now else none) }
    let s6 := refreshOut1 (restoreDone (flowCheck n (slowLink n (refreshPort n s5))))
    if wakes then portWakes n 7 s6 else s6

/-- A port declares its link down (R217). -/
def linkDown (n : PortNo) (s : State) : State :=
  if !(port n s).link then s
  else
    let s1 := linkDropped n s
    refreshOut1 (refreshPort n (modPort n (fun p => { p with downInWatch := p.downInWatch || (p.watch && watching s) }) s1))

/-- Ports that a closed relay set disconnects lose their link (R49). -/
def cutOff (l : Lane) (s : State) : State :=
  (List.finRange 8).foldl (fun t n => if portSet n == some l && !connected n t then linkDown n t else t) s

/-- A relay set without coil current closes (R50, R52, R53). -/
def closeSet (l : Lane) (s : State) : State :=
  cutOff l (modByp l (fun b => moveContacts true { b with holdUntil := none }) s)

/-- Loss of signal: counted, and the span is down for its lane (R180, R216, R217). -/
def signalLost (n : PortNo) (s : State) : State :=
  let p := port n s
  if !p.link || p.los then s
  else refreshPort n (portSpanDown n (bump n 0x4E4 (modPort n (fun x => { x with los := true }) s)))

/-! ### Speed changes -/

/-- No energy for 100 ms during a speed change (R210). -/
def changeAbort (n : PortNo) (s : State) : State :=
  let p := port n s
  if p.changing && p.phyOn && !p.link then abortChange n 0 s else s

/-- The silent pause is over (R210). -/
def changeRetry (n : PortNo) (s : State) : State :=
  if (port n s).changing && due (port n s).retryAt s && phyWanted n s then beginChange n s else s

/-- The link-up maximum has passed with a partner's energy present (R212). -/
def changeOverdue (n : PortNo) (s : State) : State :=
  let p := port n s
  if p.changing && p.phyOn && !p.link && due p.overdueAt s then
    raise 0x3042 (d1 n.val) (modPort n (fun x => { x with overdueAt := none }) s)
  else s

/-! ### Lane speed restore -/

/-- `lp_speed_restore`: byte 0 names the lane (R214, log entry 17). -/
def speedRestore (r : Req) (s : State) : State :=
  authorised 0x0302 r (fun t =>
    if r.body.length ≠ 4 || 1 < byteAt r.body 0 || !zeros r.body 1 4 then malformed r 0x0302 t
    else
      let l : Lane := if byteAt r.body 0 = 0 then .a else .b
      let o := Lane.other l
      if !nativeRun t || !spansUp o t then answer r 0x0302 stBusy [] t
      else
        let c := cycleIdx t + 100
        let f := nodeFrame allKey nodeLabel (encodeRestore l (c % 2 ^ 32)) t
        let send := fun (e : End) (u : State) => if hasNbr e u then sendOnLane o e f none none u else u
        send .e2 (send .e1 { t with restores := t.restores ++ [⟨l, c, false, some (r.port, r.tag)⟩] })) s

/-- A restored lane that runs at 100 Mbit/s falls again with the next span that links so (R215). -/
def noteRestored (l : Lane) (s : State) : State :=
  match l with
  | .a => { s with bbn.restoredA := s.bbn.speedA == 1 }
  | .b => { s with bbn.restoredB := s.bbn.speedB == 1 }

/-- The target cycle of a lane's restores has begun: RESTRICTED clears on its ports, which renegotiate (R214). -/
def restoreCycle (l : Lane) (s : State) : State :=
  let now_ := fun (r : RestoreState) => r.lane == l && !r.applied && decide (r.cycle ≤ cycleIdx s)
  if !(s.restores.any now_) then s
  else
    let mine := fun (n : PortNo) (t : State) => match portLane n t with | some (x, _) => x == l | none => false
    restoreDone ((List.finRange 8).foldl (fun t n =>
      if mine n t then retarget true n (modPort n (fun p => { p with restricted := false }) t) else t)
      (noteRestored l { s with restores := s.restores.map fun r => if now_ r then { r with applied := true } else r }))

/-! ### Wake patterns -/

/-- The bytes a mask selects, in rising order (R232). -/
def selectedBytes (m : BitVec 128) (b : List Byte) : List Byte :=
  (List.range 128).filterMap fun i => if m.getLsbD i then b[i]? else none

/-- The frame holds every selected byte (R234). -/
def longEnough (m : BitVec 128) (b : List Byte) : Bool := (List.range 128).all fun i => !m.getLsbD i || decide (i < b.length)

/-- The lowest enabled pattern a frame matches (R233, R234). -/
def patternOf (p : LinePort) (b : List Byte) : Option (Fin 4) :=
  (List.finRange 4).find? fun k =>
    let w := p.wake[k]
    w.en && longEnough w.mask b && crc16 (selectedBytes w.mask b) == w.crc

/-- A frame on a watch port while the node watches (R235). -/
def patternWake (n : PortNo) (b : List Byte) (fcsOk : Bool) (s : State) : State :=
  let p := port n s
  if !(p.watch && p.role == 1 && p.link && fcsOk && watching s) then s
  else match patternOf p b with
    | some k => portWakes n k.val s
    | none => s

/-! ### Cable test -/

/-- A pair's result: its code, and the distance, 0xFF beyond 150 m or where the code gives none (R241, Table 5.10). -/
def pairWord (code : Nat) (m : Option (Fin 151)) : Half :=
  BitVec.ofNat 16 (code * 4096 + match m with | some d => d.val | none => 0xFF)

/-- What a test reports of pair `i` (Table 5.5a): pairs C and D are not there on an LP-2F, a closed relay set isolates the port. -/
def pairFound (n : PortNo) (i : Nat) (r : PairResult) (s : State) : Half :=
  if (slot (portSlot n) s).lp2f && decide (2 ≤ i) then pairWord 6 none
  else if !connected n s then pairWord 7 none
  else match r with
    | .normal => pairWord 1 none
    | .opened m => pairWord 2 m
    | .shorted m => pairWord 3 m
    | .crossed m => pairWord 4 m
    | .mismatch m => pairWord 5 m
    | .partner => pairWord 9 none

/-- Two pairs as a result word (Table 5.9). -/
def resWord (l : List Half) (i : Nat) : Word := word ((l.getD i 0).toNat + 65536 * (l.getD (i + 1) 0).toNat)

/-- A cable test ends with its results: event 0x3050, the response, and the port starts at its target (R239). -/
def cableEnd (n : PortNo) (l : List Half) (s : State) : State :=
  match (port n s).test with
  | none => s
  | some t =>
    let later := (port n s).changeAfterTest
    let r0 := resWord l 0
    let r1 := resWord l 2
    let s1 := modPort n (fun p => { p with test := none, cableRes0 := r0, cableRes1 := r1, changeAfterTest := false,
                                           phyOn := false }) s
    let s2 := raise 0x3050 (d1 n.val ++ d4 r0.toNat ++ d4 r1.toNat) s1
    retarget later n (respond t.port t.tag 0x0301 stOk (toLE 4 r0.toNat ++ toLE 4 r1.toNat) s2)

/-- The next pairs of a test are finished; it ends with pair D (R239). The row has no command for a single pair: a test that ends early
keeps those told so far (log entry 49). -/
def cablePairs (n : PortNo) (rs : List PairResult) (s : State) : State :=
  match (port n s).test with
  | none => s
  | some t =>
    let l := (rs.foldl (fun (d : List Half) r => d ++ [pairFound n d.length r s]) t.done).take 4
    if 4 ≤ l.length then cableEnd n l s else modPort n (fun p => { p with test := some { t with done := l } }) s

/-- A cable test is stopped: one code on every pair not yet finished (R242). -/
def cableAbort (n : PortNo) (code : Nat) (s : State) : State :=
  match (port n s).test with
  | some t => cableEnd n (t.done ++ List.replicate (4 - t.done.length) (pairWord code none)) s
  | none => s

/-- `lp_cable_test`: byte 0 names the port (R239, R240, Table 14.4, log entry 17). -/
def cableTest (r : Req) (s : State) : State :=
  authorised 0x0301 r (fun t =>
    if r.body.length ≠ 4 || 7 < byteAt r.body 0 || !zeros r.body 1 4 then malformed r 0x0301 t
    else
      let n : PortNo := asPort (byteAt r.body 0)
      let p := port n t
      if ((portLane n t).isSome && p.link) || p.test.isSome || p.changing || 3 ≤ t.bgt.level.val then answer r 0x0301 stBusy [] t
      else
        let t1 := refreshPort n (linkDropped n t)
        let t2 := modPort n (fun x => { x with test := some ⟨r.port, r.tag, []⟩ }) t1
        if fvLiveAt n t2 then cableAbort n 8 t2
        else if !slotReady (portSlot n) t2 then cableAbort n 0xA t2
        else t2) s

/-! ### Foreign voltage -/

/-- Foreign voltage on a connector that is connected to its port: the port is held down, one event for each pair (R75, R242). -/
def foreignVoltage (n : PortNo) (pairs : BitVec 4) (s : State) : State :=
  if s.cel.pstate == .off || !connected n s || (slot (portSlot n) s).st == 0 then s
  else
    let s1 := { s with sys.fvLive := s.sys.fvLive ||| BitVec.ofNat 8 (2 ^ n.val),
                       sys.fvSeen := s.sys.fvSeen ||| BitVec.ofNat 8 (2 ^ n.val) }
    let s2 := (List.range 4).foldl (fun t i => if pairs.getLsbD i then raise 0x3010 (d1 n.val ++ d1 i) t else t) s1
    let s3 := cableAbort n 8 s2
    refreshPort n (powerDown n s3)

/-- The voltage has stayed low for 1 s: the port is released (R75). -/
def voltageGone (n : PortNo) (s : State) : State :=
  if fvLiveAt n s then
    retarget false n { s with sys.fvLive := s.sys.fvLive &&& ~~~(BitVec.ofNat 8 (2 ^ n.val)) }
  else s

/-! ### Meanings -/

/-- R217. -/
def execLinkUp (port_ : PortNo) (speed : LinkSpeed) (mdix master parDet : Bool) (s : State) : Out :=
  .next (linkUp port_ speed mdix master parDet s)
/-- R217. -/
def execLinkDown (port_ : PortNo) (s : State) : Out := .next (linkDown port_ s)
/-- R216. -/
def execLossOfSignal (port_ : PortNo) (s : State) : Out := .next (signalLost port_ s)
/-- R210. -/
def execSpeedChangeAbort (port_ : PortNo) (s : State) : Out := .next (changeAbort port_ s)
/-- R210. -/
def execSpeedChangeRetry (port_ : PortNo) (s : State) : Out := .next (changeRetry port_ s)
/-- R212. -/
def execSpeedChangeOverdue (port_ : PortNo) (s : State) : Out := .next (changeOverdue port_ s)
/-- R214. -/
def execLpSpeedRestore (req : Req) (s : State) : Out := .next (speedRestore req s)
/-- R214. -/
def execSpeedRestoreCycle (lane : Lane) (s : State) : Out := .next (restoreCycle lane s)
/-- R235. -/
def execWakePatternMatch (port_ : PortNo) (bytes : List Byte) (fcsOk : Bool) (s : State) : Out :=
  .next (patternWake port_ bytes fcsOk s)
/-- R239. -/
def execLpCableTest (req : Req) (s : State) : Out := .next (cableTest req s)
/-- R239. -/
def execCableTestDone (port_ : PortNo) (first : PairResult) (more : List PairResult) (s : State) : Out :=
  .next (cablePairs port_ (first :: more) s)
/-- R75. -/
def execForeignVoltageDetected (port_ : PortNo) (pairs : BitVec 4) (s : State) : Out :=
  .next (foreignVoltage port_ pairs s)
/-- R75. -/
def execForeignVoltageCleared (port_ : PortNo) (s : State) : Out := .next (voltageGone port_ s)

end Sys2Proof.Machine
end

