-- ==== Sys2Proof/Machine/Backbone.lean ====
section
/-! DEFINITION. The backbone (chapter 4): origination and release of class U (R162 to R165), lane notices (R181), spans declared up
(R180), train time set and lost (R188 to R191, R338), flow state that ages out (R173, R174). -/
namespace Sys2Proof.Machine

/-! ### Cut-through frames -/

/-- No class U originates in this cycle: a commit cycle, from its start on (R128), or the one after a step (R188). -/
def quietNow (s : State) : Bool :=
  s.bbn.quietCycle == some (cycleStart s) || s.bbn.stepCycle == some (cycleStart s) || s.bbn.cycleChangeAt.isSome
  || (match s.rlv.commitAt with | some c => decide (c ≤ cycleIdx s) | none => false)

/-- A class U frame leaves a port at once: no queue of the port holds it. -/
def cutOut (n : PortNo) (o : OutFrame) (stomped : Bool) (s : State) : State :=
  let f := { o with firstAt := some (trainTime s) }
  frameEnds n { frame := f, startAt := s.now, endAt := s.now, preemptable := false, from_ := 0, upTo := f.bytes.length,
                stomped := stomped, queue := 7 } s

/-- The cycle in which this vertex last originated on a lane (R42). -/
def lastUrgent (l : Lane) (s : State) : Option Nat := match l with | .a => s.bbn.lastUA | .b => s.bbn.lastUB

/-- Microseconds since the last class U frame left (R601), 20 bits. -/
def urgentGap (s : State) : Nat := match s.bbn.lastUAt with | some t => sat 0xFFFFF ((s.now - t) / 1000) | none => 0xFFFFF

/-- A class U frame leaves this vertex, originated or forwarded: the first one after a takeover ends its gap (R601). -/
def noteAnyUrgent (s : State) : State :=
  { s with bbn.lastUAt := some s.now,
           red.gapUs := if 2 ≤ s.red.toStep && s.red.gapUs.isNone then some (urgentGap s) else s.red.gapUs }

/-- This vertex has originated on a lane in this cycle (R42, R601). -/
def noteUrgent (l : Lane) (s : State) : State :=
  let s1 := noteAnyUrgent s
  match l with
  | .a => { s1 with bbn.lastUA := some (cycleIdx s) }
  | .b => { s1 with bbn.lastUB := some (cycleIdx s) }

/-- The lane notices waiting for this vertex's slot on a lane. -/
def noticesOn (l : Lane) (s : State) : List NoticeDue := match l with | .a => s.bbn.noticesA | .b => s.bbn.noticesB

/-- The native frame of a lane notice (R181). -/
def noticeFrame (l : Lane) (d : NoticeDue) (s : State) : NatFrame :=
  { cls := 0, raw := false, lane := l == .b, pcp := s.tc.pcpU, sync := false, retx := false,
    epoch := BitVec.ofNat 16 s.rlv.epoch.toNat, src := vkey s, dst := allKey, srcCqp := 0, dstCqp := 0, label := nodeLabel,
    fseq := 0, payload := encodeNotice d s.rlv.epoch }

/-- The oldest notice leaves on both egresses of the lane that lead to a vertex (R166, R181). -/
def sendNotice (l : Lane) (d : NoticeDue) (s : State) : State :=
  let rest := (noticesOn l s).drop 1
  let s1 := match l with | .a => { s with bbn.noticesA := rest } | .b => { s with bbn.noticesB := rest }
  [End.e1, End.e2].foldl (fun t e =>
    match lanePort l e t with
    | some n => if spanIsUp l e t && (nbrOrd e t).isSome then cutOut n (outOf (noticeFrame l d t) none none t) false t else t
    | none => t) (noteUrgent l s1)

/-- The head of the origination queue leaves on the egress towards its destination (R162). -/
def sendUrgent (l : Lane) (s : State) : State :=
  match uQueue l s with
  | [] => s
  | o :: _ =>
    match o.nat.bind fun f => (ordOf f.dst s).bind fun k => (endTowards k s).bind fun e => (lanePort l e s).map fun n => (e, n) with
    | some (e, n) =>
      if spanIsUp l e s && (nbrOrd e s).isSome then cutOut n o false (noteUrgent l { s with bbn.uq := dropFirstU l s.bbn.uq }) else s
    | none => s

/-- The start of this vertex's own slot on a lane (R99, R128, R159, R162, R167, R181). -/
def originateU (l : Lane) (s : State) : State :=
  let k := s.rlv.ord
  let pos := cyclePos s
  let mine := decide (slotW l s * (k - 1) ≤ pos) && decide (pos < slotW l s * k)
  if !nativeRun s || s.rlv.poly.length < 2 || !mine || quietNow s || heldOrd k s || lastUrgent l s == some (cycleIdx s)
      || !urgentRuns s then s
  else match noticesOn l s with
    | d :: _ => sendNotice l d s
    | [] => sendUrgent l s

/-- The end of an egress by its direction. -/
def egressEnd (outbound : Bool) (s : State) : End :=
  if (s.rlv.refEnd.toNat == 1) == outbound then .e2 else .e1

/-- A transit frame whose instant has come is on its way: released, with a wrong FCS or length stomped (R164, R165). On an egress
whose span has gone down it is lost (R182). -/
def releaseU (l : Lane) (outbound : Bool) (s : State) : State :=
  match s.bbn.transit.find? fun x => x.lane == l && x.outbound == outbound && decide (x.instant ≤ s.now) with
  | none => s
  | some x =>
    let e := egressEnd outbound s
    let s1 := { s with bbn.transit := s.bbn.transit.erase x }
    match lanePort l e s1 with
    | none => s1
    | some n =>
      if !spanIsUp l e s1 || (nbrOrd e s1).isNone || !lanesRun s1 || !nativeRun s1 then s1
      else
        let o : OutFrame :=
          { bytes := x.bytes, nat := some x.frame, origin := none, cls := 0, pcp := x.frame.pcp, readyAt := x.hdrAt, sent := 0,
            firstAt := none, delayed := false, inPort := none, pool := 9 }
        let s2 := cutOut n o (!x.fcsOk) (noteAnyUrgent s1)
        if x.fcsOk then s2 else { s2 with bbn.cntStomp := s2.bbn.cntStomp + 1 }

/-- A class U frame outside its slack: counted, event 0x4010 at most once per second and lane (R164). -/
def lateU (l : Lane) (ord : Nat) (s : State) : State :=
  let s1 := { s with bbn.cntUlate := s.bbn.cntUlate + 1 }
  let data := d1 (Lane.num l) ++ d1 ord
  match l with
  | .a => raiseSpaced s1.bbn.lateEvA (sec 1) (fun t => { t with bbn.lateEvA := some t.now }) 0x4010 data s1
  | .b => raiseSpaced s1.bbn.lateEvB (sec 1) (fun t => { t with bbn.lateEvB := some t.now }) 0x4010 data s1

/-- Time from a position of the cycle to an instant, counted modulo the cycle. -/
def untilInstant (i pos cycle : Ns) : Ns := if pos ≤ i % cycle then i % cycle - pos else i % cycle + cycle - pos

/-- The header of a transit class U frame has been received and checked: it waits for its instant, or is discarded (R164). An
instant in the cycle after a step is judged like any other (R188). -/
def transitU (l : Lane) (e : End) (f : NatFrame) (b : List Byte) (good : Bool) (s : State) : State :=
  match ordOf f.src s with
  | none => lateU l 0 s
  | some j =>
    let out := End.other e
    let outbound := End.num out != s.rlv.refEnd.toNat
    let d := untilInstant (releaseI l j s) (cyclePos s) (cycleNs s)
    if heldOrd j s || (outbound && s.rlv.ord ≤ j) || (!outbound && j ≤ s.rlv.ord) then lateU l j s
    else if 500 ≤ d && d ≤ hopP l s then
      { s with bbn.transit := s.bbn.transit ++ [⟨l, outbound, f, b, good, s.now, s.now + d, j⟩] }
    else lateU l j s

/-! ### Spans -/

/-- A declared span has carried span sweeps for 1 s (R180, R215, R273). -/
def spanUp (l : Lane) (e : End) (s : State) : State :=
  match lanePort l e s with
  | none => s
  | some n =>
    let p := port n s
    let long := match p.sweepSince with | some t => decide (t + sec 1 ≤ s.now) | none => false
    if nativeRun s && p.link && !p.los && viewsOk n.val s && !leverBusy (portSlot n) s && sweepsOn l e s && long && !slowSpan l e s && !verifyBad p && !barredAt e s
    then declareUp l e s else s

/-! ### Train time -/

/-- This vertex is the reference apex, or alone. -/
def isReference (s : State) : Bool := decide (s.rlv.poly.length ≤ 1) || s.rlv.refKey == vkey s

/-- A step of train time at this vertex: nothing is reserved or originated in the cycle that follows (R188, R697). -/
def stepped (step : Int) (s : State) : State :=
  if step = 0 then s
  else
    let s1 := stepTime step s
    { s1 with bbn.stepCycle := some (cycleStart s1) }

/-- A difference from the time source corrected: stepped at this vertex's next cycle boundary where it may step and the difference
exceeds 10 µs, else slewed (R188). A difference beyond 10 µs at any other moment is slewed too (DESIGN CHOICE, log entry 30). While a
step waits, nothing else is corrected. -/
def correct (diff : Int) (mayStep gmStepped : Bool) (s : State) : State :=
  if s.bbn.stepDue.isSome then s
  else if mayStep && decide (10000 < diff.natAbs) then { s with bbn.stepDue := some (diff, nextCycle s, gmStepped) }
  else { settleSlew s with bbn.slew := diff }

/-- A step from the time source at the boundary it waits for (R188): event 0x4030 where the grandmaster has stepped. -/
def takeStep (s : State) : State :=
  match s.bbn.stepDue with
  | some (d, at_, told) =>
    if ttime s < at_ then s
    else
      let s1 := stepped d { s with bbn.stepDue := none }
      if told then raise 0x4030 (d8 (twos 64 d)) s1 else s1
  | none => s

/-- No Sync for 3 s (R191). In interop mode the BMCA looks for a better grandmaster anew. -/
def syncLoss (s : State) : State :=
  if s.bbn.gm then s
  else match s.bbn.lastSync with
    | some t =>
      if t + sec 3 ≤ s.now then
        raise 0x4032 [] { s with bbn.syncOk := false, bbn.lastSync := none, bbn.firstSync := true, bbn.bmca := none }
      else s
    | none => s

/-- A signed number rounded to whole milliseconds, halves away from zero, in ns (R189). -/
def wholeMs (d : Int) : Int :=
  let m := (d.natAbs + 500000) / 1000000 * 1000000
  if d < 0 then -(m : Int) else m

/-- The signed number that eight little-endian bytes spell. -/
def signed64 (v : Nat) : Int := if v < 2 ^ 63 then v else (v : Int) - (2 : Int) ^ 64

/-- The frame that carries a difference or its outcome between the vertices of R189 (log entry 23). -/
def timeSetFrame (tag : Half) (status : Nat) (body : List Byte) : List Byte :=
  encodeMgmt { opcode := 0x0401, tag := tag, status := BitVec.ofNat 8 status, more := false, event := false, rank := 4, src := 0,
               body := body }

/-- The channel whose coordinator is this train's source of time while this vertex only follows its beacons (R337, R338). -/
def beaconSource (s : State) : Option Chan := ([0, 1] : List Chan).find? fun c => (plc c s).timeSrc

/-- The reference apex takes a difference: it holds the rounded step until its next cycle boundary, or where time comes from beacons sends it to the coordinator
(R189, R338). -/
def refTakes (origin : Key) (tag : Half) (port_ : Option MgmtPort) (diff : Int) (s : State) : State :=
  let s1 := { s with bbn.setRef := s.bbn.setRef ++ [⟨origin, tag, port_, wholeMs diff, nextCycle s, none⟩] }
  match beaconSource s with
  | some c =>
    if (plc c s).coord == vkey s then s1
    else sendNode (plc c s).coord (timeSetFrame tag 0 (toLE 8 (twos 64 (wholeMs diff)))) s1
  | none => s1

/-- The node that took a request has its outcome (R189). -/
def timeSetDone (tag : Half) (status : Nat) (s : State) : State :=
  match s.bbn.setOpen.find? fun o => o.tag == tag with
  | some o => respond o.port tag 0x0401 status [] { s with bbn.setOpen := s.bbn.setOpen.erase o }
  | none => s

/-- The outcome of a step goes to the node that took the request (R189). -/
def setOutcome (x : TimeSetRef) (status : Nat) (s : State) : State :=
  let s1 := { s with bbn.setRef := s.bbn.setRef.erase x }
  match x.port with
  | some _ => timeSetDone x.tag status s1
  | none => sendNode x.origin (timeSetFrame x.tag status []) s1

/-- A class M frame of R189 from another vertex: a difference for the reference apex or, from the reference, for its coordinator;
or an outcome, which a reference that asked a coordinator passes on (R338). -/
def timeSetIn (src : Key) (tag : Half) (status : Nat) (body : List Byte) (s : State) : State :=
  if body.length = 8 then
    if isReference s then refTakes src tag none (signed64 (leAt body 0 8)) s
    else if src == s.rlv.refKey then
      { s with bbn.setRef := s.bbn.setRef ++ [⟨src, tag, none, signed64 (leAt body 0 8), 0, none⟩] }
    else s
  else if body.isEmpty then
    match s.bbn.setRef.find? fun x => x.tag == tag && x.settleBy.isNone with
    | some x => if isReference s then setOutcome x status s else timeSetDone tag status s
    | none => timeSetDone tag status s
  else s

/-- `bbn_time_set`: the difference goes to the reference apex (R189). -/
def timeSet (r : Req) (s : State) : State :=
  authorised 0x0401 r (fun t =>
    if r.body.length ≠ 8 then malformed r 0x0401 t
    else
      let far := match r.port with | .lane _ src => some src | .powerLine _ src => some src | _ => none
      match far with
      | some src => timeSetIn src r.tag 0 r.body t
      | none =>
        let diff : Int := (leAt r.body 0 8 : Int) - (ttime t : Int)
        let t1 := { t with bbn.setOpen := t.bbn.setOpen ++ [⟨r.port, r.tag, t.now + sec 15⟩] }
        if isReference t then refTakes (vkey t) r.tag (some r.port) diff t1
        else sendNode t.rlv.refKey (timeSetFrame r.tag 0 (toLE 8 (twos 64 diff))) t1) s

/-- A held step is applied (R189, R190): event 0x4030, TIME_VALID, 10 s to settle. -/
def applySet (x : TimeSetRef) (s : State) : State :=
  let y := { x with settleBy := some (s.now + sec 10) }
  let s1 := { s with bbn.setRef := s.bbn.setRef.map fun z => if z == x then y else z,
                     bbn.gmBase := if x.step = 0 then s.bbn.gmBase else s.bbn.gmBase + 1 }
  raise 0x4030 (d8 (twos 64 x.step)) (timeIsValid (stepped x.step s1))

/-- This vertex asked a coordinator to step. -/
def asksCoordinator (s : State) : Bool :=
  match beaconSource s with | some c => (plc c s).coord != vkey s | none => false

/-- The reference applies a step at the cycle boundary it holds it for, later while a tally is pending (R189). -/
def refStep (s : State) : State :=
  if s.rlv.pending.isSome || !isReference s || asksCoordinator s then s
  else match s.bbn.setRef.find? fun x => x.settleBy.isNone && decide (x.at_ ≤ ttime s) with
    | some x => applySet x s
    | none => s

/-- A cycle boundary: the steps that wait for it are applied, one from the time source (R188), one of `bbn_time_set` (R189). -/
def timeSetStep (s : State) : State := refStep (takeStep s)

/-- Every offset is back within ±1 µs, or 10 s have passed (R189). -/
def timeSetSettle (settled : Bool) (s : State) : State :=
  match s.bbn.setRef.find? fun x => x.settleBy.isSome with
  | some x => if settled then setOutcome x stOk s else if due x.settleBy s then setOutcome x stTimeout s else s
  | none => s

/-- 15 s without an outcome (R189). -/
def timeSetExpiry (s : State) : State :=
  match s.bbn.setOpen.find? fun o => decide (o.deadline ≤ s.now) with
  | some o => respond o.port o.tag 0x0401 stTimeout [] { s with bbn.setOpen := s.bbn.setOpen.erase o }
  | none => s

/-- The port this vertex takes time from: natively that at its REF_END, on lane A when that span is up, else on lane B (R186); in interop
mode the one the BMCA has chosen (R195). -/
def timePort (n : PortNo) (s : State) : Bool :=
  if isNative s then
    match portLane n s with
    | some (l, e) => End.num e == s.rlv.refEnd.toNat && (l == .a || !spanIsUp .a e s)
    | none => false
  else match s.bbn.bmca with | some (m, _) => m == n | none => false

/-- A gPTP Sync with the offset measured from this vertex's time source (R186 to R188, R190, R191). It may step at the first
synchronisation with that source and where the grandmaster has stepped. -/
def takeSync (n : PortNo) (offset : Int) (valid gmStepped : Bool) (s : State) : State :=
  if s.bbn.gm || !timePort n s then s
  else
    let beacons := (beaconSource s).isSome
    let s1 := { s with bbn.lastSync := some s.now, bbn.firstSync := false, bbn.offset := BitVec.ofInt 32 offset,
                       bbn.syncOk := decide (offset.natAbs ≤ 1000), plc := s.plc.map fun p => { p with timeSrc := false },
                       bbn.gmBase := if gmStepped then s.bbn.gmBase + 1 else s.bbn.gmBase }
    let s2 := correct (-offset) (s.bbn.firstSync || gmStepped || beacons) gmStepped s1
    if valid then timeIsValid s2 else s2

/-- This node is grandmaster in interop mode: event 0x4031. -/
def ownMaster (s : State) : State :=
  raise 0x4031 (d6 (vkey s)) { s with bbn.gm := true, bbn.syncOk := true, bbn.bmca := none, bbn.stepDue := none, bbn.lastSync := none }

/-- An Announce in interop mode (R195): the node follows a grandmaster better than the one it has, and is grandmaster itself where what
its port tells is worse. The spec gives the foreign grandmaster no key: event 0x4031 names 0 (DESIGN CHOICE, log entry 67). -/
def takeAnnounce (n : PortNo) (prio : Byte) (betterTie : Bool) (s : State) : State :=
  if isNative s || (portLane n s).isNone || !(port n s).link then s
  else
    let beatsOwn := decide (prio.toNat < s.bbn.gmPrio1.toNat) || (prio == s.bbn.gmPrio1 && betterTie)
    let follow := fun (t : State) =>
      raise 0x4031 (d6 0) { t with bbn.gm := false, bbn.syncOk := false, bbn.bmca := some (n, prio), bbn.firstSync := true,
                                   bbn.lastSync := some t.now }
    match s.bbn.bmca with
    | none => if beatsOwn then follow s else if s.bbn.gm then s else ownMaster s
    | some (m, p) =>
      if m == n then (if beatsOwn then { s with bbn.bmca := some (n, prio) } else ownMaster s)
      else if decide (prio.toNat < p.toNat) then follow s
      else s

/-! ### Flow state -/

/-- A receive flow idle for 10 s is dropped (R174); with frames still held it waits for R177. -/
def rxAge (id : FlowId) (s : State) : State :=
  match findRx id s.bbn.rxFlows with
  | some r =>
    if r.last + sec 10 ≤ s.now && r.held.isEmpty then
      { s with bbn.rxFlows := s.bbn.rxFlows.filter fun x => x.id != id }
    else s
  | none => s

/-- A send flow idle for 10 s is dropped (R173). -/
def txAge (id : FlowId) (s : State) : State :=
  match findTx id s.bbn.txFlows with
  | some f =>
    if f.last + sec 10 ≤ s.now then { s with bbn.txFlows := s.bbn.txFlows.filter fun x => x.id != id } else s
  | none => s

/-! ### Meanings -/

/-- R162. -/
def execClassUOriginate (lane : Lane) (s : State) : Out := .next (originateU lane s)
/-- R164. -/
def execClassURelease (lane : Lane) (outbound : Bool) (s : State) : Out := .next (releaseU lane outbound s)
/-- R180. -/
def execSpanUp (lane : Lane) (e : End) (s : State) : Out := .next (spanUp lane e s)
/-- R191. -/
def execSyncLoss (s : State) : Out := .next (syncLoss s)
/-- R189. -/
def execBbnTimeSet (req : Req) (s : State) : Out := .next (timeSet req s)
/-- R189. -/
def execTimeSetStep (s : State) : Out := .next (timeSetStep s)
/-- R189. -/
def execTimeSetSettleTimeout (settled : Bool) (s : State) : Out := .next (timeSetSettle settled s)
/-- R189. -/
def execTimeSetRequestTimeout (s : State) : Out := .next (timeSetExpiry s)
/-- R174. -/
def execRxFlowAgeOut (flow : FlowId) (s : State) : Out := .next (rxAge flow s)
/-- R173. -/
def execTxFlowAgeOut (flow : FlowId) (s : State) : Out := .next (txAge flow s)

end Sys2Proof.Machine
end

