-- ==== Sys2Proof/Machine/PlcLine.lean ====
section
/-! DEFINITION. A power-line channel and its line (R287 to R302): the attach sequence of Table 7.3, line classes, `plc_attach`,
zero crossings, calibration. -/
namespace Sys2Proof.Machine

/-! ### Configuration -/

/-- PLC_CFG.LINE: 0 auto, 1 AC only, 2 DC only. -/
def plcLineCfg (p : PlcChan) : Nat := fieldOf p.cfg 3 2
/-- PLC_CFG.COORD_OK. -/
def coordOkCfg (p : PlcChan) : Bool := flagOf p.cfg 5
/-- PLC_CFG.WAKE_LISTEN. -/
def wakeListen (p : PlcChan) : Bool := flagOf p.cfg 6
/-- PLC_CFG.WIN_MAX, TM_REFRESH in seconds, TM_MARGIN in dB. -/
def winMax (p : PlcChan) : Nat := fieldOf p.cfg 9 6
def tmRefresh (p : PlcChan) : Nat := fieldOf p.cfg 15 10
def tmMargin (p : PlcChan) : Nat := fieldOf p.cfg 25 3

/-- The channel may attach: its access is not off, a PC-2 is ready, nothing holds it detached, the units run (Table 7.3, Table 13.5). -/
def plcWanted (c : Chan) (s : State) : Bool :=
  plcFit c s && (s.cel.pstate == .run || (s.cel.pstate == .rising && decide (4 ≤ s.cel.step)))

/-- The relay has closed. -/
def relayClosed (p : PlcChan) : Bool :=
  match p.att with
  | .locking | .listening | .associated => true
  | _ => false

/-- The baseband runs on an attached channel: Attic's units are up (Tables 13.5, 13.6). -/
def plcRuns (c : Chan) (s : State) : Bool :=
  relayClosed (plc c s)
  && (match s.cel.pstate with
      | .run => true
      | .rising => decide (4 ≤ s.cel.step)
      | .falling => decide (5 ≤ s.cel.step)
      | _ => false)

/-- LINE_TYPE. -/
def lineType (p : PlcChan) : Nat := match p.line with | .absent => 0 | .ac => 1 | .dc => 2 | .invalid => 3 | .heating => 3
/-- PLC_LINE. -/
def plcLine (p : PlcChan) : Word := word (putBits 16 16 p.freq.toNat + putBits 8 8 p.thd.toNat + putBits 0 8 p.volts.toNat)
/-- PLC_ZC_CAL. -/
def zcCal (p : PlcChan) : Word := word (putBit 31 p.stale + putBit 30 p.calValid + putBits 0 20 p.zcOffset.toNat)

/-- 32 half-cycles: one superframe. -/
def superframe (p : PlcChan) : Ns := 32 * p.halfCycle
/-- The vertex has an accepted neighbour on a lane. -/
def laneNbrNow (s : State) : Bool := s.rlv.end1.accepted.isSome || s.rlv.end2.accepted.isSome

/-! ### Detached -/

/-- A frame that waited on a channel goes where its destination leads now. -/
def replace_ (b : List Byte) (origin : Option TxRef) (inPort : Option PortNo) (s : State) : State :=
  match decodeNatBytes b with
  | some f => launch (routeTo f.cls f.label f.dst s) f origin inPort s
  | none => completeOrigin origin stNoRoute id s

/-- A channel without its line: no station, no neighbour, no window, nothing waits. -/
def plcOff (x : PlcChan) : PlcChan :=
  { x with att := .detached, synth := false, role := 0, stn := 0, ownStn := 0, resignTo := none, coord := 0, coordLaneNbr := false,
           access := 0, timeSrc := false, firstBeacon := true, gotBeacon := false, bcnSyms := 0, bcnBody := [], bcnStn := 0, lead := 0,
           freeAllocs := [], stations := [], chords := [], allocs := [], links := [], nbrs := [], urgents := [], dataQ := [], partSent := [],
           partial_ := [], txBsn := [], rxBsn := [], blocks := [], ctlQ := [], unreach := [], soundDue := none, joinIn := none, heard := [],
           namedSince := none, nextW := none, missing := 0 }

/-- The relay opens: the channel has no station, no neighbour and no window; frames that waited on it go elsewhere, a block that was
being sent is lost. -/
def plcDown (c : Chan) (s : State) : State :=
  let p := plc c s
  let s1 := modPlc c plcOff s
  let lost := (p.blocks.map (·.done)).flatten ++ (p.partSent.filterMap (·.origin))
  let s2 := lost.foldl (fun t o => completeOrigin (some o) stOk leftByPlc t) s1
  let s3 := p.dataQ.foldl (fun t d => replace_ d.bytes d.origin d.inPort t) s2
  p.urgents.foldl (fun t u => launch (routeTo 0 u.frame.label u.frame.dst t) u.frame u.origin none t)
    { s3 with slp.wakeSend := s3.slp.wakeSend.set c none }

/-- Sensing begins (Table 7.3, step 1). -/
def plcSense (c : Chan) (s : State) : State :=
  modPlc c (fun p => { p with att := .sensing, stepAt := s.now + ms 100, retryAt := none }) s

/-- A channel that may attach and is detached begins a new attach, whose abort is noted once (R291). -/
def plcStart (c : Chan) (s : State) : State :=
  if plcWanted c s && (plc c s).att == .detached && (plc c s).retryAt.isNone then
    plcSense c (modPlc c (fun p => { p with abortNoted := false }) s)
  else s

/-- A running calibration is discarded: CAL_REFUSED with reason 0x04, event 0x6013 (Table 7.5). -/
def calDiscard (c : Chan) (s : State) : State :=
  match (plc c s).cal with
  | some k =>
    raise 0x6013 (d1 c.val ++ d1 4) (respond k.port k.tag 0x0601 stCalRefused (d1 4) (modPlc c (fun x => { x with cal := none }) s))
  | none => s

/-- The channel is detached and tries again in 2 s. -/
def plcRetryLater (c : Chan) (s : State) : State :=
  modPlc c (fun p => { p with retryAt := some (s.now + sec 2) }) (plcDown c s)

/-- An attach is aborted: counted, event 0x6002 once for it (R291 to R293); causes 0 pulled, 1 line class, 2 PC-2 gone
(DESIGN CHOICE, log entry 24). -/
def plcAbort (c : Chan) (step cause : Nat) (s : State) : State :=
  let noted := (plc c s).abortNoted
  let s1 := modPlc c (fun p => { p with cntAttachAbort := p.cntAttachAbort + 1, abortNoted := true }) (plcRetryLater c s)
  if noted then s1 else raise 0x6002 (d1 c.val ++ d1 step ++ d1 cause) s1

/-- The step of Table 7.3 an attach is in. -/
def attStep (a : AttState) : Nat :=
  match a with
  | .detached => 0
  | .sensing => 1
  | .ramp => 2
  | .closing => 3
  | .locking => 4
  | .listening => 5
  | .associated => 6

/-- The PC-2 is gone (R293): an attach is aborted, an attached channel stops, a calibration has lost its line; nothing is sensed and
nothing tried until one is seated. -/
def plcUnseat (c : Chan) (s : State) : State :=
  let st := attStep (plc c s).att
  let s1 := if 1 ≤ st && st ≤ 5 then plcAbort c st 2 s else plcDown c s
  calDiscard c (modPlc c (fun p => { p with retryAt := none, line := .absent, freq := 0, thd := 0, volts := 0, heating := false }) s1)

/-- A PC-2 is seated: its calibration holds if it was made with it, else an offset of 0 (R299). -/
def plcSeat (c : Chan) (s : State) : State :=
  let ser := (slot pcSlot s).serial
  let same := (plc c s).calSerial == ser && ser != 0
  plcStart c (modPlc c (fun p => { p with zcOffset := if same then p.zcStored else 0, calValid := same,
                                          stale := !same && p.calSerial != 0, abortNoted := false }) s)

/-! ### The attach sequence -/

/-- The line class a measurement shows (Table 7.4, Table 7.16). -/
def classifyLine (p : PlcChan) (m : LineMeas) : LineClass :=
  let ac := 70 ≤ m.acVolts
  let dc := 20 ≤ m.dcVolts
  if 300 < m.acVolts || 170 < m.dcVolts then .heating
  else if ac then
    if plcLineCfg p == 2 then .invalid
    else if (1500 ≤ m.freq && m.freq ≤ 1800) || (4500 ≤ m.freq && m.freq ≤ 6500) then .ac
    else .invalid
  else if dc then (if plcLineCfg p == 1 then .invalid else .dc)
  else .absent

/-- What is measured, as PLC_LINE shows it. -/
def noteLine (c : Chan) (k : LineClass) (m : LineMeas) (s : State) : State :=
  modPlc c (fun p =>
    { p with line := k, heating := k == .heating,
             freq := BitVec.ofNat 16 (if 70 ≤ m.acVolts then m.freq else 0), thd := BitVec.ofNat 8 (sat 255 m.thd),
             volts := BitVec.ofNat 8 (sat 255 ((if 70 ≤ m.acVolts then m.acVolts else m.dcVolts) / 2)),
             invalidNoted := k == .invalid && p.invalidNoted }) s

/-- Sense ends, at 100 ms at the latest (Table 7.3 step 1, Table 7.4): an invalid line is noted once per change of class, a heating
line at each Sense. -/
def senseEnd (c : Chan) (m : LineMeas) (s : State) : State :=
  let p := plc c s
  if p.att != .sensing then s
  else
    let k := classifyLine p m
    let s1 := noteLine c k m s
    match k with
    | .ac =>
      modPlc c (fun x => { x with att := .ramp, stepAt := s.now + ms 200, synth := false,
                                  halfCycle := if m.freq = 0 then x.halfCycle else 50000000000 / m.freq }) s1
    | .dc => modPlc c (fun x => { x with att := .ramp, stepAt := s.now + ms 200, synth := true, halfCycle := ms 10 }) s1
    | .absent => plcRetryLater c s1
    | .invalid =>
      let s2 := plcRetryLater c (modPlc c (fun x => { x with invalidNoted := true }) s1)
      if (plc c s1).invalidNoted then s2 else raise 0x6004 (d1 c.val ++ d4 (plcLine (plc c s1)).toNat) s2
    | .heating => raise 0x6005 (d1 c.val ++ d4 (plcLine (plc c s1)).toNat) (plcRetryLater c s1)

/-- The line is pulled during the ramp (R291). -/
def rampPull (c : Chan) (s : State) : State := if (plc c s).att == .ramp then plcAbort c 2 0 s else s

/-- The classification changes before the relay has closed (R292). -/
def lineClassChange (c : Chan) (m : LineMeas) (s : State) : State :=
  let p := plc c s
  let k := classifyLine p m
  if (p.att == .ramp || p.att == .closing) && k != p.line then plcAbort c (attStep p.att) 1 (noteLine c k m s) else s

/-- 2 s have passed (R291, R294, Table 7.4). -/
def attachRetry (c : Chan) (s : State) : State :=
  if (plc c s).att == .detached && due (plc c s).retryAt s && plcWanted c s then plcSense c s else s

/-- The ramp ends; the relay closes (Table 7.3, step 3). -/
def rampEnd (c : Chan) (s : State) : State :=
  let p := plc c s
  if p.att == .ramp && p.stepAt ≤ s.now then modPlc c (fun x => { x with att := .closing, stepAt := s.now + ms 35 }) s else s

/-- WAKE is sent on a channel for 2 s in the group's slot (R585). -/
def beginWakeSend (c : Chan) (s : State) : State :=
  { s with slp.wakeSend := s.slp.wakeSend.set c (some (s.now + sec 2, s.slp.group)), slp.wakePend := s.slp.wakePend.set c false }

/-- The relay has closed: locking, and WAKE where it is due (Table 7.3 step 4, R585). -/
def relayCloses (c : Chan) (s : State) : State :=
  let p := plc c s
  if p.att != .closing then s
  else
    let s1 := modPlc c (fun x => { x with att := .locking, abortNoted := false, winAt := s.now, winStart := s.now, winIdx := 0, lastFrame := s.now,
                                          lastBeacon := s.now,
                                          stepAt := s.now + (if x.line == .dc then 0 else 16 * x.halfCycle) }) s
    if s1.slp.wakePend[c] then beginWakeSend c s1 else s1

/-- The window timing follows the crossings: listening for two superframes (Table 7.3, step 5); a station that locked again after a
takeover keeps its STN (Table 19.7). -/
def lockEnd (c : Chan) (s : State) : State :=
  let p := plc c s
  if p.att == .locking then
    modPlc c (fun x => { x with att := if x.stn == 0 then .listening else .associated, stepAt := s.now + 2 * superframe x,
                                lastFrame := s.now, lastBeacon := s.now }) s
  else s

/-- A join opportunity is chosen among the next 8 at random: by a free value (R325). -/
def chooseJoin (c : Chan) (s : State) : State :=
  let d := drawFree s
  modPlc c (fun x => { x with joinIn := some (d.1 % 8) }) d.2

/-- The vertex becomes coordinator or polling master (R325): it beacons from its next window 0 on, and associates on its own channel
by a join of its own. -/
def becomeCoordinator (c : Chan) (s : State) : State :=
  let p := plc c s
  let s1 := modPlc c (fun x =>
    { x with att := .listening, role := BitVec.ofNat 2 (plcAccess p), access := BitVec.ofNat 2 (plcAccess p), stn := 0, ownStn := 0,
             coord := vkey s, coordLaneNbr := laneNbrNow s, rotation := 1, allocs := [], chords := [],
             stations := [], winIdx := 31, soundDue := none, resignTo := none }) s
  chooseJoin c (raise 0x6020 (d1 c.val ++ d6 (vkey s)) s1)

/-- A vertex that has heard no beacon becomes coordinator where it may, else goes on listening (R325). -/
def candidate (c : Chan) (s : State) : State :=
  if coordOkCfg (plc c s) then becomeCoordinator c s
  else modPlc c (fun p => { p with att := .listening, stn := 0, stepAt := s.now + 2 * superframe p }) s

/-- Listening ends (R325). -/
def listenEnd (c : Chan) (s : State) : State :=
  let p := plc c s
  if p.att == .listening && p.role == 0 && p.stepAt ≤ s.now && p.coord == 0 then candidate c s else s

/-- The line voltage is lost: behind a closed relay synthetic windows follow each other every 10 ms (R294, R300); a calibration that
runs is discarded (Table 7.5). -/
def lineLost (c : Chan) (s : State) : State :=
  let p := plc c s
  let s0 := calDiscard c s
  if relayClosed p && p.line != .absent then
    raise 0x6010 (d1 c.val) (modPlc c (fun x => { x with synth := true, line := .absent, freq := 0, volts := 0, halfCycle := ms 10 }) s0)
  else s0

/-- Nothing of any kind decoded for three superframes (R294). -/
def nothingDecoded (c : Chan) (s : State) : State :=
  let p := plc c s
  if relayClosed p && decide (p.lastFrame + 3 * superframe p ≤ s.now) then raise 0x6003 (d1 c.val) (plcRetryLater c s) else s

/-- `plc_attach`: byte 0 of what is left of its body names the channel (R295, log entry 17). -/
def plcAttach (detach : Bool) (r : Req) (s : State) : State :=
  authorised 0x0602 r (fun t =>
    if r.body.length ≠ 3 || 1 < byteAt r.body 0 || !zeros r.body 1 3 then malformed r 0x0602 t
    else
      let c : Chan := if byteAt r.body 0 = 0 then 0 else 1
      let t1 :=
        if detach then modPlc c (fun p => { p with heldOff := true, retryAt := none }) (plcDown c t)
        else plcStart c (modPlc c (fun p => { p with heldOff := false, retryAt := none }) t)
      answer r 0x0602 stOk [] t1) s

/-! ### Crossings -/

/-- ZC_OFFSET in ns. -/
def zcOffsetNs (p : PlcChan) : Int :=
  1000 * (if p.zcOffset.msb then (p.zcOffset.toNat : Int) - (2 : Int) ^ 20 else (p.zcOffset.toNat : Int))

/-- A number of ns held between two bounds. -/
def clampNs (lo hi v : Int) : Int := if v < lo then lo else if hi < v then hi else v

/-- A group's WAKE behind a corrected crossing: T/2 + (1.4·g − 2.8) ms (R587). -/
def wakeSlotNs (p : PlcChan) (g : BitVec 2) : Int := (p.halfCycle : Int) / 2 + 1400000 * (g.toNat : Int) - 2800000

/-- One WAKE while it is being sent: five symbols of SYNC, in the slot of its group behind a crossing, in the middle of a synthetic
half-cycle (R312a, R587). -/
def wakeOut (c : Chan) (crossing : Option Int) (s : State) : State :=
  let p := plc c s
  match s.slp.wakeSend[c] with
  | some (t, g) =>
    if s.now < t then
      emit (.plc c (match crossing with
        | some x => (x + wakeSlotNs p g).toNat
        | none => p.winStart + p.halfCycle / 2) wakeSymbols) s
    else s
  | none => s

/-- Window timing follows a corrected crossing: placed on it while locking, later slewed towards it by at most 20 µs per window; the
window after it starts 90 × W µs before the next crossing (R297, R300). -/
def slewTo (corrected : Int) (p : PlcChan) : PlcChan :=
  let want : Int := corrected + (p.halfCycle : Int) - (90000 * (p.nextW.getD p.w).toNat : Int)
  let now_ : Int := p.winAt
  if p.att == .locking then { p with winAt := want.toNat }
  else if p.slewedIn == p.winCount then p
  else
    let h : Int := p.halfCycle
    let d := (want - now_) % h
    { p with winAt := (now_ + clampNs (-20000) 20000 (if h < 2 * d then d - h else d)).toNat, slewedIn := p.winCount }

/-- A crossing, its instant and what the sense path measures (R296 to R298, R300): THD is checked after every 20 of a calibration. -/
def crossing (c : Chan) (measured : Ns) (m : LineMeas) (s : State) : State :=
  if !slotReady pcSlot s || classifyLine (plc c s) m != .ac then s
  else
    let p := plc c s
    let corrected : Int := (measured : Int) - zcOffsetNs p
    let s1 := noteLine c .ac m s
    let s2 := if relayClosed p then
        wakeOut c (some corrected) (modPlc c (fun x =>
          slewTo corrected { x with synth := false, missing := 0, halfCycle := 50000000000 / m.freq }) s1)
      else s1
    match p.cal with
    | some k =>
      let n := k.seen + 1
      if n % 20 = 0 && 80 ≤ m.thd then calDiscard c s2
      else modPlc c (fun x => { x with cal := some { k with seen := n } }) s2
    | none => s2

/-! ### Calibration -/

/-- Calibration refused with a reason: event 0x6012 (Table 7.5). -/
def calRefuse (c : Chan) (r : Req) (reason : Nat) (s : State) : State :=
  raise 0x6012 (d1 c.val ++ d1 reason) (answer r 0x0601 stCalRefused (d1 reason) s)

/-- `plc_cal_zc`: byte 0 names the channel (R298, Table 7.5, log entry 17); the line is judged as it is now, absent where no PC-2
senses it. A heating line is none of Table 7.4's lines that can be calibrated: refused as no line (DESIGN CHOICE, log entry 24). -/
def calZc (r : Req) (m : LineMeas) (s : State) : State :=
  authorised 0x0601 r (fun t =>
    if r.body.length ≠ 4 || 1 < byteAt r.body 0 || !zeros r.body 1 4 then malformed r 0x0601 t
    else
      let c : Chan := if byteAt r.body 0 = 0 then 0 else 1
      let p := plc c t
      if p.cal.isSome then answer r 0x0601 stBusy [] t
      else match if slotReady pcSlot t then classifyLine p m else .absent with
        | .absent => calRefuse c r 1 t
        | .heating => calRefuse c r 1 t
        | .dc => calRefuse c r 2 t
        | .invalid => calRefuse c r 5 t
        | .ac =>
          if 80 ≤ m.thd then calRefuse c r 3 t
          else modPlc c (fun x => { x with cal := some ⟨r.port, r.tag, 0⟩ }) t) s

/-- One channel's entry of a calibration sector (DESIGN CHOICE, log entry 21). -/
def calEntry (p : PlcChan) : List Byte :=
  toLE 6 p.calSerial.toNat ++ [0, 0] ++ toLE 4 p.zcStored.toNat ++ toLE 4 (bit (p.calSerial != 0))

/-- Writes held during a host operation (Table 17.8). -/
def heldWrites : Nat := 64

/-- A write of the node's own to the identity store: at once, or held while a host operation runs; past 64 held ones it is lost (R650;
DESIGN CHOICE, log entry 71). -/
def ownWrite (w : OwnWrite) (now : State → State) (s : State) : State :=
  if s.ids.op.isNone then now s
  else if s.ids.held.length < heldWrites then { s with ids.held := s.ids.held ++ [w] } else s

/-- The calibrations written, in the sector of the two that was not written last (R299, Table 17.6). -/
def writeCal (s : State) : State :=
  let first := memGet flashFill s.ids.flash 0x3020 != 0x01
  let a := if first then 0x3000 else 0x4000
  let b := if first then 0x4000 else 0x3000
  let body := calEntry (s.plc[0]) ++ calEntry (s.plc[1]) ++ [0x01]
  { s with ids.flash := memStore flashFill (memStore flashFill s.ids.flash b (List.replicate 33 0xFF)) a body }

/-- The calibrations as the identity store keeps them. -/
def storeCal (s : State) : State := ownWrite .calibration writeCal s

/-- 256 crossings measured, or THD or the line at fault on the way (R298, R299). -/
def calDone (c : Chan) (delay : BitVec 20) (thdReached lost : Bool) (s : State) : State :=
  match (plc c s).cal with
  | none => s
  | some k =>
    let s1 := modPlc c (fun x => { x with cal := none }) s
    if thdReached || lost then calDiscard c s
    else
      let s2 := storeCal (modPlc c (fun x => { x with zcOffset := delay, zcStored := delay, calValid := true, stale := false,
                                                      calSerial := (slot pcSlot s).serial }) s1)
      raise 0x6011 (d1 c.val ++ d4 (twos 32 (plc c s2).zcOffset.toInt)) (respond k.port k.tag 0x0601 stOk (d1 0) s2)

/-! ### Meanings -/

/-- R289. -/
def execPlcSenseEnd (ch : Chan) (m : LineMeas) (s : State) : Out := .next (senseEnd ch m s)
/-- R291. -/
def execPlcRampPull (ch : Chan) (s : State) : Out := .next (rampPull ch s)
/-- R291. -/
def execPlcAttachRetry (ch : Chan) (s : State) : Out := .next (attachRetry ch s)
/-- R289. -/
def execPlcRampEnd (ch : Chan) (s : State) : Out := .next (rampEnd ch s)
/-- R289. -/
def execPlcRelayClosed (ch : Chan) (s : State) : Out := .next (relayCloses ch s)
/-- R289. -/
def execPlcLockEnd (ch : Chan) (s : State) : Out := .next (lockEnd ch s)
/-- R325. -/
def execPlcListenEnd (ch : Chan) (s : State) : Out := .next (listenEnd ch s)
/-- R294. -/
def execPlcLineLost (ch : Chan) (s : State) : Out := .next (lineLost ch s)
/-- R294. -/
def execPlcNothingDecoded (ch : Chan) (s : State) : Out := .next (nothingDecoded ch s)
/-- R295. -/
def execPlcDetach (req : Req) (s : State) : Out := .next (plcAttach true req s)
/-- R295. -/
def execPlcAttachAgain (req : Req) (s : State) : Out := .next (plcAttach false req s)
/-- R292. -/
def execPlcLineClassChange (ch : Chan) (m : LineMeas) (s : State) : Out := .next (lineClassChange ch m s)
/-- R297. -/
def execZeroCrossing (ch : Chan) (measured : Ns) (m : LineMeas) (s : State) : Out := .next (crossing ch measured m s)
/-- R298. -/
def execPlcCalZc (req : CalReq) (s : State) : Out := .next (calZc req.req req.line s)
/-- R298. -/
def execCalZcDone (ch : Chan) (delayUs : BitVec 20) (thdReached lineLost_ : Bool) (s : State) : Out :=
  .next (calDone ch delayUs thdReached lineLost_ s)

end Sys2Proof.Machine
end

