-- ==== Sys2Proof/Machine/Sleep.lean ====
section
/-! DEFINITION. Network sleep (R570 to R589): keep-alives, notices, commands, the sleep instant, WAKE over the power line. -/
namespace Sys2Proof.Machine

/-! ### Messages (Table 15.3) -/

/-- A sleep message. -/
structure SleepMsg where
  type : Nat
  group : BitVec 2
  origin : Key
  num : Half
  sleepAt : Nat
  deriving DecidableEq, Repr

/-- Its 24 bytes. -/
def encodeSleep (m : SleepMsg) : List Byte :=
  toBE 1 (0x10 + m.type) ++ toBE 1 m.group.toNat ++ toBE 6 m.origin.toNat ++ toBE 2 m.num.toNat ++ [0, 0] ++ toBE 8 m.sleepAt
  ++ [0, 0, 0, 0]

/-- A sleep message, none where R574 discards it. -/
def decodeSleep (b : List Byte) : Option SleepMsg :=
  let t := byteAt b 0 % 16
  if b.length ≠ 24 || byteAt b 0 / 16 ≠ 1 || t = 0 || 4 < t || 3 < byteAt b 1 || leAt b 10 2 ≠ 0 || leAt b 20 4 ≠ 0
      || ((t = 1 || t = 4) && beAt b 12 8 ≠ 0) then none
  else some ⟨t, BitVec.ofNat 2 (byteAt b 1), mkKey (beAt b 2 6), BitVec.ofNat 16 (beAt b 8 2), beAt b 12 8⟩

/-- The class M frame of a sleep message (R573). -/
def sleepFrame (m : SleepMsg) (s : State) : NatFrame := nodeFrame allKey nodeLabel (encodeSleep m) s

/-- A sleep message leaves at an end with an accepted neighbour, on each lane up there. -/
def sleepAtEnd (e : End) (m : SleepMsg) (s : State) : State := if hasNbr e s then sendBothLanes e (sleepFrame m s) s else s

/-- A message of this vertex: on every lane with an accepted neighbour, on every channel it is associated on, to STN 127 (R571). -/
def sendSleep (type : Nat) (sleepAt : Nat) (s : State) : State :=
  let m : SleepMsg := ⟨type, s.slp.group, vkey s, s.slp.msgNum, sleepAt⟩
  let s1 := sleepAtEnd .e2 m (sleepAtEnd .e1 m { s with slp.msgNum := s.slp.msgNum + 1 })
  ([0, 1] : List Chan).foldl (fun t c =>
    if (plc c t).att == .associated then plcQueue c 127 (sleepFrame m t) none none t else t) s1

/-! ### Transitions (Table 15.4) -/

/-- AGREE includes keep-alives; sleep and awake commands. -/
def byKeepalive (s : State) : Bool := s.slp.agree != 2
def byMaster (s : State) : Bool := s.slp.agree != 1

/-- KA_AGE (R572). -/
def kaAge (s : State) : Ns := s.now - s.slp.kaSince

/-- Attic runs, in native train mode: sleep messages are sent and heard (R577). -/
def sleepRuns (s : State) : Bool := isNative s && ringsRun s

/-- SETTLING ends in AWAKE by a keep-alive or a command (R580, R586). -/
def settlingEnds (origin : Key) (s : State) : State := refreshOut1 (leaveSettling origin s)

/-- A SLEEP_AT is adopted where it is later than the one adopted (R580). -/
def adoptSleep (at_ : Nat) (s : State) : State :=
  let later := match s.slp.sleepAt with | some t => decide (t.toNat < at_) | none => true
  if s.slp.st == .settling && later then raise 0xB003 (d8 at_) { s with slp.sleepAt := some (BitVec.ofNat 64 at_) } else s

/-- KA_AGE has reached 3 s (Table 15.4); SETTLING by silence is a state of RUN (Table 15.1). -/
def kaSilence (s : State) : State :=
  if s.slp.st == .awake && isNative s && s.cel.pstate == .run && byKeepalive s && sec 3 ≤ kaAge s && (s.slp.agree != 3 || s.slp.masterArmed) then
    refreshOut1 (enterSettling s)
  else s

/-- A keep-alive of the group has been sent or received (R572, R575). -/
def keptAlive (origin : Key) (s : State) : State :=
  if !byKeepalive s then s
  else
    let s1 := { s with slp.kaSince := s.now }
    if s1.slp.st == .settling then settlingEnds origin s1 else s1

/-- A sleep command is received or originated (R575, R576, R580). -/
def sleepOrdered (at_ : Nat) (s : State) : State :=
  if !byMaster s then s
  else
    let s1 := { s with slp.masterArmed := true, slp.armedAt := some (BitVec.ofNat 64 at_) }
    let s2 := if s1.slp.agree == 2 && s1.slp.st == .awake then refreshOut1 (enterSettling s1) else kaSilence s1
    adoptSleep at_ s2

/-- An awake command is received or originated (R575, R576). -/
def awakeOrdered (origin : Key) (s : State) : State :=
  if !byMaster s then s
  else
    let s1 := { s with slp.masterArmed := false, slp.armedAt := none }
    if s1.slp.st == .settling then settlingEnds origin s1 else s1

/-- ASLEEP begins, and the fall with it (R581). -/
def enterAsleep (s : State) : State :=
  let s1 := { s with slp.st := .asleep, slp.sleepAt := none, slp.noticeSeen := false, slp.noticeMade := false, slp.localWake := false,
                     slp.localWakeDue := none, slp.cntSleep := s.slp.cntSleep + 1, slp.kaDue := none }
  requestOff (retargetWatch (refreshOut1 (raise 0xB004 [] s1)))

/-! ### Train and local wakes -/

/-- Attached channels begin to send WAKE where it is due; the others when their relay has closed (R585). -/
def startWakeSends (s : State) : State :=
  ([0, 1] : List Chan).foldl (fun t c =>
    if t.slp.wakePend[c] && relayClosed (plc c t) then beginWakeSend c t else t) s

/-- Demand arises after a local wake: a train wake with the demand as its cause, event 0xB013 (R586). -/
def localBecomesTrain (s : State) : State := startWakeSends (raise 0xB013 [] (trainWake 0 { s with slp.localWake := false }))

/-- A keep-alive while there is demand: at once, then every second (R571). -/
def keepalive (s : State) : State :=
  if !sleepRuns s || s.slp.st == .asleep then s
  else if !demand s then refreshOut1 { s with slp.kaDue := if due s.slp.kaDue s then none else s.slp.kaDue }
  else
    let s1 := if s.slp.localWake then localBecomesTrain s else s
    if match s1.slp.kaDue with | some t => decide (s1.now < t) | none => false then s1
    else refreshOut1 (keptAlive (vkey s1) (sendSleep 1 0 { s1 with slp.kaDue := some (s1.now + sec 1) }))

/-! ### Sleep messages received -/

/-- What a message of the group does here; in FALLING one that the agreement does not ignore is an on request (R576, R582). -/
def actOnSleep (m : SleepMsg) (s : State) : State :=
  let turn := fun (heard : Bool) (t : State) => if heard && t.cel.pstate == .falling then raiseCause 11 t else t
  match m.type with
  | 1 => turn (byKeepalive s) (keptAlive m.origin s)
  | 2 => adoptSleep m.sleepAt { s with slp.noticeSeen := s.slp.noticeSeen || s.slp.st == .settling }
  | 3 => sleepOrdered m.sleepAt s
  | _ => turn (byMaster s) (awakeOrdered m.origin s)

/-- A sleep message arrives at an end, or over the power line (R573, R574, R577). -/
def sleepIn (from_ : Option End) (payload : List Byte) (s : State) : State :=
  if !isNative s then s
  else match decodeSleep payload with
    | none => raiseSpaced s.slp.malformedAt (sec 1) (fun t => { t with slp.malformedAt := some t.now }) 0xB021 [] s
    | some m =>
      let seen := s.slp.seen.filter fun x => decide (s.now < x.2.2.2 + sec 1)
      if m.group != s.slp.group || m.origin == vkey s
          || (seen.any fun x => x.1 == m.type && x.2.1 == m.origin && x.2.2.1 == m.num) then s
      else
        let s1 := { s with slp.seen := seen ++ [(m.type, m.origin, m.num, s.now)] }
        let s2 := match from_ with
          | some e => sleepAtEnd (End.other e) m s1
          | none => sleepAtEnd .e2 m (sleepAtEnd .e1 m s1)
        actOnSleep m s2

/-! ### The sleep instant -/

/-- The first multiple of 4,096 ms at least a lead after now (R578). -/
def instantAfter (lead : Ns) (s : State) : Nat :=
  let t := ttime s + lead
  (t + 4095999999) / 4096000000 * 4096000000

/-- A sleep notice is computed (R579). -/
def noticeCompute (s : State) : State :=
  if s.slp.st != .settling || s.slp.localWake || s.slp.noticeMade || !byKeepalive s || !sleepRuns s
      || kaAge s < sec s.slp.sleepDelay.toNat || (s.slp.agree == 3 && !s.slp.masterArmed) then s
  else
    let i := instantAfter (sec 2) s
    let at_ := match s.slp.agree == 3, s.slp.armedAt with | true, some t => max i t.toNat | _, _ => i
    let s1 := { s with slp.noticeMade := true }
    adoptSleep at_ (if s1.slp.noticeSeen then s1 else sendSleep 2 at_ s1)

/-- The boundary at SLEEP_AT (R581). -/
def sleepInstant (s : State) : State :=
  match s.slp.sleepAt with
  | some t => if s.slp.st == .settling && t.toNat ≤ ttime s then enterAsleep s else s
  | none => s

/-- SLEEP_DELAY after a local wake without demand and without a keep-alive (R586). -/
def localTimeout (s : State) : State :=
  if s.slp.st == .settling && s.slp.localWake && due s.slp.localWakeDue s then enterAsleep s else s

/-! ### `sleep_command` (R583): ACTION is the row's own, byte 0 of what is left is GROUP -/

/-- Bytes of a `sleep_command` an action does not use are 0. -/
def sleepBody (group delay : Bool) (b : List Byte) : Bool :=
  b.length == 7 && (if group then decide (byteAt b 0 ≤ 3) else byteAt b 0 == 0) && zeros b 1 3
  && (if delay then (let d := leAt b 3 4; d == 0 || (decide (5 ≤ d) && decide (d ≤ 3600))) else zeros b 3 7)

/-- An action allowed at some authorities (Table 17.2). -/
def sleepAction (allowed : Authority → Bool) (group delay : Bool) (r : Req) (k : State → State) (s : State) : State :=
  authorised 0x0B01 r (fun t =>
    if !allowed (authorityOf r.port t) then refuse r 0x0B01 0x01 0xD001 t
    else if !sleepBody group delay r.body then malformed r 0x0B01 t
    else k t) s

/-- HOLD and RELEASE: Owner and Peer; the others: Owner and Maintainer. -/
def hostAction (a : Authority) : Bool := a == .owner || a == .peer
def ownAction (a : Authority) : Bool := a == .owner || a == .maintainer

/-- The host hold of a link (R570, R583). -/
def setHold (l : Link) (v : Bool) (s : State) : State :=
  match l with
  | .h1 => { s with slp.holdH1 := v }
  | .h2 => { s with slp.holdH2 := v }

/-- HOLD or RELEASE. -/
def sleepHold (v : Bool) (r : Req) (s : State) : State :=
  sleepAction hostAction false false r (fun t =>
    let l := reqLink r.port
    refreshOut1 (answer r 0x0B01 stOk [] (raise 0xB020 (d1 (Link.num l) ++ d1 (if v then 1 else 2)) (setHold l v t)))) s

/-- SLEEP. -/
def sleepSleep (r : Req) (s : State) : State :=
  sleepAction ownAction false true r (fun t =>
    if !isNative t then answer r 0x0B01 stBusy [] t
    else
      let d := leAt r.body 3 4
      let at_ := instantAfter (sec (if d = 0 then t.slp.sleepDelay.toNat else d)) t
      answer r 0x0B01 stOk [] (sleepOrdered at_ (sendSleep 3 at_ t))) s

/-- AWAKE. -/
def sleepAwake (r : Req) (s : State) : State :=
  sleepAction ownAction false false r (fun t =>
    if !isNative t then answer r 0x0B01 stBusy [] t
    else answer r 0x0B01 stOk [] (awakeOrdered (vkey t) (sendSleep 4 0 t))) s

/-- WAKE: in the named group's slot on every attached channel for 2 s. -/
def sleepWake (r : Req) (s : State) : State :=
  sleepAction ownAction true false r (fun t =>
    let g : BitVec 2 := BitVec.ofNat 2 (byteAt r.body 0)
    let t1 := ([0, 1] : List Chan).foldl (fun u c =>
      if relayClosed (plc c u) then { u with slp.wakeSend := u.slp.wakeSend.set c (some (u.now + sec 2, g)) } else u) t
    refreshOut1 (answer r 0x0B01 stOk [] (raise 0xB014 (d1 g.toNat) t1))) s

/-! ### WAKE -/

/-- The 2 s of a WAKE sending are over (R585, R589). -/
def wakeSendEnds (s : State) : State :=
  let ended := fun (w : Option (Ns × BitVec 2)) => match w with | some (t, _) => decide (t ≤ s.now) | none => false
  let s1 := { s with slp.wakeSend := s.slp.wakeSend.map fun w => if ended w then none else w }
  refreshOut1 { s1 with slp.wakeTrain := wakeSending s1 }

/-- A WAKE that starts a time behind the corrected crossing lies in a group's slot: within 0.35 ms of its start (R588). -/
def inWakeSlot (p : PlcChan) (g : BitVec 2) (after : Ns) : Bool :=
  decide (((after : Int) - wakeSlotNs p g).natAbs ≤ 350000)

/-- The carrier listener hears WAKE: in its group's slot on an AC line, at any phase on another (R587, R588). -/
def wakeHeard (c : Chan) (after : Ns) (s : State) : State :=
  let p := plc c s
  let mine := p.line != .ac || inWakeSlot p s.slp.group after
  if wakeListen p && relayClosed p && mine && (s.cel.pstate == .cellar || s.cel.pstate == .falling || s.slp.st == .asleep) then
    raiseCause (5 + c.val) s
  else s

/-! ### Meanings -/

/-- R571. -/
def execKeepaliveSend (s : State) : Out := .next (preemptAll (keepalive s))
/-- R575. -/
def execKaSilence (s : State) : Out := .next (kaSilence s)
/-- R579. -/
def execSleepNoticeCompute (s : State) : Out := .next (noticeCompute s)
/-- R581. -/
def execSleepInstant (s : State) : Out := .next (sleepInstant s)
/-- R583. -/
def execSleepCommandHold (req : Req) (s : State) : Out := .next (sleepHold true req s)
/-- R583. -/
def execSleepCommandRelease (req : Req) (s : State) : Out := .next (sleepHold false req s)
/-- R583. -/
def execSleepCommandSleep (req : Req) (s : State) : Out := .next (sleepSleep req s)
/-- R583. -/
def execSleepCommandAwake (req : Req) (s : State) : Out := .next (sleepAwake req s)
/-- R583. -/
def execSleepCommandWake (req : Req) (s : State) : Out := .next (sleepWake req s)
/-- R585. -/
def execWakeSendEnd (s : State) : Out := .next (wakeSendEnds s)
/-- R588. -/
def execPlcWakeHeard (ch : Chan) (after : Ns) (s : State) : Out := .next (wakeHeard ch after s)
/-- R586. -/
def execLocalWakeTimeout (s : State) : Out := .next (localTimeout s)

end Sys2Proof.Machine
end

