-- ==== Sys2Proof/Machine/Supply.lean ====
section
/-! DEFINITION. The two PW-2 (R487 to R517): presence and qualification of their inputs, hand-overs and hand-backs, who carries the
load, banks, the bank test, output faults. -/
namespace Sys2Proof.Machine

/-! ### Who carries -/

/-- A PW-2's slot as event data. -/
def pwData (m : PwNo) : List Byte := d1 m.val
/-- STATE of PWx_STATE (Table 12.12). -/
def pwCode (t : PwState) : Nat := match t with | .absent => 0 | .mains => 1 | .battery => 2 | .bank => 3 | .down => 4
/-- A PW-2 is seated. -/
def pwSeated (m : PwNo) (s : State) : Bool := (pw m s).st != .absent
/-- A PW-2 carries load: ready, not prepared for removal, in the state SOURCE shows (R498, R499, R511). -/
def pwCarries (m : PwNo) (s : State) : Bool :=
  pwReady m s && (pw m s).st != .down && pwRank (pw m s).st == sourceCode s && !leverSafe (pwSlot m) s && viewsOk (13 + m.val) s
/-- A PW-2 is in MAINS or BATTERY. -/
def pwFed (m : PwNo) (s : State) : Bool := (pw m s).st == .mains || (pw m s).st == .battery
/-- The other PW-2. -/
def pwOther (m : PwNo) : PwNo := if m = 0 then 1 else 0
/-- The bank of a PW-2 is charging (R505). -/
def charging (m : PwNo) (s : State) : Bool :=
  (pw m s).test.isNone && ((pw m s).st == .mains || ((pw m s).st == .battery && s.pwr.chgOnBatt))

/-! ### Sources -/

/-- The highest-ranked qualified source, the bank where there is none (R487, R493). -/
def bestSource (p : PwUnit) : PwState := if p.mainsQual then .mains else if p.battQual then .battery else .bank

/-- The state ranks below a source: a hand-back may lead there (R495). -/
def ranksBelow (t b : PwState) : Bool := b != .bank && (t == .down || decide (pwRank b < pwRank t))

/-- INPUT as events count it: 0 mains, 1 battery. -/
def inputCode (t : PwState) : Nat := if t == .mains then 0 else 1

/-- 1 s has passed since the last hand-back completed; DOWN does not wait (R495). -/
def spacingMet (p : PwUnit) (s : State) : Bool := p.st == .down || spaced p.lastHandback (sec 1) s

/-- A hand-back begins, waits for its spacing, or its wait ends (R495). -/
def tryHandback (m : PwNo) (s : State) : State :=
  let p := pw m s
  let b := bestSource p
  if p.st == .absent || p.outFault || p.moving.isSome then s
  else if !ranksBelow p.st b then modPw m (fun x => { x with hbWait := false }) s
  else if spacingMet p s then modPw m (fun x => { x with hbWait := false, moving := some (b, false) }) s
  else if p.hbWait then s
  else raise 0x1009 (pwData m ++ d1 (inputCode b)) (modPw m (fun x => { x with hbWait := true }) s)

/-- A bank test is stopped by a source loss (R509). -/
def abortTest (m : PwNo) (s : State) : State :=
  match (pw m s).test with
  | some (p, tag) => respond p tag 0x0110 stBusy (d1 2) (modPw m (fun x => { x with test := none }) s)
  | none => s

/-- A hand-over begins: to the highest-ranked qualified source, to the bank with no step between (R493). Until the new source carries,
the bank does, and the state is BANK: in the case of chapter 12 the other PW-2 stops carrying from its bank only at that moment (DEDUCED,
log entry 47). -/
def handOver (m : PwNo) (s : State) : State :=
  let b := bestSource (pw m s)
  if b == .bank then
    raise 0x1006 (pwData m)
      (modPw m (fun x => { x with st := .bank, moving := none, hbWait := false, cntHandover := x.cntHandover + 1 }) s)
  else modPw m (fun x => { x with st := .bank, moving := some (b, true), hbWait := false }) s

/-- The source handed over to is lost as well: the highest-ranked one still qualified, the bank at worst (R496). -/
def lostAgain (m : PwNo) (src : PwState) (s : State) : State :=
  let b := bestSource (pw m s)
  let first := if src == .mains then 1 else 0
  raise 0x100A (pwData m ++ d1 first ++ d1 (inputCode src))
    (modPw m (fun x =>
      if b == .bank then { x with st := .bank, moving := none, cntHandover := x.cntHandover + 1 }
      else { x with st := .bank, moving := some (b, true) }) s)

/-- What the loss of a source does to the state of the PW-2 (Table 12.5, R493, R495, R496, R509). -/
def afterLoss (m : PwNo) (src : PwState) (s : State) : State :=
  let s1 := abortTest 1 (abortTest 0 s)
  let p := pw m s1
  let s2 :=
    if p.moving == some (src, true) then lostAgain m src s1
    else if p.st == src then handOver m s1
    else if p.moving == some (src, false) then modPw m (fun x => { x with moving := none }) s1
    else s1
  tryHandback m s2

/-- An input is judged lost: it is neither present nor qualified. -/
def inputLost (batt : Bool) (x : PwUnit) : PwUnit :=
  if batt then { x with battPres := false, battQual := false, battSince := none }
  else { x with mainsPres := false, mainsQual := false, mainsSince := none }

/-- The band of a half-cycle of some length: false 45–65 Hz, true 15–18 Hz (R488). -/
def halfBand (half : Ns) : Option Bool :=
  if 90 * half ≤ 1000000000 ∧ 1000000000 ≤ 130 * half then some false
  else if 30 * half ≤ 1000000000 ∧ 1000000000 ≤ 36 * half then some true
  else none

/-- A half-cycle's band is inside what MAINS_BAND allows (R489). -/
def bandAllowed (cfg : BitVec 2) (band : Option Bool) : Bool :=
  match band with
  | some slow => cfg == 0 || (if slow then cfg == 2 else cfg == 1)
  | none => false

/-- Mains is declared lost (R488, R490). -/
def mainsGone (m : PwNo) (s : State) : State :=
  if !(pw m s).mainsPres then s
  else afterLoss m .mains (raise 0x1001 (pwData m) (modPw m (inputLost false) s))

/-- Why a battery input is judged lost (Table 12.2). -/
inductive BattLoss | low | high | reversed
  deriving DecidableEq, Repr

/-- What a battery voltage in 0.1 V that has stood for 1 ms means (Table 12.2). -/
def battLoss (volts : Int) : Option BattLoss :=
  if volts < 0 then some .reversed else if volts < 160 then some .low else if 1600 < volts then some .high else none

/-- The battery is judged lost (R488); above 160 V with BATT_OV (R517), reversed with BATT_REV (R76). -/
def batteryGone (m : PwNo) (why : BattLoss) (s : State) : State :=
  let p := pw m s
  if p.st == .absent then s
  else
    let s1 := match why with
      | .high =>
        if p.battOv then s else raise 0x1012 (pwData m) (modPw m (fun x => { x with battOv := true }) s)
      | .reversed => modPw m (fun x => { x with battRev := true }) s
      | .low => s
    if !p.battPres then s1
    else afterLoss m .battery (raise 0x1003 (pwData m) (modPw m (inputLost true) s1))

/-- BATT_OV clears (R517). -/
def ovClear (m : PwNo) (s : State) : State := modPw m (fun x => { x with battOv := false }) s

/-- A mains input carries what is never mains (R489). -/
def mainsBad (m : PwNo) (s : State) : State :=
  if !pwSeated m s || (pw m s).mainsInvalid then s
  else raise 0x1011 (pwData m) (modPw m (fun x => { x with mainsInvalid := true }) s)

/-- A check finds an input present: its 120 ms begin, run on, or are over and it is qualified (R488, R494, R513). -/
def inputPresent (m : PwNo) (batt : Bool) (s : State) : State :=
  let p := pw m s
  let since := if batt then p.battSince else p.mainsSince
  let qual := if batt then p.battQual else p.mainsQual
  let at_ := since.getD s.now
  let note := fun (x : PwUnit) =>
    if batt then { x with battPres := true, battRev := false, battSince := some at_ }
    else { x with mainsPres := true, mainsInvalid := false, mainsSince := some at_ }
  let s1 := modPw m note s
  if qual || s.now < at_ + ms 120 then s1
  else
    let s2 := modPw m (fun x => if batt then { x with battQual := true } else { x with mainsQual := true }) s1
    tryHandback m (raise (if batt then 0x1004 else 0x1002) (pwData m) s2)

/-- A check does not find an input present: its qualification ends and starts again, counted, event 0x1008 at most once per second
and input (R494). -/
def qualRestart (m : PwNo) (batt : Bool) (s : State) : State :=
  let p := pw m s
  if (if batt then p.battSince else p.mainsSince).isNone then s
  else
    let s1 := modPw m (fun x =>
      let y := { x with cntQualRestart := x.cntQualRestart + 1 }
      if batt then { y with battSince := none, battQual := false } else { y with mainsSince := none, mainsQual := false }) s
    let k := fun (t : State) => modPw m (fun x =>
      if batt then { x with restartEvB := some t.now } else { x with restartEvM := some t.now }) t
    tryHandback m (raiseSpaced (if batt then p.restartEvB else p.restartEvM) (sec 1) k 0x1008 (pwData m ++ d1 (bit batt)) s1)

/-- A half-cycle of mains has ended with an rms voltage in 0.1 V and a length: present from 80 to 275 V inside the band; the second in a
row below 75 or above 285 V and the fourth in a row outside the band are losses (Table 12.2, R494). -/
def mainsCheck (m : PwNo) (volts : Int) (half : Ns) (s : State) : State :=
  let band := halfBand half
  let fit := bandAllowed s.pwr.mainsBand band
  let low := decide (volts < 750) || decide (2850 < volts)
  let s1 := modPw m (fun x => { x with lowHalves := if low then x.lowHalves + 1 else 0, oddHalves := if fit then 0 else x.oddHalves + 1,
                                       slowLine := if fit then band == some true else x.slowLine }) s
  let s2 := if fit && decide (800 ≤ volts) && decide (volts ≤ 2750) then inputPresent m false s1 else qualRestart m false s1
  if 2 ≤ (pw m s2).lowHalves || 4 ≤ (pw m s2).oddHalves then mainsGone m s2 else s2

/-- The battery's check at 1 ms, with its voltage in 0.1 V: present from 16.8 to 154 V (Table 12.2, R494). -/
def battCheck (m : PwNo) (volts : Int) (s : State) : State :=
  if 168 ≤ volts ∧ volts ≤ 1540 then inputPresent m true s
  else qualRestart m true (modPw m (fun x => { x with battRev := decide (volts < 0) }) s)

/-- A check of an input (R488, R494). -/
def inputCheck (m : PwNo) (batt : Bool) (volts : Int) (half : Ns) (s : State) : State :=
  if !pwSeated m s then s else if batt then battCheck m volts s else mainsCheck m volts half s

/-- The voltage of a mains input has stayed below 60 V for some time: lost after 12 ms, on a 15–18 Hz line after 36 ms (Table 12.2). -/
def mainsBelow (m : PwNo) (below : Ns) (s : State) : State :=
  if (if (pw m s).slowLine then ms 36 else ms 12) ≤ below then mainsGone m s else s

/-- The new source of a hand-over carries (R493). -/
def handoverDone (m : PwNo) (s : State) : State :=
  match (pw m s).moving with
  | some (t, true) =>
    let s1 := modPw m (fun x => { x with st := t, moving := none, cntHandover := x.cntHandover + 1 }) s
    tryHandback m (if t == .battery then raise 0x1005 (pwData m) s1 else s1)
  | _ => s

/-- A hand-back completes (R495). -/
def handbackDone (m : PwNo) (s : State) : State :=
  match (pw m s).moving with
  | some (t, false) =>
    let s1 := modPw m (fun x => { x with st := t, moving := none, lastHandback := some s.now, cntHandback := x.cntHandback + 1 }) s
    tryHandback m (raise 0x1007 (pwData m ++ d1 (pwCode t)) s1)
  | _ => s

/-- 1 s has passed since the last hand-back of a PW-2 that waits (R495). -/
def spacingEnd (m : PwNo) (s : State) : State := if (pw m s).hbWait then tryHandback m s else s

/-! ### Load and banks -/

/-- One PW-2 has carried more than 70 % for 1 s with both carrying (R498). -/
def shareUnequal (m : PwNo) (share : Nat) (s : State) : State :=
  if pwCarries 0 s && pwCarries 1 s && 70 < share then raise 0x1030 (pwData m ++ d1 share) s else s

/-- What a PW-2 meters, as its registers show it (R510, Table 12.12); a bank no longer at 98 % of CAP is not full. -/
def meter (x : PwUnit) (k : PwMeas) : PwUnit :=
  { x with mainsFreq := k.mainsFreq, mainsV := k.mainsV, battI := k.battI, battV := if x.battRev then 0 else k.battV,
           energy := k.energy, inPower := k.inPower, outPower := k.outPower, eMains := k.eMains, eBatt := k.eBatt, eBank := k.eBank,
           eOut := k.eOut, bankFull := x.bankFull && decide (98 * x.cap ≤ 100 * k.energy) }

/-- A bank that carries load and has reached 0 takes its PW-2 DOWN, from where a qualified source takes it back (Table 12.5). -/
def bankToDown (m : PwNo) (s : State) : State :=
  if pwCarries m s && (pw m s).st == .bank && (pw m s).energy = 0 then
    tryHandback m (modPw m (fun x => { x with st := .down, moving := none }) s)
  else s

/-- RIDE_S: the banks' energy over the load, s, saturating (R504). -/
def rideOf (energy load : Nat) : Nat := if load = 0 then 4095 else sat 4095 (energy * 10 / load)

/-- Every 100 ms (R504). -/
def rideUpdate (a b : PwMeas) (load : Nat) (s : State) : State :=
  let take := fun (m : PwNo) (k : PwMeas) (t : State) => if pwSeated m t then modPw m (fun x => meter x k) t else t
  let s1 := ldgReading 1 (ldgReading 0 (take 1 b (take 0 a { s with pwr.load := sat 1023 load })))
  let s2 := { s1 with pwr.rideS := rideOf (bankEnergy s1) s1.pwr.load }
  bankToDown 1 (bankToDown 0 s2)

/-- A measured capacity (R508). -/
def takeCap (m : PwNo) (cap : Nat) (s : State) : State :=
  let low := decide (cap < 300)
  let s1 := modPw m (fun x => { x with cap := sat 1023 cap, bankLow := low }) s
  if low && !(pw m s).bankLow then raise 0x1021 (pwData m ++ d4 cap) s1 else s1

/-- A charging bank has reached 98 % of CAP (R505, R508). -/
def bankFull (m : PwNo) (cap : Option Nat) (s : State) : State :=
  if !(pwSeated m s && charging m s) then s
  else
    let s1 := match cap with | some c => takeCap m c s | none => s
    let full := (98 * (pw m s1).cap + 99) / 100
    let s2 := modPw m (fun x => { x with bankFull := true, energy := max x.energy full }) s1
    if (pw m s).bankFull then s2 else raise 0x1020 (pwData m) s2

/-- `pwr_bank_test`: byte 0 names the PW-2 (R509, log entry 17). -/
def bankTest (r : Req) (s : State) : State :=
  authorised 0x0110 r (fun t =>
    if r.body.length ≠ 4 || 1 < byteAt r.body 0 || !zeros r.body 1 4 then malformed r 0x0110 t
    else
      let m : PwNo := if byteAt r.body 0 = 0 then 0 else 1
      let o := pwOther m
      if t.cel.pstate == .run && pwReady m t && pwFed m t && (pw m t).bankFull && pwReady o t && pwFed o t
          && (pw m t).test.isNone && (pw o t).test.isNone then
        modPw m (fun x => { x with test := some (r.port, r.tag) }) t
      else busy r 0x0110 1 t) s

/-- 100 J have been delivered: CAP, event 0x1023, the response (R508, R509). -/
def bankTestDone (m : PwNo) (cap : Nat) (s : State) : State :=
  match (pw m s).test with
  | none => s
  | some (p, tag) =>
    let s1 := takeCap m cap (modPw m (fun x => { x with test := none, bankFull := false }) s)
    respond p tag 0x0110 stOk (toLE 2 (sat 1023 cap)) (raise 0x1023 (pwData m ++ d4 cap) s1)

/-- An output stage fails (R515): DOWN, faulted, and the other carries on. -/
def outputFault (m : PwNo) (s : State) : State :=
  if !pwSeated m s || (pw m s).outFault then s
  else
    let s1 := abortTest m s
    let s2 := modPw m (fun x => { x with st := .down, outFault := true, moving := none, hbWait := false }) s1
    raise 0x1031 (pwData m) (modSlot (pwSlot m) (fun x => { x with st := 3 }) s2)

/-- A seated PW-2 joins in the state its inputs give, none of them qualified yet (R513). -/
def pwSeat (m : PwNo) (serial : Key) (s : State) : State :=
  modPw m (fun _ => { PwUnit.reset with st := .bank, serial := serial }) s

/-- A PW-2 is gone: its page reads 0 (R512, Table 12.12). -/
def pwUnseat (m : PwNo) (s : State) : State := modPw m (fun _ => PwUnit.reset) (abortTest 1 (abortTest 0 s))

/-- A change of MAINS_BAND restarts the qualification of both mains inputs; what carries keeps carrying (Setting it up). -/
def setPwrCfg (band : BitVec 2) (chg : Bool) (s : State) : State :=
  let s1 := { s with pwr.mainsBand := band, pwr.chgOnBatt := chg }
  if band == s.pwr.mainsBand then s1
  else
    let restart := fun (m : PwNo) (t : State) => tryHandback m (modPw m (fun x => { x with mainsSince := none, mainsQual := false }) t)
    restart 1 (restart 0 s1)

/-! ### Meanings -/

/-- R490. -/
def execMainsLost (low : MainsLow) (s : State) : Out := .next (mainsBelow low.pw low.below s)
/-- R488. -/
def execBatteryLost (pw : PwNo) (volts : Int) (s : State) : Out :=
  .next (match battLoss volts with | some why => batteryGone pw why s | none => s)
/-- R517. -/
def execBattOvClear (pw : PwNo) (s : State) : Out := .next (ovClear pw s)
/-- R489. -/
def execMainsInvalid (pw : PwNo) (s : State) : Out := .next (mainsBad pw s)
/-- R493. -/
def execHandoverDone (pw : PwNo) (s : State) : Out := .next (handoverDone pw s)
/-- R494. -/
def execInputQualified (pw : PwNo) (batt : Bool) (reading : InputReading) (s : State) : Out :=
  .next (inputCheck pw batt reading.volts reading.half s)
/-- R495. -/
def execHandbackSpacingEnd (pw : PwNo) (s : State) : Out := .next (spacingEnd pw s)
/-- R495. -/
def execHandbackDone (pw : PwNo) (s : State) : Out := .next (handbackDone pw s)
/-- R498. -/
def execLoadShareUnequal (pw : PwNo) (share : Nat) (s : State) : Out := .next (shareUnequal pw share s)
/-- R504. -/
def execRideSUpdate (a b : PwMeas) (load : Nat) (s : State) : Out := .next (rideUpdate a b load s)
/-- R505. -/
def execBankFull (pw : PwNo) (cap : Option Nat) (s : State) : Out := .next (bankFull pw cap s)
/-- R509. -/
def execPwrBankTest (req : Req) (s : State) : Out := .next (bankTest req s)
/-- R509. -/
def execBankTestDone (pw : PwNo) (cap : Nat) (s : State) : Out := .next (bankTestDone pw cap s)
/-- R515. -/
def execOutputFault (pw : PwNo) (s : State) : Out := .next (outputFault pw s)

end Sys2Proof.Machine
end

