-- ==== Sys2Proof/Machine/Budget.lean ====
section
/-! DEFINITION. The energy and heat budget (chapter 14): the five caps, the level they give, going deeper at once and shallower after a
hold, what entering L4 discards, `budget_limit`. -/
namespace Sys2Proof.Machine

/-! ### Caps (Table 14.1) -/

/-- Load ceiling of a level, W (Table 14.2); L5 has none. -/
def ceilingW (k : Nat) : Nat := match k with | 0 => 46 | 1 => 30 | 2 => 20 | 3 => 14 | _ => 9

/-- Source cap (R546). -/
def srcCapNow (s : State) : Nat := if sourceCode s = 1 then s.bgt.battLevel.toNat else 0

/-- Energy cap (R547): the shallowest level whose ceiling the banks carry for RIDE_TARGET. -/
def energyCapNow (s : State) : Nat :=
  if sourceCode s ≠ 2 then 0
  else ((List.range 4).find? fun k => decide (ceilingW k * s.bgt.rideTarget.toNat ≤ bankEnergy s)).getD 4

/-- Threshold that deepens the heat cap to `k`, °C (Table 14.3). -/
def heatAt (base k : Nat) : Int := (base : Int) + 5 * ((k : Int) - 1)

/-- Heat cap that a temperature alone gives. -/
def heatReached (base : Nat) (t : Int) : Nat := ((List.range 4).filter fun k => decide (heatAt base (k + 1) ≤ t)).length

/-- Heat cap with its 5 °C of hysteresis: `fuel` levels down from the present one (R548). -/
def heatFall (base : Nat) (t : Int) : Nat → Nat → Nat
  | 0, h => h
  | fuel + 1, h => if heatReached base t < h && decide (t ≤ heatAt base h - 5) then heatFall base t fuel (h - 1) else h

/-- Heat cap after a reading (R548). -/
def heatCapNow (s : State) : Nat :=
  let base := s.bgt.heatBase.toNat
  let t := s.bgt.tCx2.toInt
  if s.bgt.heatCap ≤ heatReached base t then heatReached base t else heatFall base t 4 s.bgt.heatCap

/-- Load cap (R565): none on mains; one shallower once LOAD has stayed at 80 % of that level's ceiling for RESTORE_HOLD. -/
def loadCapNow (s : State) : Nat :=
  if sourceCode s = 0 then 0
  else match s.bgt.lowSince with
    | some t => if t + sec s.bgt.restoreHold.toNat ≤ s.now then s.bgt.loadCap - 1 else s.bgt.loadCap
    | none => s.bgt.loadCap

/-- LOAD in 0.1 W is low enough for the next shallower load cap. -/
def loadLow (s : State) : Bool := decide (0 < s.bgt.loadCap) && decide (s.pwr.load ≤ 8 * ceilingW (s.bgt.loadCap - 1))
/-- LOAD in 0.1 W is above the ceiling of the level. -/
def loadOver (s : State) : Bool := sourceCode s ≠ 0 && decide (10 * ceilingW s.bgt.level.val < s.pwr.load)

/-- A condition's start: kept while it holds. -/
def sinceIf (c : Bool) (t : Option Ns) (s : State) : Option Ns := if c then some (t.getD s.now) else none

/-- The caps and the timers behind them, from the figures the state holds; a new heat cap writes event 0x1043 (R545 to R549, R565). -/
def takeCaps (s : State) : State :=
  let base := (s.bgt.heatBase.toNat : Int)
  let t := s.bgt.tCx2.toInt
  let heat := heatCapNow s
  let load := loadCapNow s
  let s1 := { s with
    bgt.srcCap := srcCapNow s, bgt.energyCap := energyCapNow s, bgt.heatCap := heat, bgt.loadCap := load,
    bgt.overSince := sinceIf (loadOver s) s.bgt.overSince s,
    bgt.hotSince := sinceIf (decide (base + 25 ≤ t)) s.bgt.hotSince s, bgt.hotOff := s.bgt.hotOff && decide (base ≤ t) }
  let s2 := { s1 with bgt.lowSince := if load < s.bgt.loadCap then sinceIf (loadLow s1) none s1
                                      else sinceIf (loadLow s1) s.bgt.lowSince s1 }
  if heat = s.bgt.heatCap then s2 else raise 0x1043 (d1 heat ++ d2 (twos 16 t)) s2

/-- The level the caps require (R545). -/
def capLevel (s : State) : Nat :=
  min 4 (max (max s.bgt.srcCap s.bgt.energyCap) (max s.bgt.heatCap (max s.bgt.loadCap s.bgt.hostCap)))

/-! ### Levels -/

/-- A level as a Fin 6. -/
def asLevel (k : Nat) : Fin 6 := ⟨k % 6, Nat.mod_lt _ (by decide)⟩

/-- The level with the time spent at the one before (BGT_TIME_Lk). -/
def noteLevel (k : Nat) (s : State) : State :=
  let l := s.bgt.level
  { s with bgt.level := asLevel k, bgt.levelSince := s.now,
           bgt.timeNs := s.bgt.timeNs.set l (s.bgt.timeNs[l] + (s.now - s.bgt.levelSince)) }

/-- PLC transmit duty limit of a level, % (Table 14.4). -/
def dutyOf (k : Nat) : Byte := match k with | 0 => 100 | 1 => 25 | 2 => 15 | 3 => 10 | _ => 5

/-- What a level sets at once: the PLC duty limit (R563), the consist ports' limits (R558). -/
def levelActs (s : State) : State :=
  retargetAll { s with plc := s.plc.map fun p => { p with dutyLimit := dutyOf s.bgt.level.val } }

/-- Frames of class S or B. -/
def isSB (c : BitVec 2) : Bool := decide (2 ≤ c.toNat)

/-- A queued frame that L4 discards: class S or B in transit. -/
def shedOut (s : State) (f : OutFrame) : Bool := isSB f.cls && !localFrame f s
/-- A waiting item that L4 discards: a raw frame. -/
def shedRx (i : RxItemDue) : Bool := i.raw

/-- A descriptor's completion will say DELAYED. -/
def markDelayed (r : TxRef) (s : State) : State :=
  modCtx r.link r.cqp (fun x => { x with txPend := x.txPend.map fun t => if t.idx == r.idx then { t with delayed := true } else t }) s

/-- Entering L4 (R560): local S and B frames that have not begun to leave are held and will be DELAYED; transit S and B frames and
waiting raw frames are discarded and counted. -/
def shedL4 (s : State) : State :=
  let gone := (s.lp.toList.map fun p => (p.queues.toList.flatten.filter (shedOut s)).length).sum
    + (s.plc.toList.map fun p => (p.dataQ.filter fun d => d.deep && d.origin.isNone).length).sum
    + ((storedRx s).filter shedRx).length
  let hold := fun (f : OutFrame) => if isSB f.cls then { f with delayed := true } else f
  let ctxf := fun (x : Ctx) => { x with rxWait := x.rxWait.filter fun i => !shedRx i }
  let refs := (s.plc.toList.flatMap fun p => p.dataQ.filterMap fun d => if d.deep then d.origin else none)
  let s1 : State := { s with
    lp := s.lp.map fun p => { p with queues := p.queues.map fun q => (q.filter fun f => !shedOut s f).map hold },
    plc := s.plc.map fun p => { p with dataQ := p.dataQ.filter fun d => !d.deep || d.origin.isSome },
    hif.h1 := { s.hif.h1 with ctx0 := ctxf s.hif.h1.ctx0 }, hif.h2 := { s.hif.h2 with ctx0 := ctxf s.hif.h2.ctx0 },
    hif.ctxs := s.hif.ctxs.map fun x => (x.1, ctxf x.2),
    bgt.cntShed := s.bgt.cntShed + BitVec.ofNat 32 gone }
  flowCheckAll (refs.foldl (fun t r => markDelayed r t) s1)

/-- The levels act from the end of S4 through RUN and FALLING (R552). -/
def levelsAct (s : State) : Bool :=
  match s.cel.pstate with
  | .run | .falling => true
  | .rising => decide (5 ≤ s.cel.step)
  | _ => false

/-- A deeper level is taken (R553): event 0x1040 with the five caps, and what every level passed does. -/
def goDeeper (k : Nat) (s : State) : State :=
  let old := s.bgt.level.val
  let b := s.bgt
  let data := d1 old ++ d1 k ++ d1 b.srcCap ++ d1 b.energyCap ++ d1 b.heatCap ++ d1 b.loadCap ++ d1 b.hostCap
  let s1 := raise 0x1040 data { noteLevel k s with bgt.cntDeeper := s.bgt.cntDeeper + 1, bgt.holdUntil := none }
  levelActs (if k = 4 && old < 4 then shedL4 s1 else s1)

/-- The levels of the states in which they do not act: what would apply (R552). -/
def showLevel (s : State) : State := if s.cel.pstate == .lastGasp || s.cel.pstate == .off then s else noteLevel (capLevel s) s

/-- An evaluation with the caps as they are (R552 to R554): deeper at once; shallower starts a hold, not shallower ends it. -/
def evaluate (s : State) : State :=
  let s1 := takeCaps s
  let k := capLevel s1
  if !levelsAct s1 then showLevel s1
  else if s1.bgt.level.val < k then goDeeper k s1
  else if k < s1.bgt.level.val then
    { s1 with bgt.holdUntil := some (s1.bgt.holdUntil.getD (s1.now + sec s1.bgt.restoreHold.toNat)) }
  else { s1 with bgt.holdUntil := none }

/-- The level computed at the end of S4 applies from there (R555). -/
def firstLevel (s : State) : State :=
  let s1 := takeCaps s
  levelActs { noteLevel (capLevel s1) s1 with bgt.holdUntil := none }

/-- An evaluation with new readings: the chassis and die temperatures, LOAD in 0.1 W; a rise that heat held begins as HOT_OFF clears
(R549). -/
def budgetEvaluate (tChassis tCx2 : Byte) (load : Nat) (s : State) : State :=
  if s.cel.pstate == .off || s.cel.pstate == .lastGasp then s
  else (if s.bgt.hotOff then retryHeld else id) <| evaluate { s with bgt.tChassis := tChassis, bgt.tCx2 := tCx2, pwr.load := sat 1023 load }

/-- The hold is over: one level shallower, the next 1 s later (R554). -/
def riseLevel (s : State) : State :=
  if !(levelsAct s && due s.bgt.holdUntil s) then s
  else if s.bgt.level.val ≤ capLevel s then { s with bgt.holdUntil := none }
  else
    let old := s.bgt.level.val
    let s1 := { noteLevel (old - 1) s with bgt.cntShallower := s.bgt.cntShallower + 1 }
    let s2 := { s1 with bgt.holdUntil := if capLevel s1 < old - 1 then some (s1.now + sec 1) else none }
    levelActs (raise 0x1041 (d1 old ++ d1 (old - 1)) s2)

/-- LOAD has been above the ceiling for 500 ms (R565). -/
def overrun (s : State) : State :=
  match s.bgt.overSince with
  | some t =>
    if !loadOver s || s.now < t + ms 500 then s
    else
      raise 0x1044 (d1 s.bgt.level.val ++ d2 s.pwr.load)
        { s with bgt.loadCap := min 4 (s.bgt.level.val + 1), bgt.cntOverrun := s.bgt.cntOverrun + 1, bgt.overSince := some s.now,
                 bgt.lowSince := none }
  | none => s

/-- The die has been at HEAT_BASE + 25 °C for 1 s (R549); a node that rose again while HOT_OFF is set acts on it again. -/
def tooHot (s : State) : State :=
  match s.bgt.hotSince with
  | some t =>
    let again := s.bgt.hotOff && !(s.cel.pstate == .run || (s.cel.pstate == .rising && s.cel.latch != .offReq))
    if again || s.now < t + sec 1 then s
    else requestOff (raise 0x1045 (d2 (twos 16 s.bgt.tCx2.toInt)) { s with bgt.hotOff := true })
  | none => s

/-! ### `budget_limit` (R551) -/

/-- A request for a level; DURATION stands in its last four bytes. -/
def limitTo (r : Req) (k : Nat) (body : List Byte) (s : State) : State :=
  let d := leAt body 3 4
  if body.length ≠ 7 || !zeros body 0 3 || 86400 < d then malformed r 0x0120 s
  else
    let s1 := { s with bgt.hostCap := k, bgt.hostCapUntil := if k = 0 || d = 0 then none else some (s.now + sec d) }
    answer r 0x0120 stOk (d1 s1.bgt.level.val) (raise 0x1042 (d1 (portCode r.port) ++ d1 k ++ d4 (if k = 0 then 0 else d)) s1)

/-- LEVEL 1 to 4. -/
def limitSet (r : Req) (s : State) : State :=
  authorised 0x0120 r (fun t =>
    let k := byteAt r.body 0
    if r.body.isEmpty || k = 0 || 4 < k then malformed r 0x0120 t else limitTo r k (r.body.drop 1) t) s

/-- LEVEL 0. -/
def limitClear (r : Req) (s : State) : State := authorised 0x0120 r (fun t => limitTo r 0 r.body t) s

/-- DURATION expires. -/
def limitExpiry (s : State) : State :=
  if due s.bgt.hostCapUntil s then { s with bgt.hostCap := 0, bgt.hostCapUntil := none } else s

/-! ### Meanings -/

/-- R552. -/
def execBudgetEvaluate (tChassis tCx2 : Byte) (load : Nat) (s : State) : Out := .next (budgetEvaluate tChassis tCx2 load s)
/-- R554. -/
def execBudgetRiseHoldEnd (s : State) : Out := .next (riseLevel s)
/-- R565. -/
def execLoadOverrun (s : State) : Out := .next (overrun s)
/-- R549. -/
def execHeatOff (s : State) : Out := .next (tooHot s)
/-- R551. -/
def execBudgetLimitSet (req : Req) (s : State) : Out := .next (limitSet req s)
/-- R551. -/
def execBudgetLimitClear (req : Req) (s : State) : Out := .next (limitClear req s)
/-- R551. -/
def execHostCapExpiry (s : State) : Out := .next (limitExpiry s)

end Sys2Proof.Machine
end

