-- ==== Sys2Proof/Machine/Inputs.lean ====
section
/-! DEFINITION. The coupling inputs and the contacts of the VX-2 (R370 to R375, R378 to R380): debounced values, discrepancy,
values changing, OUT0, OUT1, contact tests. -/
namespace Sys2Proof.Machine

/-! ### Pairs -/

/-- N: DISC_MS in Cellar ticks (R371). -/
def discTicks (p : PairInput) : Ticks := (1024 * p.discMs.toNat + 999) / 1000

/-- A pair, changed. -/
def modPair (p : PairNo) (f : PairInput → PairInput) (s : State) : State :=
  { s with vx.pairs := s.vx.pairs.set p (f s.vx.pairs[p]) }

/-- The INPUT wake cause of a pair, where IN_WAKE selects it (Table 13.8). -/
def inputWake (p : PairNo) (s : State) : State := if s.cel.inWake.getLsbD p.val then raiseCause 9 s else s

/-- A pair restarts in SETTLING (R370, R372, R377). -/
def settlePair (c : PairInput) : PairInput :=
  { c with st := .settling, debA := false, debB := false, value := false, hasA := false, hasB := false, everAgreed := false,
           sinceTick := none, broke := none }

/-- The channels of a pair agree: AGREED with their common value. Leaving UNKNOWN writes event 0x7021; a value that differs
from the one before, but for the first, writes 0x7022, is an INPUT cause and may end a hold (R91, R374, R375). -/
def pairAgreed (p : PairNo) (s : State) : State :=
  let x := s.vx.pairs[p]
  let v := x.debA
  let changed := x.everAgreed && x.value != v
  let s1 := modPair p (fun c => { c with st := .agreed, value := v, everAgreed := true, sinceTick := none, broke := none }) s
  let s2 := if x.st == .unknown then raise 0x7021 (d1 p.val ++ d1 (bit v)) s1 else s1
  let s3 := if changed then inputWake p (raise 0x7022 (d1 p.val ++ d1 (bit v)) s2) else s2
  refreshEnd (pairEnd p) (inactiveEndsHold (pairEnd p) s3)

/-- A pair becomes UNKNOWN (R374); `agreeing` since a tick already. -/
def pairLost (p : PairNo) (agreeing : Option Ticks) (s : State) : State :=
  let x := s.vx.pairs[p]
  let s1 := modPair p (fun c => { c with st := .unknown, fault := true, sinceTick := agreeing, broke := none }) s
  let s2 := raise 0x7020 (d1 p.val ++ d1 (bit x.debA) ++ d1 (bit x.debB)) s1
  refreshEnd (pairEnd p) (inputWake p s2)

/-- The input monitors run: a VX-2 is seated and the node is not OFF. -/
def monitorsRun (s : State) : Bool := slotReady vxSlot s && !leverSafe vxSlot s && s.cel.pstate != .off

/-- What follows from a pair's debounced channels at a tick (R371 to R374). -/
def pairDecide (p : PairNo) (t : Ticks) (s : State) : State :=
  let x := s.vx.pairs[p]
  if !(x.hasA && x.hasB) then s
  else if x.st == .unknown then
    if x.debA == x.debB then
      let since := match x.broke with | some (at_, b) => if at_ = t then b else t | none => t
      modPair p (fun c => { c with sinceTick := some since, broke := none }) s
    else modPair p (fun c => { c with sinceTick := none, broke := c.sinceTick.map fun b => (t, b) }) s
  else if x.debA != x.debB then
    modPair p (fun c => { c with sinceTick := some (c.sinceTick.getD t),
                                 st := if c.st == .agreed then .discrepant else c.st }) s
  else match x.sinceTick with
    | some t0 => if discTicks x + 2 ≤ t - t0 then pairLost p (some t) s else pairAgreed p s
    | none => pairAgreed p s

/-- A channel's reading of a voltage in 0.1 V: high above ON_LEVEL, low below 0.9 × ON_LEVEL, else as it was (R369). -/
def reading (onLevel : Nat) (last : Bool) (v : Int) : Bool :=
  if 10 * (onLevel : Int) < v then true else if v < 9 * (onLevel : Int) then false else last

/-- The reading after consecutive samples, and for how many of them it has stood. -/
def readings (onLevel : Nat) (last : Bool) (l : List Int) : Bool × Nat :=
  l.foldl (fun (r : Bool × Nat) v => let n := reading onLevel r.1 v; (n, if n == r.1 then r.2 + 1 else 1)) (last, 0)

/-- A channel's samples at consecutive Cellar ticks up to this one: at the DEBOUNCE-th consecutive sample of a reading the debounced
value has it (R370). The samples begin at a tick at which the channel read as its debounced value, low where it has none yet, or decide
the reading themselves. -/
def debounced (p : PairNo) (chB : Bool) (volts : List Int) (s : State) : State :=
  let c := s.vx.pairs[p]
  let had := if chB then c.debB else c.debA
  let r := readings c.onLevel.toNat had volts
  let same := (if chB then c.hasB else c.hasA) && r.1 == had
  if !monitorsRun s || same || decide (r.2 < c.debounce.toNat) then s
  else pairDecide p (mono s) (modPair p (fun c =>
    if chB then { c with debB := r.1, hasB := true } else { c with debA := r.1, hasA := true }) s)

/-- A disagreement of N − 1 ticks or more may make the pair UNKNOWN (R373). -/
def disagreeLong (p : PairNo) (s : State) : State :=
  let x := s.vx.pairs[p]
  match x.sinceTick with
  | some t0 =>
    if monitorsRun s && x.st != .unknown && decide (discTicks x ≤ mono s - t0 + 1) then pairLost p none s else s
  | none => s

/-- An UNKNOWN pair at its N-th agreeing tick (R374). -/
def agreeLong (p : PairNo) (s : State) : State :=
  let x := s.vx.pairs[p]
  match x.sinceTick with
  | some t0 =>
    if monitorsRun s && x.st == .unknown && x.debA == x.debB && decide (discTicks x ≤ mono s - t0 + 1) then pairAgreed p s else s
  | none => s

/-! ### Contacts -/

/-- Some condition that HEALTH_MASK selects is present. -/
def maskedHealth (s : State) : Bool := (healthNow s &&& s.vx.healthMask) != 0

/-- A drive pulse of OUT0: it keeps the contact closed for 40 ms (R378). -/
def out0Pulse (s : State) : State :=
  if s.cel.pstate == .run && slotReady vxSlot s && !leverSafe vxSlot s && !handingOver 2 s && !maskedHealth s then
    out0Drive true (emit .out0Pulse { s with vx.out0HoldUntil := some (s.now + ms 40) })
  else s

/-- The hold of the last pulse ends and the contact opens (R378). -/
def out0Expire (s : State) : State := if due s.vx.out0HoldUntil s then out0Open s else s

/-- A condition of Table 8.5 that HEALTH_MASK selects has arisen: OUT0 opens (R378). -/
def healthArises (c : Fin 8) (s : State) : State :=
  if (healthNow s &&& s.vx.healthMask).getLsbD c.val then out0Open s else s

/-- A pulse of OUT1 ends (R379). -/
def out1PulseEnd (s : State) : State :=
  if due s.vx.out1Until s then out1Drive false { s with vx.out1Until := none } else s

/-- `vx_contact_test`: byte 0 names the contact, 0 OUT0, 1 OUT1, bytes 2 to 3 the duration in ms (log entry 17). A second test
replaces the first (R380). -/
def contactTest (r : Req) (s : State) : State :=
  authorised 0x0702 r (fun t =>
    let d := leAt r.body 2 2
    if r.body.length ≠ 4 || 1 < byteAt r.body 0 || byteAt r.body 1 ≠ 0 || d < 100 || 10000 < d then malformed r 0x0702 t
    else
      let until_ := t.now + ms d
      let t1 := raise 0x7033 (d1 (byteAt r.body 0) ++ d2 d) t
      let t2 := if byteAt r.body 0 = 0
        then noteOut0 (contact0 t) { t1 with vx.out0Test := some (until_, !t.vx.out0Closed) }
        else noteOut1 (contact1 t) { t1 with vx.out1Test := some (until_, !t.vx.out1Closed) }
      answer r 0x0702 stOk [] t2) s

/-- A contact test ends (R380). -/
def testEnd (out1 : Bool) (s : State) : State :=
  if out1 then
    (if due (s.vx.out1Test.map (·.1)) s then noteOut1 (contact1 s) { s with vx.out1Test := none } else s)
  else if due (s.vx.out0Test.map (·.1)) s then noteOut0 (contact0 s) { s with vx.out0Test := none }
  else s

/-! ### Meanings -/

/-- R370. -/
def execDebounceChange (pair : PairNo) (chB : Bool) (volts : List Int) (s : State) : Out := .next (debounced pair chB volts s)
/-- R373. -/
def execPairUnknown (pair : PairNo) (s : State) : Out := .next (disagreeLong pair s)
/-- R374. -/
def execPairAgreeAgain (pair : PairNo) (s : State) : Out := .next (agreeLong pair s)
/-- R378. -/
def execOut0DrivePulse (s : State) : Out := .next (out0Pulse s)
/-- R378. -/
def execOut0HoldExpiry (s : State) : Out := .next (out0Expire s)
/-- R378. -/
def execHealthCondition (cond : Fin 8) (s : State) : Out := .next (healthArises cond s)
/-- R379. -/
def execOut1PulseEnd (s : State) : Out := .next (out1PulseEnd s)
/-- R380. -/
def execVxContactTest (req : Req) (s : State) : Out := .next (contactTest req s)
/-- R380. -/
def execContactTestEnd (out1 : Bool) (s : State) : Out := .next (testEnd out1 s)

end Sys2Proof.Machine
end

