-- ==== Sys2Proof/Machine/ConfigItems.lean ====
section
/-! DEFINITION. Configuration as registers and items show it: the words of every register that a profile loads, and the config
items of Tables 16.9 and 17.4 that hold them: their shape, their checks (R621, Table 17.5) and the setting they make. -/
namespace Sys2Proof.Machine

/-! ### Register words that a profile loads -/

/-- LP_CFG (Table 5.7). -/
def lpCfgWord (p : LinePort) : Word :=
  word (putBit 10 p.csumCheck + putBit 9 p.wakeLink + putBit 8 p.watch + putBits 4 2 p.speedCfg.toNat + putBits 0 3 p.role.toNat)
/-- LP_FC (Table 6.8). -/
def lpFcWord (p : LinePort) : Word :=
  word (putBits 16 16 p.quanta.toNat + putBits 8 8 p.pfcEn.toNat + putBits 4 3 p.defPcp.toNat + putBits 0 2 p.fcMode.toNat)
/-- LP_FC_THR (Table 6.8). -/
def lpFcThrWord (p : LinePort) : Word := word (putBits 16 16 p.xon.toNat + putBits 0 16 p.xoff.toNat)
/-- TC_PCP without B_MASK, which follows from the other fields (R245). -/
def tcPcpWord (s : State) : Word :=
  word (putBits 16 8 (bMask s) + putBits 8 3 s.tc.pcpS.toNat + putBits 4 3 s.tc.pcpM.toNat + putBits 0 3 s.tc.pcpU.toNat)
/-- BBN_CFG (Table 4.11). -/
def bbnCfgWord (s : State) : Word := word (putBits 8 8 s.bbn.gmPrio1.toNat + putBit 0 s.bbn.laneSplit)
/-- RLV_CFG (Table 3.12). -/
def rlvCfgWord (s : State) : Word := word (putBit 0 s.rlv.interopAllow)
/-- VX_IN_CFGp (Table 8.10). -/
def inCfgWord (p : PairInput) : Word :=
  word (putBits 16 12 p.discMs.toNat + putBits 8 7 p.debounce.toNat + putBits 0 7 p.onLevel.toNat)
/-- VX_OUT_CFG (Table 8.10). -/
def outCfgWord (s : State) : Word :=
  word (putBits 10 6 s.vx.out1Pulse.toNat + putBits 8 2 s.vx.out1Mode.toNat + putBits 0 8 s.vx.healthMask.toNat)
/-- BGT_CFG (Table 14.9). -/
def bgtCfgWord (s : State) : Word :=
  word (putBits 24 6 s.bgt.restoreHold.toNat + putBits 16 8 s.bgt.rideTarget.toNat + putBits 8 3 s.bgt.battLevel.toNat
    + putBits 0 8 s.bgt.heatBase.toNat)
/-- RRW_CFG (Table 11.9). -/
def rrwCfgWord (s : State) : Word := word (putBits 8 8 s.rrw.defTimeout.toNat + putBit 0 s.rrw.accept)
/-- PWR_CFG (Table 12.11). -/
def pwrCfgWord (s : State) : Word := word (putBits 2 2 s.pwr.mainsBand.toNat + putBit 0 s.pwr.chgOnBatt)
/-- CEL_CFG (Table 13.12). -/
def celCfgWord (s : State) : Word := word (putBit 8 s.cel.bootHold + putBits 0 4 s.cel.inWake.toNat)
/-- SLP_CFG (Table 15.8). -/
def slpCfgWord (s : State) : Word :=
  word (putBits 24 3 s.slp.demandCfg.toNat + putBits 4 12 s.slp.sleepDelay.toNat + putBits 2 2 s.slp.group.toNat
    + putBits 0 2 s.slp.agree.toNat)
/-- LP_GCLb_CFG (Table 6.8). -/
def gclCfgWord (g : GateList) : Word := word (putBits 8 6 g.mult.toNat + putBits 0 7 g.count.toNat)

/-! ### Items -/

/-- What TARGET names (R620). -/
inductive TargetKind | port | chan | pair | node
  deriving DecidableEq, Repr

/-- The targets of a kind. -/
def targetsOf (k : TargetKind) : List Nat :=
  match k with
  | .port => List.range 8
  | .chan => [0, 1]
  | .pair => List.range 4
  | .node => [0xFF]

/-- Tables 16.9 and 17.4: ITEM, what its target is, its number of words (none: a gate list), swappable. -/
def itemTable : List (Nat × TargetKind × Option Nat × Bool) :=
  [(0x01, .port, none, true), (0x02, .port, some 20, true), (0x03, .node, some 1, true), (0x04, .chan, some 64, true),
   (0x05, .node, some 1, true), (0x06, .node, some 2, true), (0x07, .node, some 1, true),
   (0x10, .node, some 1, false), (0x11, .node, some 1, false), (0x12, .port, some 1, false), (0x13, .port, some 1, false),
   (0x14, .port, some 2, false), (0x15, .port, some 1, false), (0x16, .port, some 1, false), (0x17, .port, some 1, false),
   (0x18, .port, some 1, false), (0x19, .chan, some 5, false), (0x1A, .pair, some 1, false), (0x1B, .node, some 1, false),
   (0x1C, .chan, some 1, false), (0x1D, .node, some 1, false), (0x1E, .node, some 1, false), (0x1F, .node, some 1, false),
   (0x20, .node, some 2, false), (0x21, .node, some 1, false), (0x30, .node, some 1, false), (0x31, .node, some 1, false)]

/-- The row of an ITEM. -/
def itemRow (n : Nat) : Option (TargetKind × Option Nat × Bool) := (itemTable.find? fun r => r.1 == n).map (·.2)
/-- An ITEM of Table 17.4, which only a profile carries. -/
def profileOnly (n : Nat) : Bool := n == 0x30 || n == 0x31
/-- The node applies the item at a boundary without a pause (Table 16.9). -/
def swappable (i : CfgItem) : Bool := match itemRow i.item.toNat with | some (_, _, b) => b | none => false

/-- Word `k` of an item's DATA. -/
def itemWord (d : List Byte) (k : Nat) : Word := word (leAt d (4 * k) 4)

/-- A line port, a channel, a pair from a TARGET. -/
def asChan (n : Nat) : Chan := ⟨n % 2, Nat.mod_lt _ (by decide)⟩
def asPair (n : Nat) : PairNo := ⟨n % 4, Nat.mod_lt _ (by decide)⟩

/-- Words as bytes. -/
def wordsLE (l : List Word) : List Byte := l.flatMap fun w => toLE 4 w.toNat

/-- The DATA that would set an item to what it is now. -/
def itemNow (item target : Nat) (s : State) : List Byte :=
  let p := port (asPort target) s
  let c := can (asChan target) s
  match item with
  | 0x01 => if p.gateEn then wordsLE (gclCfgWord (activeList p) :: listEntries (activeList p)) else [0, 0, 0, 0]
  | 0x02 => p.wake.toList.flatMap fun w =>
      toLE 16 w.mask.toNat ++ toLE 4 (putBit 31 w.en + putBits 0 16 w.crc.toNat)
  | 0x03 => toLE 4 (bit s.bbn.laneSplit)
  | 0x04 => c.flts.toList.flatMap fun f => wordsLE [f.id, f.mask]
  | 0x05 => toLE 4 s.vx.healthMask.toNat
  | 0x06 => wordsLE [arbCfg s, s.arb.cls]
  | 0x07 => wordsLE [bgtCfgWord s]
  | 0x10 => toLE 4 (putBits 8 3 s.tc.pcpS.toNat + putBits 4 3 s.tc.pcpM.toNat + putBits 0 3 s.tc.pcpU.toNat)
  | 0x11 => toLE 4 s.arb.bLimit.toNat
  | 0x12 => toLE 4 p.inQuota.toNat
  | 0x13 => wordsLE [p.qmap]
  | 0x14 => wordsLE [lpFcWord p, lpFcThrWord p]
  | 0x15 => wordsLE [p.preempt]
  | 0x16 => toLE 4 p.maxLen.toNat
  | 0x17 => toLE 4 p.bind.toNat
  | 0x18 => wordsLE [lpCfgWord p]
  | 0x19 => wordsLE [c.cfg, c.nbt, c.dbt, word c.cqp.toNat, word c.txto.toNat]
  | 0x1A => wordsLE [inCfgWord s.vx.pairs[asPair target]]
  | 0x1B => toLE 4 (putBits 10 6 s.vx.out1Pulse.toNat + putBits 8 2 s.vx.out1Mode.toNat)
  | 0x1C => wordsLE [(plc (asChan target) s).cfg]
  | 0x1D => wordsLE [rrwCfgWord s]
  | 0x1E => wordsLE [pwrCfgWord s]
  | 0x1F => wordsLE [match s.cel.cfgNext with | some w => w | none => celCfgWord s]
  | 0x20 => wordsLE [slpCfgWord s, word s.slp.trainWake.toNat]
  | 0x21 => toLE 4 (putBits 8 8 s.bbn.gmPrio1.toNat)
  | 0x30 => toLE 4 s.hif.h2Base
  | 0x31 => wordsLE [rlvCfgWord s]
  | _ => []

/-- A gate list put in the inactive buffer, which receives staged lists (R261). -/
def loadGates (d : List Byte) (p : LinePort) : LinePort :=
  if d.length ≤ 4 then p
  else
    let n := fieldOf (itemWord d 0) 0 7
    let old := if p.activeBuf then p.gcl0 else p.gcl1
    let entry := fun (i : Nat) => if i < n then itemWord d (i + 1) &&& 0xFFDFFFFF else old.entries.getD i 0
    let g : GateList := ⟨BitVec.ofNat 6 (fieldOf (itemWord d 0) 8 6), BitVec.ofNat 7 n, (List.range 64).map entry⟩
    { p with gcl0 := if p.activeBuf then g else p.gcl0, gcl1 := if p.activeBuf then p.gcl1 else g }

/-- The buffer with a gate list becomes the active one (R265); no list turns the gates off (log entry 25). -/
def putGates (d : List Byte) (p : LinePort) : LinePort :=
  if d.length ≤ 4 then { p with gateEn := false, gatePending := false, hold := false, gates := 0xFF, gateEntry := 0 }
  else { loadGates d p with gateEn := true, gatePending := false, activeBuf := !p.activeBuf }

/-- The gate lists of staged items stand in the inactive buffers of their ports (R261). -/
def loadStaged (l : List CfgItem) (s : State) : State :=
  l.foldl (fun t i => if i.item == 0x01 then modPort (asPort i.target.toNat) (loadGates i.data) t else t) s

/-- CEL_CFG loaded. -/
def setCelCfg (w : Word) (s : State) : State :=
  { s with cel.bootHold := flagOf w 8, cel.inWake := BitVec.ofNat 4 (fieldOf w 0 4), cel.cfgNext := none }

/-- The registers of an item take its DATA. Reserved bits are ignored (R12). -/
def itemSet (item target : Nat) (d : List Byte) (s : State) : State :=
  let n := asPort target
  let ch := asChan target
  let w := itemWord d 0
  match item with
  | 0x01 => modPort n (putGates d) s
  | 0x02 => modPort n (fun p => { p with wake := Vector.ofFn fun (i : Fin 4) =>
      let b := slice d (20 * i.val) 20
      ⟨bitOf (leAt b 16 4) 31, BitVec.ofNat 128 (leAt b 0 16), BitVec.ofNat 16 (leAt b 16 4)⟩ }) s
  | 0x03 => { s with bbn.laneSplit := flagOf w 0 }
  | 0x04 => modCan ch (fun c => { c with flts := Vector.ofFn fun (i : Fin 32) =>
      ⟨itemWord d (2 * i.val), itemWord d (2 * i.val + 1) &&& 0x3FFFFFFF⟩ }) s
  | 0x05 => { s with vx.healthMask := BitVec.ofNat 8 (fieldOf w 0 8) }
  | 0x06 => setArb w (itemWord d 1) s
  | 0x07 => { s with bgt.restoreHold := BitVec.ofNat 6 (fieldOf w 24 6), bgt.rideTarget := BitVec.ofNat 8 (fieldOf w 16 8),
                     bgt.battLevel := BitVec.ofNat 3 (fieldOf w 8 3), bgt.heatBase := BitVec.ofNat 8 (fieldOf w 0 8) }
  | 0x10 => { s with tc.pcpU := BitVec.ofNat 3 (fieldOf w 0 3), tc.pcpM := BitVec.ofNat 3 (fieldOf w 4 3),
                     tc.pcpS := BitVec.ofNat 3 (fieldOf w 8 3) }
  | 0x11 => { s with arb.bLimit := BitVec.ofNat 10 (fieldOf w 0 10) }
  | 0x12 => modPort n (fun p => { p with inQuota := BitVec.ofNat 16 (fieldOf w 0 16) }) s
  | 0x13 => modPort n (fun p => { p with qmap := w &&& 0x77777777 }) s
  | 0x14 => modPort n (fun p => { p with quanta := BitVec.ofNat 16 (fieldOf w 16 16), pfcEn := BitVec.ofNat 8 (fieldOf w 8 8),
                                         defPcp := BitVec.ofNat 3 (fieldOf w 4 3), fcMode := BitVec.ofNat 2 (fieldOf w 0 2),
                                         xon := BitVec.ofNat 16 (fieldOf (itemWord d 1) 16 16),
                                         xoff := BitVec.ofNat 16 (fieldOf (itemWord d 1) 0 16) }) s
  | 0x15 => modPort n (fun p => { p with preempt := w &&& 0x00FFFF0F }) s
  | 0x16 => modPort n (fun p => { p with maxLen := BitVec.ofNat 14 (fieldOf w 0 14) }) s
  | 0x17 => modPort n (fun p => { p with bind := BitVec.ofNat 10 (fieldOf w 0 10) }) s
  | 0x18 => modPort n (fun p => { p with role := BitVec.ofNat 3 (fieldOf w 0 3), speedCfg := BitVec.ofNat 2 (fieldOf w 4 2),
                                         watch := flagOf w 8, wakeLink := flagOf w 9, csumCheck := flagOf w 10 }) s
  | 0x19 => modCan ch (fun c => { c with cfg := w &&& 0x1FD, nbt := itemWord d 1 &&& 0xFFFF7F7F,
                                         dbt := itemWord d 2 &&& 0xFFFFFF80, cqp := BitVec.ofNat 10 (fieldOf (itemWord d 3) 0 10),
                                         txto := BitVec.ofNat 14 (fieldOf (itemWord d 4) 0 14) }) s
  | 0x1A => modPair (asPair target) (fun p => { p with discMs := BitVec.ofNat 12 (fieldOf w 16 12),
                                                       debounce := BitVec.ofNat 7 (fieldOf w 8 7),
                                                       onLevel := BitVec.ofNat 7 (fieldOf w 0 7) }) s
  | 0x1B => { s with vx.out1Pulse := BitVec.ofNat 6 (fieldOf w 10 6), vx.out1Mode := BitVec.ofNat 2 (fieldOf w 8 2) }
  | 0x1C => modPlc ch (fun p => { p with cfg := w &&& 0x0FFFFE7B }) s
  | 0x1D => { s with rrw.defTimeout := BitVec.ofNat 8 (fieldOf w 8 8), rrw.accept := flagOf w 0 }
  | 0x1E => setPwrCfg (BitVec.ofNat 2 (fieldOf w 2 2)) (flagOf w 0) s
  | 0x1F => setCelCfg w s
  | 0x20 => { s with slp.demandCfg := BitVec.ofNat 3 (fieldOf w 24 3), slp.sleepDelay := BitVec.ofNat 12 (fieldOf w 4 12),
                     slp.group := BitVec.ofNat 2 (fieldOf w 2 2), slp.agree := BitVec.ofNat 2 (fieldOf w 0 2),
                     slp.trainWake := BitVec.ofNat 13 (fieldOf (itemWord d 1) 0 13) }
  | 0x21 => { s with bbn.gmPrio1 := BitVec.ofNat 8 (fieldOf w 8 8) }
  | 0x30 => { s with hif.h2Base := fieldOf w 0 11 }
  | 0x31 => { s with rlv.interopAllow := flagOf w 0 }
  | _ => s

/-! ### Checks -/

/-- R264: a gate list with its COUNT, CYCLE_MULT, INTERVALs, OPs and sum. -/
def gatesBad (d : List Byte) : Bool :=
  if d.length ≤ 4 then false
  else
    let n := fieldOf (itemWord d 0) 0 7
    let m := fieldOf (itemWord d 0) 8 6
    let es := (List.range n).map fun i => itemWord d (i + 1)
    !inRange 1 64 n || !inRange 1 32 m || es.any (fun e => fieldOf e 0 21 == 0 || fieldOf e 22 2 == 3)
    || (es.map fun e => fieldOf e 0 21 * 8).sum != m * 500000

/-- The LEN and TARGET match the item (Table 16.9, R620). -/
def itemFits (profile : Bool) (i : CfgItem) : Bool :=
  match itemRow i.item.toNat with
  | none => false
  | some (k, len, _) =>
    (profile || !profileOnly i.item.toNat) && (targetsOf k).contains i.target.toNat
    && (match len with
        | some n => i.data.length == 4 * n
        | none => (i.data.length == 4 && leAt i.data 0 4 == 0)
            || (decide (4 < i.data.length) && i.data.length == 4 + 4 * fieldOf (itemWord i.data 0) 0 7))

/-- Clocks of 80 MHz in one bit: BRP × (1 + TSEG1 + TSEG2) (R343), each field holding one less than its value. -/
def bitClocks (brp tseg1 tseg2 : Nat) : Nat := (brp + 1) * (3 + tseg1 + tseg2)
/-- Bit rates outside R343: the nominal one from 20 kbit/s to 1 Mbit/s in a channel with EN, and with FD the data-phase one from the
nominal one to 5 Mbit/s. -/
def canTimingBad (cfg nbt dbt : Word) : Bool :=
  let n := bitClocks (fieldOf nbt 24 8) (fieldOf nbt 16 8) (fieldOf nbt 8 7)
  let m := bitClocks (fieldOf dbt 20 5) (fieldOf dbt 15 4) (fieldOf dbt 11 4)
  bitOf cfg.toNat 0 && (!inRange 80 4000 n || (bitOf cfg.toNat 2 && !inRange 16 n m))

/-- A field of the item holds a reserved encoding or lies outside its range. -/
def itemRangeBad (i : CfgItem) : Bool :=
  let w := itemWord i.data 0
  match i.item.toNat with
  | 0x06 => arbCfgBad w
  | 0x07 => !(inRange 1 60 (fieldOf w 24 6) && inRange 10 255 (fieldOf w 16 8) && inRange 0 4 (fieldOf w 8 3)
      && inRange 85 110 (fieldOf w 0 8))
  | 0x11 => !inRange 0 800 (fieldOf w 0 10)
  | 0x12 => !inRange 4 65535 (fieldOf w 0 16)
  | 0x14 => !(inRange 1 65535 (fieldOf (itemWord i.data 1) 16 16) && inRange 1 65535 (fieldOf (itemWord i.data 1) 0 16))
  | 0x15 => !inRange 1 128 (fieldOf w 8 8)
  | 0x16 => !inRange 1518 9216 (fieldOf w 0 14)
  | 0x18 => !inRange 0 5 (fieldOf w 0 3)
  | 0x19 => !inRange 0 10000 (fieldOf (itemWord i.data 4) 0 14) || canTimingBad w (itemWord i.data 1) (itemWord i.data 2)
  | 0x1A => !(inRange 16 2048 (fieldOf w 16 12) && inRange 2 64 (fieldOf w 8 7) && inRange 10 100 (fieldOf w 0 7))
  | 0x1B => !inRange 1 50 (fieldOf w 10 6) || fieldOf w 8 2 == 3
  | 0x1C => !(inRange 0 6 (fieldOf w 25 3) && inRange 5 600 (fieldOf w 15 10) && inRange 5 35 (fieldOf w 9 6))
      || fieldOf w 3 2 == 3 || fieldOf w 0 2 == 3
  | 0x1D => !inRange 1 255 (fieldOf w 8 8)
  | 0x1E => fieldOf w 2 2 == 3
  | 0x20 => !inRange 5 3600 (fieldOf w 4 12) || fieldOf w 0 2 == 0
  | _ => false

/-- Reason 0x11 of Table 17.5. -/
def itemBad (profile : Bool) (i : CfgItem) : Bool := !itemFits profile i || itemRangeBad i

/-- Two ports hold one lane role: the later of them (R199). -/
def roleTwice (s : State) : Option PortNo :=
  (List.finRange 8).find? fun n => decide (2 ≤ (port n s).role.toNat)
    && (List.finRange 8).any fun m => decide (m.val < n.val) && (port m s).role == (port n s).role
/-- WATCH on a port with a lane role (R590). -/
def watchOnLane (s : State) : Option PortNo :=
  (List.finRange 8).find? fun n => decide (2 ≤ (port n s).role.toNat) && (port n s).watch
/-- Two classes with one PCP (R245). -/
def pcpTwice (s : State) : Bool := s.tc.pcpU == s.tc.pcpM || s.tc.pcpU == s.tc.pcpS || s.tc.pcpM == s.tc.pcpS
/-- A lane port whose LP_QMAP gives a PCP of B_MASK a queue above 4 (R251). -/
def qmapBad (s : State) : Option PortNo :=
  (List.finRange 8).find? fun n => decide (2 ≤ (port n s).role.toNat)
    && (List.range 8).any fun p => bitOf (bMask s) p && decide (4 < fieldOf (port n s).qmap (4 * p) 3)
/-- A CAN binding to CQP 0 of a channel in use, to the other channel's CQP, or to one that LP_BIND names (R344). -/
def canBad (s : State) : Option Chan :=
  let bound := fun (c : CanChan) => c.cqp != 0
  [(0 : Chan), 1].find? fun ch =>
    let c := can ch s
    (canEn c && !bound c) || (bound c && s.lp.toList.any fun p => p.bind == c.cqp)
    || (ch == 1 && bound c && s.vx.can0.cqp == c.cqp)

/-- ITEM and TARGET of a failing item as the response names them. -/
def failOf (reason item target : Nat) : Option (Nat × Nat × Nat) := some (reason, item, target)

/-- Checks 0x12 to 0x15, 0x17 and 0x18 of a whole configuration: reason, ITEM, TARGET. -/
def configBad (s : State) : Option (Nat × Nat × Nat) :=
  match roleTwice s with
  | some n => failOf 0x12 0x18 n.val
  | none => match watchOnLane s with
    | some n => failOf 0x13 0x18 n.val
    | none =>
      if pcpTwice s then failOf 0x14 0x10 0xFF
      else match qmapBad s with
        | some n => failOf 0x15 0x13 n.val
        | none => match canBad s with
          | some c => failOf 0x17 0x19 c.val
          | none =>
            if s.hif.h2Base % 64 ≠ 0 || !inRange 64 1024 s.hif.h2Base then failOf 0x18 0x30 0xFF else none

/-- Items set on a configuration in order, as a picture of what they make of it. -/
def itemsOn (l : List CfgItem) (s : State) : State := l.foldl (fun t i => itemSet i.item.toNat i.target.toNat i.data t) s

/-- The first check of Table 17.5 that items fail on a configuration: reason, ITEM and TARGET (R640). A gate list's check comes
in its place, after 0x15. -/
def itemsBad (profile : Bool) (l : List CfgItem) (s : State) : Option (Nat × Nat × Nat) :=
  match l.find? (itemBad profile) with
  | some i => failOf 0x11 i.item.toNat i.target.toNat
  | none =>
    let whole := configBad (itemsOn l s)
    match whole with
    | some (r, i, t) =>
      if r ≤ 0x15 then failOf r i t
      else match l.find? fun x => x.item == 0x01 && gatesBad x.data with
        | some x => failOf 0x16 0x01 x.target.toNat
        | none => failOf r i t
    | none =>
      match l.find? fun x => x.item == 0x01 && gatesBad x.data with
      | some x => failOf 0x16 0x01 x.target.toNat
      | none => none

/-- Items read from a stream, none where the stream ends inside one. -/
def readItems : Nat → List Byte → Option (List CfgItem)
  | 0, b => if b.isEmpty then some [] else none
  | fuel + 1, b =>
    if b.isEmpty then some []
    else if b.length < 4 + leAt b 2 2 then none
    else (readItems fuel (b.drop (4 + leAt b 2 2))).map
      (⟨BitVec.ofNat 8 (byteAt b 0), BitVec.ofNat 8 (byteAt b 1), slice b 4 (leAt b 2 2)⟩ :: ·)

/-- The item of a list with an ITEM and TARGET, the last one where there are several. -/
def itemIn (item target : Nat) (l : List CfgItem) : Option CfgItem :=
  (l.filter fun i => i.item.toNat == item && i.target.toNat == target).getLast?

/-- Every ITEM and TARGET of Tables 16.9 and 17.4. -/
def allItems : List (Nat × Nat) := itemTable.flatMap fun r => (targetsOf r.2.1).map fun t => (r.1, t)

end Sys2Proof.Machine
end

