-- ==== Sys2Proof/Machine/Profiles.lean ====
section
/-! DEFINITION. Profiles in the identity store (R637 to R642): reading an area, its checks, the complete configuration it stands for,
loading it. -/
namespace Sys2Proof.Machine

/-- Bytes of the identity store. -/
def idsLoad (a n : Nat) (s : State) : List Byte := memLoad flashFill s.ids.flash a n

/-- First address of a profile area (Table 17.6). -/
def profBase (p : Nat) : Nat := 0x100000 + p * 0x100000

/-- A profile as an area holds it: its items, the CRC of its stream, its SERIAL. -/
structure Profile where
  items : List CfgItem
  digest : Word
  serial : Word
  deriving DecidableEq, Repr

/-- The built-in configuration (R641). -/
def builtIn : Profile := ⟨[], 0, 0⟩

/-- Header checks of R639: FORMAT, HCRC, LENGTH. -/
def headerOk (h : List Byte) : Bool :=
  leAt h 0 2 == 1 && leAt h 48 4 == (crc32c (h.take 48)).toNat && inRange 1 1048320 (leAt h 4 4)

/-- A profile area checked (R639, R640): the profile, or the reason, ITEM and TARGET of the first check it fails. -/
def readProfile (p : Nat) (s : State) : Profile ⊕ (Nat × Nat × Nat) :=
  let h := idsLoad (profBase p) 52 s
  if !headerOk h then .inr (0x10, 0, 0)
  else
    let stream := idsLoad (profBase p + 256) (leAt h 4 4) s
    if leAt h 8 4 != (crc32c stream).toNat then .inr (0x10, 0, 0)
    else match readItems stream.length stream with
      | none => .inr (0x11, 0, 0)
      | some l =>
        match itemsBad true l State.reset with
        | some f => .inr f
        | none => .inl ⟨l, crc32c stream, word (leAt h 12 4)⟩

/-- Profile Pp is valid. -/
def profileValid (p : Nat) (s : State) : Bool := match readProfile p s with | .inl _ => true | .inr _ => false

/-- The DATA a profile gives an item: its own, or the default of the register card (R637). -/
def profileData (p : Profile) (item target : Nat) : List Byte :=
  match itemIn item target p.items with
  | some i => i.data
  | none => itemNow item target State.reset

/-- A profile loaded whole, as at a rise (R641): every register that a profile loads. -/
def loadProfile (p : Profile) (s : State) : State :=
  let s1 := allItems.foldl (fun t x => itemSet x.1 x.2 (profileData p x.1 x.2) t) s
  { s1 with ids.digest := p.digest, ids.serial := p.serial, ids.partialSel := false }

/-- The items of a profile that differ from the running configuration (R643), in the order of Tables 16.9 and 17.4. -/
def differing (p : Profile) (s : State) : List CfgItem :=
  (allItems.filter fun x => profileData p x.1 x.2 != itemNow x.1 x.2 s).map fun x =>
    ⟨BitVec.ofNat 8 x.1, BitVec.ofNat 8 x.2, profileData p x.1 x.2⟩

end Sys2Proof.Machine
end

