-- ==== Sys2Proof/Machine/StoreRoom.lean ====
section
/-! DEFINITION. The store room (R664 to R688, R702): the SR-1's commits, segments and recycling, the writer's start, what is held
while no SR-1 can be written, `sr_read`. -/
namespace Sys2Proof.Machine

/-! ### Records as bytes -/

/-- The slot of the SR-1. -/
def srSlot : Slot := 10

/-- A record as it stands in MRAM (Table 18.3). -/
def recBytes (r : Rec) : List Byte :=
  let n := recLen r.payload
  toLE 4 (r.code.toNat * 65536 + bit r.deferred * 32768 + bit r.supp.isSome * 16384 + bit r.perm * 8192 + bit r.fatal * 4096 + n / 4)
  ++ toLE 4 ((match r.supp with | some k => k.toNat | none => 0) * 65536 + r.payload.length) ++ toLE 4 r.seq.toNat
  ++ r.payload ++ List.replicate (n - 16 - r.payload.length) 0 ++ toLE 4 (r.seq ^^^ 0xC3A55A3C).toNat

/-- Size of the permanent area and of a detail segment (Table 18.1). -/
def segSize : Nat := 8388608
/-- The last SEQ an SR-1 gives (R669). -/
def lastSeq : Nat := 0xFFFFFFEF

/-- Detail segment `i` of an SR-1. -/
def segAt (x : Sr1) (i : Nat) : Segment := x.detail.getD i Segment.blank

/-- Free bytes of the permanent area. -/
def permFree (x : Sr1) : Nat := segSize - max 64 x.perm.fill

/-- A segment with its header written before the first record behind it (R671). -/
def withHeader (gen seq : Word) : Segment := { used := true, gen := gen, firstSeq := seq, fill := 64, recs := [] }

/-- A record in a segment that begins at `base` and has room for it. -/
def segPut (base : Nat) (g : Segment) (p : PendRec) (perm : Bool) (seq : Word) : Segment :=
  let r : Rec := ⟨base + g.fill, p.code, p.deferred, perm, p.fatal, p.supp, p.payload, seq, true⟩
  { g with fill := g.fill + recLen p.payload, recs := g.recs ++ [r] }

/-- Oldest retained detail SEQ (R673). -/
def oldestDetail (x : Sr1) : Word :=
  let nxt := segAt x ((x.cur + 1) % 7)
  if nxt.used then nxt.firstSeq else (segAt x 0).firstSeq

/-- The records of an area in SEQ order. -/
def areaRecs (x : Sr1) (detail : Bool) : List Rec :=
  if detail then ((List.range 7).map fun i => (segAt x ((x.cur + 1 + i) % 7)).recs).flatten else x.perm.recs

/-! ### Commits -/

/-- A record of the writer's own codes. -/
def ownRecord (code : Half) (payload : List Byte) (s : State) : State := writeRecord false code payload s

/-- The current detail segment takes a record; a full one gives way to the next, recycled where it was used (R672). -/
def commitDetail (p : PendRec) (seq : Word) (s : State) : State :=
  let x := s.srm.sr1
  let g := segAt x x.cur
  let g1 := if g.used then g else withHeader 0 seq
  let put := fun (i : Nat) (h : Segment) (t : State) =>
    { t with srm.sr1 := { t.srm.sr1 with detail := setAt t.srm.sr1.detail i (segPut (segSize * (1 + i)) h p false seq), cur := i } }
  if g1.fill + recLen p.payload ≤ segSize then put x.cur g1 s
  else
    let i := (x.cur + 1) % 7
    let h := segAt x i
    let h1 := withHeader (if h.used then h.gen + 1 else 0) seq
    let s1 := put i h1 s
    if h.used then
      ownRecord 0xE002 (d1 i ++ d4 h1.gen.toNat ++ d4 seq.toNat) { s1 with srm.cntRecycle := s1.srm.cntRecycle + 1 }
    else s1

/-- The permanent area takes a record where it fits; PERM_LOW and PERM_FULL with their records (R675). -/
def commitPerm (p : PendRec) (seq : Word) (s : State) : State :=
  let x := s.srm.sr1
  let g := if x.perm.used then x.perm else withHeader 0 seq
  if !s.srm.permFull && decide (g.fill + recLen p.payload ≤ segSize) then
    let s1 := { s with srm.sr1 := { x with perm := segPut 0 g p true seq } }
    if permFree s1.srm.sr1 < 524288 && !s1.srm.permLow then
      ownRecord 0xE003 (d4 (permFree s1.srm.sr1 / 1024)) { s1 with srm.permLow := true }
    else s1
  else
    let s1 := commitDetail p seq s
    if s1.srm.permFull then s1 else ownRecord 0xE004 [] { s1 with srm.permFull := true }

/-- Four bytes of a payload replaced, where they hold RUN_ID unknown. -/
def patchAt (off : Nat) (seq : Word) (b : List Byte) : List Byte :=
  if leAt b off 4 = runUnknown.toNat then b.take off ++ toLE 4 seq.toNat ++ b.drop (off + 4) else b

/-- The records that name RUN_ID, with the SEQ of the run's first time mark in it (R690). -/
def patchRun (seq : Word) (p : PendRec) : PendRec :=
  match p.code.toNat with
  | 0xE001 => { p with payload := patchAt 36 seq p.payload }
  | 0xE100 => { p with payload := patchAt 0 seq p.payload }
  | 0xE101 => { p with payload := patchAt 0 seq p.payload }
  | 0xE102 => { p with payload := patchAt 8 seq p.payload }
  | _ => p

/-- The first time mark of a run of CEL_MONO gets its SEQ: RUN_ID (R690). -/
def beginRun (seq : Word) (s : State) : State :=
  let fix := fun (i : Interval) => if i.runId == runUnknown then { i with runId := seq } else i
  { s with ldg.runId := seq, ldg.open_ := s.ldg.open_.map fix, ldg.kept := s.ldg.kept.map fix,
           srm.pend := s.srm.pend.map (patchRun seq) }

/-- The SR-1 can be written: ready and not prepared for removal (R681). -/
def srWritable (s : State) : Bool := slotReady srSlot s && !leverSafe srSlot s

/-- The last part of an interval record has been committed: event 0xE105 (R692). -/
def intervalDone (p : PendRec) (seq : Word) (s : State) : State :=
  if p.code == 0xE101 && byteAt p.payload 40 + 1 == byteAt p.payload 41 then
    raise 0xE105 (d4 (leAt p.payload 0 4) ++ d8 (leAt p.payload 4 8) ++ d4 (seq.toNat - byteAt p.payload 40)) s
  else s

/-- A record is handed over and committed with the next SEQ (R669, R670); past the last SEQ the SR-1 is faulted. -/
def commitRec (p0 : PendRec) (s : State) : State :=
  let x := s.srm.sr1
  if lastSeq < x.nextSeq.toNat then modSlot srSlot (fun t => { t with st := 3 }) { s with srm.sr1 := { x with seqEnd := true } }
  else
    let seq := x.nextSeq
    let s1 := { s with srm.cntWritten := s.srm.cntWritten + 1, srm.sr1 := { x with nextSeq := seq + 1 },
                       srm.flashAt := if spaced s.srm.flashAt (ms 200) s then some s.now else s.srm.flashAt }
    let first := p0.code == 0xE001 && s1.ldg.runId == runUnknown
    let s2 := if first then beginRun seq s1 else s1
    let p := if first then patchRun seq p0 else p0
    let s3 := if p.perm then commitPerm p seq s2 else commitDetail p seq s2
    let s4 := intervalDone p seq s3
    if seq.toNat = lastSeq then
      modSlot srSlot (fun t => { t with st := 3 }) { s4 with srm.sr1 := { s4.srm.sr1 with seqEnd := true } }
    else s4

/-- The oldest pending record is committed; past the last SEQ it stays pending. -/
def recordCommit (s : State) : State :=
  match s.srm.pend with
  | [] => s
  | p0 :: rest =>
    if !srWritable s then s
    else commitRec p0 (if lastSeq < s.srm.sr1.nextSeq.toNat then s else { s with srm.pend := rest })

/-! ### Buckets and time marks -/

/-- A code's bucket gains a token (R677). -/
def refill (code : Half) (s : State) : State :=
  let b := bucket code s
  if !due b.refillAt s then s
  else
    let full := decide ((bucketOf code).1 ≤ b.tokens + 1)
    let b1 : Bucket := { b with tokens := min (bucketOf code).1 (b.tokens + 1),
                                refillAt := if full then none else some (s.now + ticksNs (bucketOf code).2) }
    { s with srm.buckets := Tab.put code.toNat b1 s.srm.buckets }

/-- Every 10,240 Cellar ticks while the writer runs (R676). -/
def periodMark (s : State) : State :=
  if s.srm.writerOn && due s.srm.markDue s then
    timeMark 1 0 { s with srm.markDue := some (s.now + ticksNs 10240) }
  else s

/-! ### The writer starts -/

/-- Every record of an SR-1. -/
def allRecs (x : Sr1) : List Rec := areaRecs x false ++ areaRecs x true

/-- The newest of some records. -/
def newestRec (l : List Rec) : Option Rec :=
  l.foldl (fun m r => match m with | some x => if x.seq.toNat < r.seq.toNat then some r else some x | none => some r) none

/-- RUN_ID and START_MONO at the head of an open or closed interval record (Tables 18.6, 18.7). -/
def intervalKey (code : Half) (b : List Byte) : Nat × Nat :=
  if code == 0xE100 then (leAt b 0 4, leAt b 8 8) else (leAt b 0 4, leAt b 4 8)

/-- The newest open record without a close that is not of an interval known to this node (R702). -/
def orphan (s : State) : Option Rec :=
  let all := (allRecs s.srm.sr1).filter (·.valid)
  let closed := (all.filter fun r => r.code == 0xE101).map fun r => intervalKey r.code r.payload
  let waiting := (s.srm.pend.filter fun p => p.code == 0xE101).map fun p => intervalKey p.code p.payload
  let known := (s.ldg.open_.toList ++ s.ldg.closing ++ s.ldg.kept).map fun i => (i.runId.toNat, i.startMono.toNat)
  newestRec (all.filter fun r => r.code == 0xE100 && !(closed ++ waiting ++ known).contains (intervalKey r.code r.payload))

/-- A PW-2's share as an open record tells it. -/
def shareOf (b : List Byte) : PwShare :=
  let q := fun (i : Nat) => BitVec.ofNat 64 (leAt b i 8)
  ⟨mkKey (leAt b 0 6), q 8, q 16, q 24, q 32, 0, 0, 0, 0, false⟩

/-- An interval whose controller left no close is closed with LOST_COUNTS, at the last time mark of its run, with the energy to the
first reading of this run, which begins the next interval too; record 0xE104 (R702). -/
def closeOrphan (s : State) : State :=
  match orphan s with
  | none => s
  | some r =>
    let b := r.payload
    let run := leAt b 0 4
    let marks := (allRecs s.srm.sr1).filter fun m =>
      m.valid && m.code == 0xE001 && decide (r.seq.toNat ≤ m.seq.toNat) && leAt m.payload 36 4 == run
    let (endMono, endTime) := match newestRec marks with
      | some m => (leAt m.payload 8 8, leAt m.payload 0 8)
      | none => (leAt b 8 8, leAt b 16 8)
    let i : Interval :=
      { runId := word run, startMono := BitVec.ofNat 64 (leAt b 8 8), startTime := BitVec.ofNat 64 (leAt b 16 8),
        lenCode := BitVec.ofNat 2 (byteAt b 4), offsetS := BitVec.ofNat 8 (byteAt b 5), flags := BitVec.ofNat 16 (leAt b 6 2),
        pwA := shareOf (slice b 24 40), pwB := shareOf (slice b 64 40), counts := [], endMono := 0, endTime := 0, written := true,
        back := false }
    let c := { i with endMono := BitVec.ofNat 64 endMono, endTime := BitVec.ofNat 64 endTime,
                      flags := i.flags ||| 0x0020 ||| lengthFlags i.lenCode (endMono - i.startMono.toNat),
                      pwA := shareCloses 0 s i.pwA, pwB := shareCloses 1 s i.pwB }
    let s1 := { s with ldg.closing := s.ldg.closing ++ [c], ldg.cntClosed := s.ldg.cntClosed + 1, ldg.cntFlagged := s.ldg.cntFlagged + 1 }
    ownRecord 0xE104 (d4 run ++ d8 i.startMono.toNat) (settleLedger s1)

/-- LDG_CFG from the latest record 0xE103 in the store room, else its defaults (R693). -/
def reloadLdgCfg (s : State) : State :=
  let v : Word := match newestRec ((allRecs s.srm.sr1).filter fun r => r.valid && r.code == 0xE103) with
    | some r => word (leAt r.payload 0 4)
    | none => 1
  { s with ldg.len := BitVec.ofNat 2 (fieldOf v 0 2), ldg.offsetS := BitVec.ofNat 8 (fieldOf v 8 8) }

/-- Payload of record 0xE005: backplane serial, vertex key, serial of the SR-1 (R683). -/
def seatedRec (s : State) : List Byte := d6 (Config.bpSerial s.ids.flash) ++ d6 (vkey s) ++ d6 (slot srSlot s).serial

/-- The open record copied into an SR-1 that has been seated (R683, R703). -/
def carriedRec (i : Interval) : List Byte := openRec { i with flags := i.flags ||| 0x0400 }

/-- The writer starts (R676, R677, R688, R700, R702): its time mark, the deferred records, the kept intervals, an interval left
open, the interval that opens or is open now. -/
def writerStart (s : State) : State :=
  let s1 := timeMark 4 0 { s with srm.writerOn := true, srm.buckets := [], srm.seen := [],
                                  srm.markDue := some (s.now + ticksNs 10240) }
  let s1 := if s1.srm.seatDue then ownRecord 0xE005 (seatedRec s1) s1 else s1
  let s2 := s1.srm.deferred.foldl (fun t d => writeDeferred d t) { s1 with srm.deferred := [] }
  let s3 := s2.ldg.kept.foldl (fun t i => writeClosed i t) { s2 with ldg.kept := [] }
  let s4 := closeOrphan s3
  let s5 := match s4.ldg.open_ with
    | some i => if s4.srm.seatDue && i.written then ownRecord 0xE100 (carriedRec i) s4 else writeOpen s4
    | none => openInterval (if s4.cel.monoRestart then 0x0800 else 0) s4
  { s5 with ldg.clean := false, ldg.copyDue := some (s5.now + sec 1), srm.seatDue := false }

/-- The writer stops with Attic. -/
def writerStop (s : State) : State := { s with srm.writerOn := false, srm.markDue := none, ldg.copyDue := none }

/-! ### SR-1 ready -/

/-- Records placed ahead of the pending ones. -/
def pushFront (l : List PendRec) (s : State) : State := { s with srm.pend := l ++ s.srm.pend }

/-- A record of the writer's own, formed but not queued. -/
def formed (code : Half) (payload : List Byte) : PendRec := ⟨code, false, false, isFatal code, none, payload⟩

/-- Writing resumes: a time mark, and what was lost meanwhile (R681); `extra` follows them. -/
def resumeWriting (extra : List PendRec) (s : State) : State :=
  if !s.srm.writerOn then s
  else
    let mark := formed 0xE001 (markPayload (ttime s) (mono s) 4 0 s)
    let lost := if s.srm.dropped = 0 then [] else [formed 0xE006 (d4 s.srm.dropped)]
    pushFront (mark :: lost ++ extra) { s with srm.dropped := 0 }

/-- PERM_LOW of an SR-1 that has been seated, with its record where it holds none yet (R675). -/
def permLowNoted (x : Sr1) (s : State) : State :=
  if s.srm.permLow && !(allRecs x).any (fun r => r.code == 0xE003) then ownRecord 0xE003 (d4 (permFree x / 1024)) s else s

/-- An SR-1 is ready: what its MRAM holds is known, record 0xE005, the open record carried (R669, R681, R683, R703). -/
def sr1Ready (content : Option Sr1) (s : State) : State :=
  if (slot srSlot s).st != 1 then s
  else
    let x := content.getD s.srm.sr1
    let done := x.seqEnd || decide (lastSeq < x.nextSeq.toNat)
    let s1 := modSlot srSlot (fun t => { t with st := if done then 3 else 2 })
      { s with srm.sr1 := { x with seqEnd := done }, srm.permLow := decide (permFree x < 524288), srm.permFull := false }
    if done then s1
    else
      let seated := formed 0xE005 (seatedRec s1)
      let carried := match s1.ldg.open_ with
        | some i => if i.written then [formed 0xE100 (carriedRec i)] else []
        | none => []
      if s1.srm.writerOn then permLowNoted x (resumeWriting (seated :: carried) s1) else { s1 with srm.seatDue := true }

/-! ### sr_read -/

/-- Open reads: final responses of `sr_read` that no host has taken. -/
def openReads (s : State) : Nat :=
  let n := fun (h : HifLink) => (h.items.filter fun i => !i.event && i.opcode == 0x0E01 && !i.more).length
  n s.hif.h1 + n s.hif.h2

/-- A record in the stream of a read: whole, or for a partial one its header and SEQ (R684, R685). -/
def envelope (r : Rec) : List Byte :=
  let b := if r.valid then recBytes r else (recBytes r).take 12
  toLE 4 ((if r.valid then 0 else 0x40000000) + b.length) ++ toLE 4 r.off ++ b

/-- A stream cut into parts of 4,072 bytes: at least one. -/
def cut4072 : Nat → List Byte → List (List Byte)
  | 0, _ => []
  | k + 1, b => b.take 4072 :: (if b.length ≤ 4072 then [] else cut4072 k (b.drop 4072))

/-- What a scan of an area finds: behind a partial record it goes on at the next boundary of 4,096 bytes (R685). -/
def scanned (l : List Rec) : List Rec :=
  l.filter fun r => !l.any fun p => !p.valid && decide (p.off < r.off) && decide (r.off < (p.off / 4096 + 1) * 4096)

/-- `sr_read` (R684 to R687). -/
def srRead (r : Req) (s : State) : State :=
  authorised 0x0E01 r (fun t =>
    let b := r.body
    if b.length ≠ 16 || 1 < byteAt b 0 || byteAt b 1 ≠ 0 || leAt b 2 2 = 0 || leAt b 12 4 ≠ 0 then malformed r 0x0E01 t
    else if !slotReadable t || t.cel.pstate != .run then busy r 0x0E01 2 t
    else if 4 ≤ openReads t then busy r 0x0E01 1 t
    else
      let x := t.srm.sr1
      let detail := byteAt b 0 = 1
      let newest := x.nextSeq.toNat - 1
      let wanted := (scanned (areaRecs x detail)).filter fun q =>
        decide (leAt b 4 4 ≤ q.seq.toNat) && decide (q.seq.toNat ≤ newest)
        && (q.code ^^^ BitVec.ofNat 16 (leAt b 8 2)) &&& BitVec.ofNat 16 (leAt b 10 2) == 0
      let stream := ((wanted.take (leAt b 2 2)).map envelope).flatten
      let oldest := if detail then (oldestDetail x).toNat else x.perm.firstSeq.toNat
      let parts := cut4072 (stream.length / 4072 + 1) stream
      parts.zipIdx.foldl (fun u p =>
        respondPart r.port r.tag 0x0E01 stOk (decide (p.2 + 1 < parts.length))
          (toLE 4 oldest ++ toLE 4 newest ++ toLE 2 p.2 ++ [0, 0, 0, 0, 0, 0] ++ p.1) u) t) s
where
  /-- An SR-1 that can be read: ready, or faulted only for its used-up SEQ space (R669). -/
  slotReadable (t : State) : Bool := slotReady srSlot t || ((slot srSlot t).st == 3 && t.srm.sr1.seqEnd)

/-! ### Meanings -/

/-- R670. -/
def execRecordCommit (s : State) : Out := .next (recordCommit s)
/-- R677. -/
def execTokenRefill (code : Half) (s : State) : Out := .next (refill code s)
/-- R676. -/
def execTimeMarkPeriod (s : State) : Out := .next (periodMark s)
/-- R683. -/
def execSr1Ready (content : Option Sr1) (s : State) : Out := .next (sr1Ready content s)
/-- R684. -/
def execSrRead (req : Req) (s : State) : Out := .next (srRead req s)

end Sys2Proof.Machine
end

