-- ==== Sys2Proof/Machine/Views.lean ====
section
/-! DEFINITION. BAR0 as a read finds it (R706, R707, R717): the word of every register of Table 19.2, block by block, from the
state. A register that shows a condition is computed here and stored nowhere. -/
namespace Sys2Proof.Machine

/-! ### SYS (Tables 0.7, 0.8, 1.10 to 1.12, 2.19 to 2.23) -/

/-- SYS_MODE.TRAIN. -/
def trainMode (s : State) : Nat := match s.rlv.st with | .alone => 2 | .interop => 1 | _ => 0
/-- SYS_MODE.SLEEP. -/
def sleepCode (s : State) : Nat := match s.slp.st with | .awake => 0 | .settling => 1 | .asleep => 2
/-- The firmware of a CT-8. -/
def fwOf (c : Ct) (s : State) : FwState := match c with | .a => s.ids.fwA | .b => s.ids.fwB
/-- FW_MAJOR and FW_MINOR of the bank a CT-8 runs. -/
def runMajor (f : FwState) : Byte := if f.running then f.major1 else f.major0
def runMinor (f : FwState) : Byte := if f.running then f.minor1 else f.minor0
/-- CX2_STEP: 0x02 at least on a node this model covers (R17). -/
def cx2StepOf (c : Ct) : Nat := max 2 (Config.cx2Step (c == .b)).toNat

/-- What SYS_MODE shows of a lane: the speed of the last commit, or down while one of this vertex's own spans on it is declared
down (Table 1.9; whose spans count the spec does not say, DESIGN CHOICE, log entry 68). -/
def laneShown (l : Lane) (s : State) : BitVec 2 :=
  let failed := [End.e1, End.e2].any fun e => match nbrOrd e s with | some o => declaredDown l s.rlv.ord o s | none => false
  if failed then 0 else match l with | .a => s.bbn.speedA | .b => s.bbn.speedB

/-- SYS_MODE as an endpoint reads it (Table 1.10). -/
def sysMode (ep : Endpoint) (s : State) : Word :=
  word (putBit 29 s.rlv.plcOnly + putBits 26 2 (plc 1 s).access.toNat + putBits 24 2 (plc 0 s).access.toNat
    + putBits 22 2 (laneShown .b s).toNat + putBits 20 2 (laneShown .a s).toNat + putBits 16 2 (sourceCode s)
    + putBit 13 (s.red.pair == .duplex) + putBit 12 (epActive ep s) + putBits 10 2 (trainMode s) + putBits 8 2 (sleepCode s)
    + putBits 4 3 s.bgt.level.val + putBits 0 3 (pstateCode s.cel.pstate))

/-- SYS_SLOT (Table 2.19). -/
def sysSlot (s : State) : Word :=
  word (((List.finRange 11).map fun n => putBits (2 * n.val) 2 (slot n s).st.toNat).sum
    + ((List.finRange 4).map fun (i : Fin 4) => putBit (24 + i.val) (s.sys.slots[4 + i.val]).lp2f).sum)

/-- SYS_STRAP (Table 2.20). -/
def sysStrap (s : State) : Word :=
  word (putBit 8 s.sys.strapMarginal + putBit 7 s.sys.strapChanged + putBit 6 s.sys.plockLive + putBits 4 2 s.sys.pselLive.toNat
    + putBit 2 s.sys.plock + putBits 0 2 s.sys.psel.toNat)

/-- A lane's roles stand on ports that no relay set joins (R55). -/
def unguarded (l : Lane) (s : State) : Bool :=
  match lanePort l .e1 s, lanePort l .e2 s with
  | none, none => false
  | some p, some q =>
    !((p == 0 && q == 1) || (p == 1 && q == 0) || (p == 2 && q == 3) || (p == 3 && q == 2))
  | _, _ => true

/-- SYS_BYP (Table 2.21). -/
def sysByp (s : State) : Word :=
  word (putBit 9 s.sys.bypB.fault + putBit 8 s.sys.bypA.fault + putBit 5 (unguarded .b s) + putBit 4 (unguarded .a s)
    + putBit 3 s.sys.bypB.holdUntil.isSome + putBit 2 s.sys.bypA.holdUntil.isSome + putBit 1 s.sys.bypB.bridged
    + putBit 0 s.sys.bypA.bridged)

/-- SYS_HFLT (Table 2.22). -/
def sysHflt (s : State) : Word :=
  word (putBits 16 8 s.sys.fvLive.toNat + putBits 8 8 s.sys.fvSeen.toNat + putBit 5 s.sys.battBRev + putBit 4 s.sys.battARev)

/-- The SYS block. -/
def sysReg (ep : Endpoint) (off : Nat) (s : State) : Word :=
  match off with
  | 0x00 => word (0x0880 * 65536 + Config.vendorId.toNat)
  | 0x04 => word (putBits 24 8 (cx2StepOf ep.ct) + putBits 16 8 s.sys.bpBuild.toNat + putBits 8 8 (runMajor (fwOf ep.ct s)).toNat
      + putBits 0 8 (runMinor (fwOf ep.ct s)).toNat)
  | 0x10 => sysMode ep s
  | 0x18 => keyLo s.sys.vkey
  | 0x1C => keyHi s.sys.vkey
  | 0x20 => sysSlot s
  | 0x24 => sysStrap s
  | 0x28 => sysByp s
  | 0x2C => sysHflt s
  | 0x30 => word (bit s.sys.locateUntil.isSome)
  | _ => 0

/-! ### Configuration space (Table 9.2) -/

/-- Words of an endpoint's Type 0 configuration space that Table 9.2 fixes, at their places in every PCI header; the rest, of which the
table names the items only, reads 0 here. -/
def configWord (ep : Endpoint) (off : Nat) (s : State) : Word :=
  match off with
  | 0x00 => word (putBits 16 16 0x0880 + Config.vendorId.toNat)
  | 0x04 => word (putBit 20 true + putBit 2 (endpoint ep s).busMaster + putBit 1 (endpoint ep s).memSpace)
  | 0x08 => word (putBits 8 24 0x028000 + putBits 0 8 (cx2StepOf ep.ct))
  | 0x10 => 4
  | 0x2C => word (putBits 16 16 (match ep.link with | .h1 => 1 | .h2 => 2) + Config.vendorId.toNat)
  | _ => 0

/-- Configuration requests are answered: until S3 has ended with Configuration Request Retry Status (R542). -/
def configServed (s : State) : Bool :=
  match s.cel.pstate with
  | .run | .falling => true
  | .rising => decide (4 ≤ s.cel.step)
  | _ => false

/-- What an endpoint answers to a configuration read: none stands for Retry Status. -/
def configRead (ep : Endpoint) (off : Nat) (s : State) : Option Word := if configServed s then some (configWord ep off s) else none

/-- The longest read request and the longest write an endpoint issues, in bytes (R384). -/
def requestLimits (ep : Endpoint) (s : State) : Nat × Nat := (min 512 (endpoint ep s).maxRead, (endpoint ep s).maxPayload)

/-! ### HIF (Table 9.13) and contexts (Tables 9.14, 10.8) -/

/-- HIF_STATUS of an endpoint. MGMT_RUN: both rings of the link's CQP 0 run. -/
def hifStatus (ep : Endpoint) (s : State) : Word :=
  let e := endpoint ep s
  let c := (hlink ep.link s).ctx0
  word (((List.finRange 16).map fun (n : CqNo) => putBit (16 + n.val) (cq n s).full).sum + putBit 9 (!e.atomicOp)
    + putBit 8 (c.txState == .running && c.rxState == .running) + putBits 4 2 e.width + putBits 2 2 e.gen
    + putBit 1 (ep.link == .h2) + putBit 0 (e.power == .l0 || e.power == .l1))

/-- HIF_CQn_CTRL. -/
def cqCtrl (q : CqState) : Word :=
  word (putBit 31 q.en + putBits 30 1 (Link.num q.link) + putBits 8 6 q.vec.toNat + putBits 0 5 q.sizeLog2.toNat)
/-- HIF_CQn_MOD. -/
def cqMod (q : CqState) : Word := word (putBit 31 q.urgNow + putBits 16 10 q.timer.toNat + putBits 0 8 q.count.toNat)

/-- The HIF block. -/
def hifReg (ep : Endpoint) (off : Nat) (s : State) : Word :=
  let h := hlink ep.link s
  if off < 0x100 then
    match off with
    | 0x00 => hifStatus ep s
    | 0x04 => word (bit h.mgmtEn)
    | 0x08 => lo32 h.db
    | 0x0C => hi32 h.db
    | 0x10 => lo32 h.shadow
    | 0x14 => hi32 h.shadow
    | 0x18 => word s.hif.h2Base
    | _ => 0
  else if off < 0x200 then
    let q := s.hif.cqs.toList.getD ((off - 0x100) / 16) CqState.reset
    match off % 16 with
    | 0x0 => lo32 q.base
    | 0x4 => hi32 q.base
    | 0x8 => cqCtrl q
    | _ => cqMod q
  else if 0x1000 ≤ off && off < 0x1400 then msixWord (endpoint ep s) ((off - 0x1000) / 4)
  else if off = 0x1400 then lo32 (endpoint ep s).pba
  else if off = 0x1404 then hi32 (endpoint ep s).pba
  else 0

/-- Code of a ring's state. -/
def ringCode (r : RingState) : Nat := match r with | .stopped => 0 | .running => 1 | .stopping => 2 | .halted => 3
/-- Code of a halt's reason. -/
def whyCode (w : HaltWhy) : Nat := match w with | .malformed => 0 | .hostRead => 1 | .overrun => 2
/-- Occupancy in 4 KiB units, rounded up. -/
def units4k (n : Nat) : Nat := (n + 4095) / 4096

/-- A context entry (Tables 9.14, 10.8). -/
def ctxReg (ep : Endpoint) (c off : Nat) (s : State) : Word :=
  let l := if c = 0 then ep.link else ownerOf c s
  let x := ctx l c s
  match off with
  | 0x00 => lo32 x.txBase
  | 0x04 => hi32 x.txBase
  | 0x08 => lo32 x.rxBase
  | 0x0C => hi32 x.rxBase
  | 0x10 => x.ctrl
  | 0x14 => x.admTx
  | 0x18 => x.admRx
  | 0x1C => word (putBits 16 16 (sat 65535 (units4k (txUsed l c s))) + putBits 0 16 (sat 65535 (units4k (rxUsed l c s))))
  | 0x20 => word (putBits 16 16 x.haltIdx.toNat + putBits 10 2 (whyCode x.haltWhy) + putBit 9 x.haltRx + putBit 8 x.haltTx
      + putBits 4 2 (ringCode x.rxState) + putBits 0 2 (ringCode x.txState))
  | 0x24 => word (putBits 16 16 x.txDone.toNat + putBits 0 16 x.txFetch.toNat)
  | 0x28 => word (putBits 16 16 x.rxDone.toNat + putBits 0 16 x.rxProd.toNat)
  | 0x2C => x.cntRxNobuf
  | 0x30 => x.cntTx
  | 0x34 => x.cntRx
  | _ => 0

/-! ### ARB and ADM (Table 10.7) -/

/-- The ARB and ADM block. -/
def arbReg (off : Nat) (s : State) : Word :=
  let pool := fun (k : Nat) => word (units4k (poolUse k s))
  match off with
  | 0x000 => arbCfg s
  | 0x004 => s.arb.cls
  | 0x008 => word (putBits 16 16 s.arb.req.toNat + putBits 8 4 s.arb.grant.toNat + putBit 7 s.arb.grantValid
      + putBits 0 7 s.arb.ageCount)
  | 0x040 => word s.arb.bLimit.toNat
  | 0x044 => pool 0
  | 0x048 => pool 1
  | 0x04C => pool 2
  | 0x050 => pool 3
  | 0x060 => s.arb.cntCongestion
  | 0x064 => s.arb.cntBudget
  | 0x068 => s.arb.cntTransit
  | _ => 0

/-! ### PWR (Tables 12.10 to 12.12) and BGT (Table 14.9) -/

/-- PWR_STATUS. -/
def pwrStatus (s : State) : Word :=
  word (putBits 20 12 (sat 4095 s.pwr.rideS) + putBits 10 10 (sat 1023 s.pwr.load) + putBit 6 s.pwr.bankEmpty
    + putBit 5 (pwFed 0 s && pwFed 1 s) + putBit 3 (pwCarries 1 s) + putBit 2 (pwCarries 0 s) + putBits 0 2 (sourceCode s))

/-- The page of a PW-2. -/
def pwReg (p : PwUnit) (off : Nat) : Word :=
  match off with
  | 0x00 => word (putBit 27 p.test.isSome + putBit 26 p.bankLow + putBit 25 p.bankFull + putBit 24 p.hbWait + putBit 16 p.outFault
      + putBit 12 p.battOv + putBit 11 p.battRev + putBit 10 p.battQual + putBit 9 p.battPres + putBit 8 p.mainsInvalid
      + putBit 7 p.mainsQual + putBit 6 p.mainsPres + putBits 0 3 (pwCode p.st))
  | 0x04 => word (putBits 16 16 p.mainsFreq.toNat + putBits 0 12 p.mainsV.toNat)
  | 0x08 => word (putBits 16 12 p.battI.toNat + putBits 0 12 (if p.battRev then 0 else p.battV.toNat))
  | 0x0C => word (putBits 16 10 (sat 1023 p.cap) + putBits 0 10 (sat 1023 p.energy))
  | 0x10 => word (putBits 16 10 p.inPower.toNat + putBits 0 10 p.outPower.toNat)
  | 0x18 => keyLo p.serial
  | 0x1C => keyHi p.serial
  | 0x20 => lo32 p.eMains
  | 0x24 => hi32 p.eMains
  | 0x28 => lo32 p.eBatt
  | 0x2C => hi32 p.eBatt
  | 0x30 => lo32 p.eBank
  | 0x34 => hi32 p.eBank
  | 0x38 => lo32 p.eOut
  | 0x3C => hi32 p.eOut
  | 0x40 => p.cntHandover
  | 0x44 => p.cntHandback
  | 0x48 => p.cntQualRestart
  | _ => 0

/-- Seconds until an instant, rounded up. -/
def secondsTo (t : Option Ns) (s : State) : Nat := match t with | some x => (x - s.now + 999999999) / 1000000000 | none => 0

/-- Seconds spent at a level so far. -/
def levelSeconds (k : Fin 6) (s : State) : Nat :=
  ((s.bgt.timeNs)[k] + (if s.bgt.level == k then s.now - s.bgt.levelSince else 0)) / 1000000000

/-- The BGT block. -/
def bgtReg (off : Nat) (s : State) : Word :=
  let b := s.bgt
  match off with
  | 0x000 => word (putBit 25 b.hotOff + putBit 24 b.holdUntil.isSome + putBits 20 3 b.hostCap + putBits 16 3 b.loadCap
      + putBits 12 3 b.heatCap + putBits 8 3 b.energyCap + putBits 4 3 b.srcCap + putBits 0 3 b.level.val)
  | 0x004 => bgtCfgWord s
  | 0x008 => word (putBits 8 8 b.tChassis.toNat + putBits 0 8 b.tCx2.toNat)
  | 0x00C => word (putBits 4 17 (secondsTo b.hostCapUntil s) + putBits 0 3 b.hostCap)
  | 0x040 => b.cntDeeper
  | 0x044 => b.cntShallower
  | 0x048 => b.cntShed
  | 0x04C => b.cntOverrun
  | 0x060 => word (levelSeconds 0 s)
  | 0x064 => word (levelSeconds 1 s)
  | 0x068 => word (levelSeconds 2 s)
  | 0x06C => word (levelSeconds 3 s)
  | 0x070 => word (levelSeconds 4 s)
  | 0x074 => word (levelSeconds 5 s)
  | _ => 0

/-- The PWR unit: PWR, then BGT at 0x800. -/
def pwrReg (off : Nat) (s : State) : Word :=
  if off = 0 then pwrStatus s
  else if off = 4 then pwrCfgWord s
  else if 0x100 ≤ off && off < 0x200 then pwReg s.pwr.a (off - 0x100)
  else if 0x200 ≤ off && off < 0x300 then pwReg s.pwr.b (off - 0x200)
  else if 0x800 ≤ off then bgtReg (off - 0x800) s
  else 0

/-! ### CEL (Tables 13.11, 13.12) and SLP (Table 15.8) -/

/-- A CT-8 is ready. -/
def ctReady (s : State) : Bool := slotReady 2 s || slotReady 3 s
/-- The ready LP cartridge of a port with a lane role, or a PC-2. -/
def islandSet (s : State) : Bool :=
  slotReady pcSlot s || (List.finRange 8).any fun n => decide (2 ≤ (port n s).role.toNat) && slotReady (portSlot n) s
/-- A host link in L0 with MGMT_EN set. -/
def hostServed (s : State) : Bool := [Link.h1, .h2].any fun l => inL0 (activeEp l s) s && (hlink l s).mgmtEn
/-- CEL_STATUS.LEVEL (R535). -/
def serviceLevel (s : State) : Nat :=
  if !(ctReady s && (pwReady 0 s || pwReady 1 s)) then 0 else if !islandSet s then 1 else if !hostServed s then 2 else 3

/-- CEL_STATUS (Table 13.11). -/
def celStatus (s : State) : Word :=
  let c := s.cel
  let step := if c.pstate == .rising || c.pstate == .falling then c.step else 0
  let latch := match c.latch with | .none => 0 | .offReq => 1 | .onReq => 2
  word (putBits 24 2 (serviceLevel s) + putBit 21 c.stepFail + putBit 20 c.monoRestart + putBit 19 c.xtalFault + putBit 18 c.warm
    + putBits 16 2 latch + putBit 11 (c.pstate == .falling) + putBits 8 3 step + putBits 0 3 (pstateCode c.pstate))

/-- The SLP block. -/
def slpReg (off : Nat) (s : State) : Word :=
  let x := s.slp
  match off with
  | 0x000 => word (putBit 7 x.holdH2 + putBit 6 x.holdH1 + putBit 5 x.localWake + putBit 4 x.sleepAt.isSome + putBit 3 x.masterArmed
      + putBit 2 (demand s) + putBits 0 2 (sleepCode s))
  | 0x004 => slpCfgWord s
  | 0x008 => word x.trainWake.toNat
  | 0x00C => lo32 (x.sleepAt.getD 0)
  | 0x010 => hi32 (x.sleepAt.getD 0)
  | 0x014 => word (sat 0xFFFFFFFF ((s.now - x.kaSince) / 1000000))
  | 0x040 => x.cntSleep
  | 0x044 => x.cntCancel
  | 0x048 => x.cntWakeTrain
  | 0x04C => x.cntWakeRelay
  | 0x050 => x.cntWakeLocal
  | _ => 0

/-- The CEL unit: CEL, then SLP at 0x400. -/
def celReg (off : Nat) (s : State) : Word :=
  let c := s.cel
  if 0x400 ≤ off then slpReg (off - 0x400) s
  else match off with
    | 0x000 => celStatus s
    | 0x004 => celCfgWord s
    | 0x008 => lo32 (BitVec.ofNat 64 (mono s))
    | 0x00C => hi32 (BitVec.ofNat 64 (mono s))
    | 0x010 => c.wakeCause
    | 0x014 => word (putBits 0 5 c.wakeFirst)
    | 0x018 => c.wakeTick
    | 0x01C => word (match c.timerAt with | some t => nsTicks (t - s.now) | none => 0)
    | 0x020 => word (putBits 16 16 c.xtalPpm.toNat + putBit 3 c.serdesLock + putBit 2 c.coreLock + putBit 1 c.refOk + putBit 0 c.xtalOk)
    | 0x040 => c.cntRise
    | 0x044 => c.cntFall
    | 0x048 => c.cntReverse
    | 0x04C => c.cntLastgasp
    | 0x050 => c.cntStepFail
    | _ => 0

/-! ### VX (Tables 8.8 to 8.10) -/

/-- Code of a CAN channel's state. -/
def canCode (x : CanState) : Nat :=
  match x with
  | .stopped => 0
  | .integrating => 1
  | .errActive => 2
  | .errPassive => 3
  | .busOff => 4
  | .listenOnly => 5

/-- A CAN channel's page. -/
def canReg (ch : Chan) (off : Nat) (s : State) : Word :=
  let c := can ch s
  match off with
  | 0x00 => c.cfg
  | 0x04 => c.nbt
  | 0x08 => c.dbt
  | 0x0C => word c.cqp.toNat
  | 0x10 => word (putBits 24 8 (sat 255 c.tec) + putBits 16 8 (sat 255 c.recCnt)
      + ((List.finRange 3).map fun (i : Fin 3) => putBit (8 + i.val) (c.bufs[i]).isSome).sum + putBit 4 c.busFault
      + putBits 0 3 (canCode (canState ch s)))
  | 0x14 => lo32 c.mbx
  | 0x18 => hi32 c.mbx
  | 0x1C => c.mbxCtrl
  | 0x20 => word c.txto.toNat
  | 0x40 => c.cntRx
  | 0x44 => c.cntTx
  | 0x48 => c.cntTxto
  | 0x4C => c.cntErrPassive
  | 0x50 => c.cntBusoff
  | 0x54 => c.cntMbxOvf
  | 0x58 => c.cntRxNobuf
  | 0x5C => c.cntRemote
  | 0x60 => c.cntBusErr
  | _ => 0

/-- A pair's byte of VX_IN_STATUS. -/
def pairByte (p : PairInput) : Nat :=
  let st := match p.st with | .settling => 0 | .agreed => 1 | .discrepant => 2 | .unknown => 3
  putBit 4 p.debB + putBit 3 p.debA + putBit 2 p.value + st

/-- The VX unit. -/
def vxReg (off : Nat) (s : State) : Word :=
  if 0x100 ≤ off && off < 0x200 then canReg 0 (off - 0x100) s
  else if 0x200 ≤ off && off < 0x300 then canReg 1 (off - 0x200) s
  else if 0x400 ≤ off && off < 0x410 then inCfgWord (s.vx.pairs.toList.getD ((off - 0x400) / 4) PairInput.reset)
  else if 0x800 ≤ off && off < 0xA00 then
    let c := if off < 0x900 then s.vx.can0 else s.vx.can1
    let f := c.flts.toList.getD (off % 0x100 / 8) ⟨0, 0⟩
    if off % 8 < 4 then f.id else f.mask
  else match off with
    | 0x410 => word ((List.finRange 4).map fun (p : PairNo) => putBits (8 * p.val) 8 (pairByte s.vx.pairs[p])).sum
    | 0x414 => word ((List.finRange 4).map fun (p : PairNo) => putBit p.val (s.vx.pairs[p]).fault).sum
    | 0x420 => outCfgWord s
    | 0x424 => word (putBits 8 8 (healthNow s).toNat + putBit 3 s.vx.out1Test.isSome + putBit 2 s.vx.out0Test.isSome
        + putBit 1 s.vx.out1Closed + putBit 0 s.vx.out0Closed)
    | _ => 0

/-! ### Line ports (Tables 5.7 to 5.9, 6.8, 10.9) -/

/-- LP_STATUS. LOS: no valid symbol is received, so that a port in use has signal only with its link (log entry 49). -/
def lpStatus (n : PortNo) (s : State) : Word :=
  let p := port n s
  word (putBit 15 p.cntRestart + putBit 14 p.restricted + putBit 13 p.speedAborted + putBit 12 p.parDet
    + putBit 11 (slot (portSlot n) s).lp2f + putBit 10 (p.los || (p.role != 0 && !p.link)) + putBits 8 2 (speedCode p.speed) + putBit 7 p.link + putBit 6 p.mdix
    + putBit 5 p.master + putBit 4 p.test.isSome + putBit 3 p.changing + putBit 2 (fvLiveAt n s))

/-- LP_FC_STATUS. -/
def lpFcStatus (n : PortNo) (s : State) : Word :=
  let p := port n s
  word (putBit 24 p.txPauseXoff + putBits 16 8 p.txXoff.toNat + putBit 10 p.stormUntil.isSome + putBit 9 p.storm
    + putBit 8 (match p.rxPauseUntil with | some t => decide (s.now < t) | none => false)
    + ((List.finRange 8).map fun (i : Fin 8) => putBit i.val (pfcStopped n i s)).sum)

/-- Code of the verify state. -/
def verifyCode (v : VerifyState) : Nat :=
  match v with
  | .disabled => 0
  | .initial => 1
  | .verifying => 2
  | .succeeded => 3
  | .failed => 4

/-- LP_GATE_STATUS: the entry and the gates in force. -/
def gateStatus (p : LinePort) : Word :=
  if p.gateEn then word (putBits 16 6 p.gateEntry.toNat + putBits 0 8 p.gates.toNat) else 0x000000FF

/-- A counter as it is read: PAUSED_US with the pause in force (Table 6.10). -/
def liveCount (n : PortNo) (off : Nat) (s : State) : Word :=
  if off = 0x4F8 then portCount n off s + BitVec.ofNat 32 (pausedSoFar (port n s) s) else portCount n off s

/-- The page of a line port. -/
def lpReg (n : PortNo) (off : Nat) (s : State) : Word :=
  let p := port n s
  if off < 0x100 then
    match off with
    | 0x000 => lpCfgWord p
    | 0x004 => lpStatus n s
    | 0x008 => word (effMaxLen n s)
    | 0x00C => word p.bind.toNat
    | 0x010 => p.half0
    | 0x014 => p.half1
    | 0x018 => p.cableRes0
    | 0x01C => p.cableRes1
    | 0x020 => p.wakeHit
    | 0x030 => word p.inQuota.toNat
    | 0x034 => word (units4k (inUse n s))
    | _ => 0
  else if off < 0x200 then
    let w := p.wake.toList.getD ((off - 0x100) / 0x20) ⟨false, 0, 0⟩
    let k := off % 0x20
    if 0x180 ≤ off then 0
    else if k < 0x10 then word (w.mask.toNat / 2 ^ (8 * k))
    else if k = 0x10 then word (putBit 31 w.en + putBits 0 16 w.crc.toNat)
    else 0
  else if off < 0x400 then
    match off with
    | 0x200 => p.qmap
    | 0x204 => lpFcWord p
    | 0x208 => lpFcThrWord p
    | 0x20C => lpFcStatus n s
    | 0x210 => p.preempt
    | 0x214 => word (putBit 5 p.part.isSome + putBit 4 p.hold + putBit 3 p.preemptActive + putBits 0 3 (verifyCode p.verify))
    | 0x218 => word (putBit 5 p.gatePending + putBit 4 p.activeBuf + putBit 0 p.gateEn)
    | 0x21C => gateStatus p
    | 0x220 => gclCfgWord p.gcl0
    | 0x224 => gclCfgWord p.gcl1
    | 0x228 => p.gateSwitch
    | _ => 0
  else if off < 0x500 then liveCount n off s
  else if off < 0x600 then p.gcl0.entries.getD ((off - 0x500) / 4) 0
  else if off < 0x700 then p.gcl1.entries.getD ((off - 0x600) / 4) 0
  else 0

/-! ### BBN, TC_PCP, RLV, PLC (Tables 3.11 to 3.13, 4.10, 4.11, 6.7, 7.16 to 7.18) -/

/-- The BBN block with TC_PCP. -/
def bbnReg (off : Nat) (s : State) : Word :=
  let b := s.bbn
  match off with
  | 0x00 => word (putBit 7 (movedNow .b s) + putBit 6 (movedNow .a s) + putBit 5 (spansUp .b s) + putBit 4 (spansUp .a s)
      + putBit 3 b.syncOk + putBit 2 b.gm + putBit 1 b.timeValid + putBit 0 b.cycle1ms)
  | 0x04 => bbnCfgWord s
  | 0x08 => lo32 (trainTime s)
  | 0x0C => hi32 (trainTime s)
  | 0x10 => b.offset
  | 0x14 => word (cycleIdx s)
  | 0x20 => b.cntUlate
  | 0x24 => b.cntHchk
  | 0x28 => b.cntStomp
  | 0x2C => b.cntDup
  | 0x30 => b.cntLate
  | 0x34 => b.cntGap
  | 0x38 => b.cntFailover
  | 0x40 => tcPcpWord s
  | _ => 0

/-- An end's half of RLV_NBR (Table 3.13). -/
def nbrBits (e : End) (s : State) : Nat :=
  let x := endOf e s
  putBit 0 x.accepted.isSome + putBit 1 (spanIsUp .a e s && sweepsOn .a e s) + putBit 2 (spanIsUp .b e s && sweepsOn .b e s)
  + putBit 3 (cplOk e s) + putBit 4 (anyUnknown e s) + putBit 5 x.disagree + putBit 6 x.corr + putBit 7 (foreignAtEnd e s)
  + putBit 8 (barredAt e s)

/-- RLV_STATUS.STATE. -/
def rlvCode (x : RlvState) : Nat := match x with | .alone => 0 | .settled => 1 | .gather => 2 | .pending => 3 | .interop => 4

/-- The RLV block. -/
def rlvReg (off : Nat) (s : State) : Word :=
  let r := s.rlv
  match off with
  | 0x00 => word (putBit 31 r.estimated + putBit 30 r.pinned + putBits 24 6 (polyCount s) + putBits 16 2 r.refEnd.toNat
      + putBits 8 6 r.ord + putBit 7 (r.end1.hold.isSome || r.end2.hold.isSome) + putBit 6 (r.end1.barredHere || r.end2.barredHere)
      + putBits 0 3 (rlvCode r.st))
  | 0x04 => r.epoch
  | 0x08 => r.digest
  | 0x0C => keyLo r.refKey
  | 0x10 => keyHi r.refKey
  | 0x14 => word (putBits 16 16 (nbrBits .e2 s) + putBits 0 16 (nbrBits .e1 s))
  | 0x20 => rlvCfgWord s
  | 0x30 => r.cntCommit
  | 0x34 => r.cntAbandon
  | 0x38 => r.cntStale
  | _ => 0

/-- Code of an attach state. -/
def attCode (a : AttState) : Nat :=
  match a with
  | .detached => 0
  | .sensing => 1
  | .ramp => 2
  | .closing => 3
  | .locking => 4
  | .listening => 5
  | .associated => 6

/-- A power-line channel's page. -/
def plcReg (c : Chan) (off : Nat) (s : State) : Word :=
  let p := plc c s
  match off with
  | 0x000 => p.cfg
  | 0x004 => word (putBit 18 p.timeSrc + putBit 17 p.synth + putBit 16 p.heating + putBits 8 7 p.stn.toNat + putBits 6 2 p.role.toNat
      + putBits 4 2 (lineType p) + putBits 0 3 (attCode p.att))
  | 0x008 => plcLine p
  | 0x00C => zcCal p
  | 0x010 => word (putBits 16 16 p.sfNum.toNat + putBits 8 5 p.winIdx.toNat + putBits 0 6 p.w.toNat)
  | 0x014 => keyLo p.coord
  | 0x018 => keyHi p.coord
  | 0x01C => word (putBits 8 8 p.dutyLimit.toNat + putBits 0 8 p.lastDuty.toNat)
  | 0x100 => p.cntFramesTx
  | 0x104 => p.cntFramesRx
  | 0x108 => p.cntUTx
  | 0x10C => p.cntURepeat
  | 0x110 => p.cntRsCorr
  | 0x114 => p.cntRsUncorr
  | 0x118 => p.cntTmEarly
  | 0x11C => p.cntAttachAbort
  | 0x120 => p.cntBeaconMiss
  | 0x124 => p.cntDeferred
  | _ => 0

/-! ### SEC, IDS (Table 17.10), SRM, LDG (Table 18.11), RRW (Table 11.9), RED (Table 16.13) -/

/-- IDS_FWA or IDS_FWB. -/
def fwWord (f : FwState) : Word :=
  word (putBit 31 f.trial.isSome + putBit 30 f.reverted + putBit 27 f.valid1 + putBit 26 f.valid0 + putBit 25 f.running
    + putBit 24 f.committed + putBits 8 2 f.failedStarts)
/-- IDS_FWA_REL or IDS_FWB_REL. -/
def fwRel (f : FwState) : Word :=
  word ((if f.valid1 then putBits 24 8 f.major1.toNat + putBits 16 8 f.minor1.toNat else 0)
    + (if f.valid0 then putBits 8 8 f.major0.toNat + putBits 0 8 f.minor0.toNat else 0))

/-- The SEC and IDS blocks, from 0xF000. -/
def secReg (ep : Endpoint) (off : Nat) (s : State) : Word :=
  let i := s.ids
  match off with
  | 0x000 => word (Link.num ep.link)
  | 0x004 => s.sec.cntDeniedMsg
  | 0x008 => s.sec.cntDeniedWr
  | 0x00C => s.sec.lastDenied
  | 0x800 => word (putBit 10 i.op.isSome + putBit 9 i.keyPending + putBit 8 i.keyInvalid + putBit 4 i.partialSel
      + putBit 3 i.profFault + putBit 2 i.selCmd + putBits 0 2 i.activeProf.toNat)
  | 0x804 => i.digest
  | 0x808 => i.serial
  | 0x80C => word ((List.range 4).map fun p => putBit p (profileValid p s)).sum
  | 0x810 => i.histSeq
  | 0x820 => fwWord i.fwA
  | 0x824 => fwWord i.fwB
  | 0x828 => fwRel i.fwA
  | 0x82C => fwRel i.fwB
  | _ => 0

/-- The SRM block. -/
def srmReg (off : Nat) (s : State) : Word :=
  let m := s.srm
  match off with
  | 0x00 => word (putBit 31 (slotReady srSlot s) + putBit 30 m.permLow + putBit 29 m.permFull + putBit 28 m.sr1.seqEnd
      + putBits 16 3 m.sr1.cur + putBits 0 16 (sat 65535 m.pend.length))
  | 0x04 => m.sr1.nextSeq
  | 0x08 => oldestDetail m.sr1
  | 0x0C => word (putBits 0 14 (permFree m.sr1 / 1024))
  | 0x10 => keyLo m.sr1.serial
  | 0x14 => keyHi m.sr1.serial
  | 0x40 => m.cntWritten
  | 0x44 => m.cntSuppressed
  | 0x48 => m.cntLost
  | 0x4C => m.cntRecycle
  | _ => 0

/-- The LDG block. -/
def ldgReg (off : Nat) (s : State) : Word :=
  let g := s.ldg
  let start := match g.open_ with | some i => i.startMono | none => 0
  match off with
  | 0x00 => ldgCfg s
  | 0x04 => word (putBits 16 16 (match g.open_ with | some i => i.flags.toNat | none => 0) + putBits 0 7 g.kept.length)
  | 0x08 => g.runId
  | 0x0C => lo32 start
  | 0x10 => hi32 start
  | 0x14 => lo32 g.due
  | 0x18 => hi32 g.due
  | 0x40 => g.cntClosed
  | 0x44 => g.cntFlagged
  | _ => 0

/-- RRW_LEASE: ms since the grant and µs left, 0 while no lock is held. -/
def rrwLease (s : State) : Word :=
  if s.rrw.locked then
    word (putBits 16 16 (sat 65535 ((s.now - s.rrw.grantAt) / 1000000)) + putBits 0 16 (sat 65535 ((s.rrw.leaseEnd - s.now) / 1000)))
  else 0

/-- A native frame's bytes are this node's answer to a remote-window request that it served: its own flow 0x0A0, a response, and not
the BUSY 0x11 of a request beyond the sixteenth (R461, R464). -/
def isServed (s : State) (b : List Byte) : Bool :=
  beAt b 20 2 / 16 == 0x0A0 && beAt b 4 6 == (vkey s).toNat && decide (44 ≤ b.length) && decide (8 ≤ byteAt b 28 % 16)
  && !(byteAt b 38 == 0x0F && byteAt b 39 == 0x11)

/-- Remote requests being served here: a request stays in service until its response begins to leave (R464, Table 11.7), so they are
the answers that wait at a port, on a power-line channel or for a held vertex. -/
def rrwServing (s : State) : Nat :=
  let atPort := fun (o : OutFrame) => match o.nat with | some f => isServed s (natBytes f) | none => false
  (s.lp.toList.flatMap fun p => p.queues.toList.flatten.filter atPort).length
  + (s.plc.toList.flatMap fun c => c.dataQ.filter fun d => isServed s d.bytes).length
  + (s.rlv.heldFrames.filter atPort).length

/-- The RRW block (Table 11.9). -/
def rrwReg (off : Nat) (s : State) : Word :=
  let r := s.rrw
  match off with
  | 0x00 => rrwCfgWord s
  | 0x04 => word (putBit 31 r.locked + putBit 30 r.broken + putBits 0 16 r.lockId.toNat)
  | 0x08 => keyLo r.lockKey
  | 0x0C => keyHi r.lockKey
  | 0x10 => rrwLease s
  | 0x14 => word (min 256 r.held.length)
  | 0x18 => word (putBits 16 5 (min 16 (rrwServing s)) + putBits 0 6 r.open_.length)
  | 0x40 => r.cntSent
  | 0x44 => r.cntTimeout
  | 0x48 => r.cntLateRsp
  | 0x4C => r.cntLateErr
  | 0x50 => r.cntServed
  | 0x54 => r.cntRefused
  | 0x58 => r.cntBroken
  | _ => 0

/-- The management view of a unit of Table 16.8 (R615). -/
def mgmtView (u : Fin 15) (s : State) : Bool :=
  if h : u.val < 8 then slotReady (portSlot ⟨u.val, h⟩) s && (port ⟨u.val, h⟩ s).link
  else match u.val with
    | 8 => slotReady pcSlot s && (plc 0 s).att == .associated
    | 9 => slotReady pcSlot s && (plc 1 s).att == .associated
    | 10 => canState 0 s == .errActive || canState 0 s == .errPassive
    | 11 => canState 1 s == .errActive || canState 1 s == .errPassive
    | 12 => s.red.pair == .duplex
    | 13 => pwFed 0 s || s.pwr.a.st == .bank
    | _ => pwFed 1 s || s.pwr.b.st == .bank

/-- The data view of a unit: the one found as the two differed, until they agree again; else that of the management view. -/
def dataView (u : Fin 15) (s : State) : Bool :=
  if s.red.differs.getLsbD u.val then s.red.dataSeen.getLsbD u.val else mgmtView u s

/-- A word with one bit per unit of Table 16.8. -/
def unitBits (f : Fin 15 → Bool) : Word := word ((List.finRange 15).map fun u => putBit u.val (f u)).sum

/-- Code of RED_STATUS.PAIR. -/
def pairCode (p : PairSt) : Nat := match p with | .none => 0 | .duplex => 1 | .unpaired => 2 | .joining => 3
/-- Code of a lever. -/
def leverCode (l : LeverState) : Nat := match l with | .none => 0 | .preparing => 1 | .safe => 2 | .notSafe => 3
/-- Code of a config set's state. -/
def cfgCode (c : CfgSetState) : Nat := match c with | .empty => 0 | .staged => 1 | .committing => 2 | .forcing => 3

/-- The RED block. -/
def redReg (ep : Endpoint) (off : Nat) (s : State) : Word :=
  let r := s.red
  match off with
  | 0x00 => word (putBit 11 r.hbLinkFault + putBit 10 r.minorDiff + putBits 8 2 (pairCode r.pair) + putBit 3 r.peerPresent
      + putBit 2 (r.pair == .duplex) + putBit 1 (epActive ep s) + putBit 0 r.activeB)
  | 0x04 => word ((List.finRange 11).map fun (n : Slot) => putBits (2 * n.val) 2 (leverCode r.lever[n])).sum
  | 0x10 => unitBits fun u => mgmtView u s
  | 0x14 => unitBits fun u => dataView u s
  | 0x18 => word r.viewDiff.toNat
  | 0x20 => word (putBits 30 2 (cfgCode r.cfgState) + (if r.cfgState == .empty then 0 else putBits 29 1 (Link.num r.cfgOwner))
      + putBits 8 8 r.cfgNext + putBits 0 8 r.cfgItems.length)
  | 0x24 => word r.cfgCycle
  | 0x30 => r.lastFo
  | 0x40 => r.cntTakeover
  | 0x44 => r.cntSwitchover
  | 0x48 => r.cntReexec
  | 0x4C => r.cntUnannounced
  | _ => 0

/-! ### BAR0 (Table 19.2, R707, R717) -/

/-- The live word of BAR0 at an offset, through an endpoint. An offset that no block assigns reads 0. -/
def readWord (ep : Endpoint) (off : Nat) (s : State) : Word :=
  if off < 0x1000 then sysReg ep off s
  else if off < 0x3000 then hifReg ep (off - 0x1000) s
  else if off < 0x4000 then arbReg (off - 0x3000) s
  else if off < 0x5000 then pwrReg (off - 0x4000) s
  else if off < 0x6000 then celReg (off - 0x5000) s
  else if off < 0x8000 then vxReg (off - 0x6000) s
  else if off < 0xC000 then lpReg (asPort ((off - 0x8000) / 0x800)) (off % 0x800) s
  else if off < 0xD000 then bbnReg (off - 0xC000) s
  else if off < 0xE000 then rlvReg (off - 0xD000) s
  else if off < 0xE400 then plcReg 0 (off - 0xE000) s
  else if off < 0xE800 then plcReg 1 (off - 0xE400) s
  else if off < 0xF000 then 0
  else if off < 0x10000 then secReg ep (off - 0xF000) s
  else if off < 0x20000 then ctxReg ep ((off - 0x10000) / 64) (off % 64) s
  else if off < 0x21000 then srmReg (off - 0x20000) s
  else if off < 0x22000 then rrwReg (off - 0x21000) s
  else if off < 0x23000 then ldgReg (off - 0x22000) s
  else if off < 0x24000 then redReg ep (off - 0x23000) s
  else if 0x30000 ≤ off && off < 0x30800 then
    liveCount (asPort ((off - 0x30000) / 0x100)) (0x400 + off % 0x100) s
  else 0

end Sys2Proof.Machine
end

