-- ==== Sys2Proof/Machine/Writes.lean ====
section
/-! DEFINITION. Host accesses to registers: who may write what (R387, R391, R392, R635), writes held under a lock (R477), reads. -/
namespace Sys2Proof.Machine

/-! ### Who may write -/

/-- The registers on which a write through H2 takes effect (R635). -/
def h2May (a : Nat) (s : State) : Bool :=
  isMsix a || a == 0x30 || (decide (0x1004 ≤ a) && decide (a < 0x1018))
  || (match cqAt a with | some n => (cq n s).link == .h2 | none => false)
  || (match ctxAt a with | some c => c == 0 || ownerOf c s == .h2 | none => false)
  || (match mbxAt a with | some ch => (can ch s).cqp != 0 && ownerOf (can ch s).cqp.toNat s == .h2 | none => false)

/-- A write that R635 discards: counted, latched, event 0xD002 at most once per second. -/
def deniedWrite (a : Nat) (s : State) : State :=
  let s1 := { s with sec.cntDeniedWr := s.sec.cntDeniedWr + 1, sec.lastDenied := word (putBits 12 20 a + putBits 0 4 1) }
  raiseSpaced s1.sec.wrEvAt (sec 1) (fun t => { t with sec.wrEvAt := some t.now }) 0xD002 (d2 a) s1

/-- A write waits while a remote-window lock is held (R477), else it takes effect. -/
def commitWrite (ep : Endpoint) (off : Offset) (lo : Option Word) (v : Word) (s : State) : State :=
  if s.rrw.locked then { s with rrw.held := s.rrw.held ++ [⟨ep, off, v, lo⟩] } else writeNow ep off.toNat lo v s

/-- A register write by a host through an endpoint (R10, R387, R477, R635). -/
def hostWrite (ep : Endpoint) (off : Offset) (v : Word) (s : State) : State :=
  let a := off.toNat
  if !inL0 ep s then s
  else if ep.link == .h2 && !h2May a s then deniedWrite a s
  else if isMsix a then (if epActive ep s then commitWrite ep off none v s else writeNow ep a none v s)
  else if !epActive ep s || foreignReg ep.link a s then s
  else if writeLo a then
    if lockedReg ep.link a s then s else modEndpoint ep (fun e => { e with pendingLo := Tab.put a v e.pendingLo }) s
  else if writeHi a then
    if lockedReg ep.link a s then s
    else
      commitWrite ep off (Tab.find (a - 4) (endpoint ep s).pendingLo) v
        (modEndpoint ep (fun e => { e with pendingLo := Tab.erase (a - 4) e.pendingLo }) s)
  else commitWrite ep off none v s

/-! ### Reads -/

/-- A read through an endpoint (R11): _LO latches _HI, the first read of _HI after it returns the latch and releases it. -/
def hostRead (ep : Endpoint) (off : Offset) (s : State) : State :=
  let a := off.toNat
  if !inL0 ep s then s
  else if readLo a then
    emit (.readReply ep off (readWord ep a s))
      (modEndpoint ep (fun e => { e with latchHi := Tab.put (a + 4) (readWord ep (a + 4) s) e.latchHi }) s)
  else match readHi a, Tab.find a (endpoint ep s).latchHi with
    | true, some w =>
      emit (.readReply ep off w) (modEndpoint ep (fun e => { e with latchHi := Tab.erase a e.latchHi }) s)
    | _, _ => emit (.readReply ep off (readWord ep a s)) s

/-- A read of a wrong width or alignment returns 0xFFFF_FFFF, a write of one is discarded (R9). -/
def misaligned (ep : Endpoint) (isWrite : Bool) (off : Offset) (s : State) : State :=
  if isWrite || !inL0 ep s then s else emit (.readReply ep off 0xFFFFFFFF) s

/-- An aligned access to the maker range: read 0, write discarded (R707), and recorded as an attempt (R727). -/
def makerRange (ep : Endpoint) (isWrite : Bool) (low : Half) (s : State) : State :=
  let off : Offset := BitVec.ofNat 20 (0xF0000 + low.toNat)
  if !inL0 ep s then s
  else if low.toNat % 4 ≠ 0 then misaligned ep isWrite off s
  else
    let s1 := makerAttempt (Link.num ep.link) low.toNat s
    if !isWrite then emit (.readReply ep off 0) s1 else if ep.link == .h2 then deniedWrite off.toNat s1 else s1

/-- Any write or read by a host, the maker range included; steps of train time that are due come before a write of LDG_CFG (R694). -/
def hostAccess (ep : Endpoint) (isWrite : Bool) (off : Offset) (v : Word) (s : State) : State :=
  if 0xF0000 ≤ off.toNat then makerRange ep isWrite (BitVec.ofNat 16 off.toNat) s
  else if off.toNat % 4 ≠ 0 then misaligned ep isWrite off s
  else if isWrite then hostWrite ep off v (if off.toNat = 0x22000 && inL0 ep s then timeSetStep s else s)
  else hostRead ep off s

/-- SYS_LOCATE clears when 60 s have passed since the last write of 1 (R65). -/
def locateEnd (s : State) : State := if due s.sys.locateUntil s then { s with sys.locateUntil := none } else s

/-! ### The commands -/

/-- WRITE_LO (R10). -/
def execWriteLo (ep : Endpoint) (off : Offset) (v : Word) (s : State) : Out := .next (hostAccess ep true off v s)
/-- WRITE_HI (R10). -/
def execWriteHi (ep : Endpoint) (off : Offset) (v : Word) (s : State) : Out := .next (hostAccess ep true off v s)
/-- READ_LO (R11). -/
def execReadLo (ep : Endpoint) (off : Offset) (s : State) : Out := .next (hostAccess ep false off 0 s)
/-- READ_HI (R11). -/
def execReadHi (ep : Endpoint) (off : Offset) (s : State) : Out := .next (hostAccess ep false off 0 s)
/-- MISALIGNED_ACCESS (R9); an aligned access of 32 bits is none. -/
def execMisalignedAccess (ep : Endpoint) (isWrite : Bool) (off : Offset) (width : Nat) (s : State) : Out :=
  if width = 4 && off.toNat % 4 = 0 then .next s else .next (misaligned ep isWrite off s)
/-- REGISTER_WRITE (R14). -/
def execRegisterWrite (ep : Endpoint) (off : Offset) (v : Word) (s : State) : Out := .next (hostAccess ep true off v s)
/-- MAKER_RANGE_ACCESS (R727). -/
def execMakerRangeAccess (ep : Endpoint) (isWrite : Bool) (low : Half) (s : State) : Out := .next (makerRange ep isWrite low s)
/-- LOCATE_WRITE (R65). -/
def execLocateWrite (ep : Endpoint) (v : Word) (s : State) : Out := .next (hostAccess ep true 0x30 v s)
/-- LOCATE_EXPIRY (R65). -/
def execLocateExpiry (s : State) : Out := .next (locateEnd s)
/-- CQ_ENABLE (R417): HIF_CQn_CTRL written. -/
def execCqEnable (ep : Endpoint) (cq_ : CqNo) (v : Word) (s : State) : Out :=
  .next (hostAccess ep true (BitVec.ofNat 20 (0x1108 + 16 * cq_.val)) v s)
/-- MGMT_ENABLE (R422): HIF_CFG written. -/
def execMgmtEnable (ep : Endpoint) (v : Word) (s : State) : Out := .next (hostAccess ep true 0x1004 v s)
/-- ARB_SETTINGS_WRITE (R439). -/
def execArbSettingsWrite (ep : Endpoint) (isClass : Bool) (v : Word) (s : State) : Out :=
  .next (hostAccess ep true (if isClass then 0x3004 else 0x3000) v s)
/-- LDG_CFG_WRITE (R693). -/
def execLdgCfgWrite (ep : Endpoint) (v : Word) (s : State) : Out := .next (hostAccess ep true 0x22000 v s)

end Sys2Proof.Machine
end

