-- ==== Sys2Proof/Machine/Links.lean ====
section
/-! DEFINITION. The PCIe links of the endpoints (R385, R386, R388, R540, R731): configuration space, L1, L2 and L0, link resets and
what they do to a link's rings, queues and set-up. -/
namespace Sys2Proof.Machine

/-! ### Frames that lose their descriptor -/

/-- Every reference to a Send descriptor that the node holds, changed. -/
def mapRefs (f : Option TxRef → Option TxRef) (s : State) : State :=
  let o := fun (x : OutFrame) => { x with origin := f x.origin }
  let rx := fun (i : RxItemDue) => { i with localTx := f i.localTx }
  let ctxf := fun (x : Ctx) => { x with rxWait := x.rxWait.map rx }
  let can := fun (c : CanChan) => { c with bufs := c.bufs.map fun b => b.map fun t => { t with origin := f t.origin } }
  let s1 : State := { s with
    lp := s.lp.map fun p =>
      { p with queues := p.queues.map fun q => q.map o, part := p.part.map fun x => (o x.1, x.2),
               sending := p.sending.map fun x => { x with frame := o x.frame } },
    bbn.uq := s.bbn.uq.map fun x => (x.1, o x.2), rlv.heldFrames := s.rlv.heldFrames.map o }
  let s2 : State := { s1 with
    plc := s1.plc.map fun c =>
      { c with dataQ := c.dataQ.map fun x => { x with origin := f x.origin },
               partSent := c.partSent.map fun x => { x with origin := f x.origin },
               urgents := c.urgents.map fun u => { u with origin := f u.origin },
               blocks := c.blocks.map fun b => { b with done := b.done.filterMap fun r => f (some r) } },
    vx.can0 := can s1.vx.can0, vx.can1 := can s1.vx.can1 }
  { s2 with
    hif.h1 := { s2.hif.h1 with ctx0 := ctxf s2.hif.h1.ctx0 }, hif.h2 := { s2.hif.h2 with ctx0 := ctxf s2.hif.h2.ctx0 },
    hif.ctxs := s2.hif.ctxs.map fun x => (x.1, ctxf x.2),
    hif.cqs := s2.hif.cqs.map fun q => { q with pend := q.pend.map fun p => { p with localTx := f p.localTx } } }

/-- The descriptors of a link's rings are forgotten by the frames fetched from them: they leave without a completion (R386). -/
def forgetLink (l : Link) (s : State) : State :=
  mapRefs (fun o => match o with | some r => if r.link == l then none else some r | none => none) s

/-! ### Link reset -/

/-- A context as a link reset leaves it: set-up at reset, rings STOPPED; the counters run on. -/
def ctxAfterReset (x : Ctx) : Ctx :=
  { Ctx.reset with cntRxNobuf := x.cntRxNobuf + BitVec.ofNat 32 x.rxWait.length, cntTx := x.cntTx, cntRx := x.cntRx }

/-- Frames that waited for a link's Receive rings are dropped (R406); a local sender's descriptor is decided. -/
def dropWaits (l : Link) (s : State) : State :=
  let locals := (liveCqps s).flatMap fun c =>
    if ownsCqp l c s then (ctx l c s).rxWait.filterMap (·.localTx) else []
  let queued := (s.hif.cqs.toList.flatMap fun q => if q.link == l then q.pend.filterMap (·.localTx) else [])
  (locals ++ queued).foldl (fun t r => completeTx r stOk id t) s

/-- The set-up of a link returns to reset: HIF registers, completion queues (LINK stays H1's assignment), contexts (R386). -/
def resetSetup (l : Link) (s : State) : State :=
  let s1 := modLink l (fun h =>
    { h with mgmtEn := false, db := 0, shadow := 0, ctx0 := ctxAfterReset h.ctx0, reqs := [], scanNoted := false }) s
  { s1 with
    hif.cqs := s1.hif.cqs.map fun q => if q.link == l then { CqState.reset with link := l } else q,
    hif.ctxs := s1.hif.ctxs.map fun x => (x.1, if ownsCqp l x.1 s then ctxAfterReset x.2 else x.2) }

/-- Cause of a link reset as event 0x8030 counts it, in the order of R386 (log entry 27). -/
def resetCode (c : ResetCause) : Nat := match c with | .perst => 0 | .dlDown => 1 | .flr => 2 | .busMasterCleared => 3

/-- Cause as event 0xC024 counts it: 0 `config_discard`, 1 profile loaded, 2 link reset. -/
def discardSet (link : Link) (cause : Nat) (s : State) : State :=
  if s.red.cfgState == .staged then
    raise 0xC024 (d1 (Link.num link) ++ d1 cause) { s with red.cfgState := .empty, red.cfgItems := [], red.cfgNext := 0 }
  else s

/-- The host hold of a link ends (R583). -/
def endHold (l : Link) (s : State) : State :=
  let held := match l with | .h1 => s.slp.holdH1 | .h2 => s.slp.holdH2
  if held then refreshOut1 (raise 0xB020 (d1 (Link.num l) ++ d1 2)
    (match l with | .h1 => { s with slp.holdH1 := false } | .h2 => { s with slp.holdH2 := false })) else s

/-- An endpoint after a link reset: pending writes and latches are lost (R731); a reset of the function takes its configuration
space and MSI-X table with it. -/
def endpointReset (cause : ResetCause) (e : EndpointState) : EndpointState :=
  match cause with
  | .perst => { EndpointState.reset with wakeN := e.wakeN }
  | .dlDown => { EndpointState.reset with wakeN := e.wakeN }
  | .flr => { EndpointState.reset with power := e.power, gen := e.gen, width := e.width, wakeN := e.wakeN }
  | .busMasterCleared => { e with busMaster := false, pendingLo := [], latchHi := [] }

/-- A link reset (R386, R619, R583). On a standby endpoint only the endpoint itself is reset. -/
def linkReset (ep : Endpoint) (cause : ResetCause) (s : State) : State :=
  if (endpoint ep s).power == .down then s
  else
    let s1 := modEndpoint ep (endpointReset cause) s
    if !epActive ep s then s1
    else
      let l := ep.link
      let s2 := resetSetup l (forgetLink l (dropWaits l s1))
      let s3 := raise 0x8030 (d1 (Link.num l) ++ d1 (resetCode cause)) s2
      let s4 := if s3.red.cfgOwner == l then discardSet l 2 { s3 with red.cfgReq := none } else s3
      endHold l s4

/-! ### Power of a link -/

/-- The link trains to L0 while its clocks run: from the end of S2 to the end of F4 (Tables 13.5, 13.6). -/
def linksPowered (s : State) : Bool :=
  match s.cel.pstate with
  | .run => true
  | .rising => decide (3 ≤ s.cel.step)
  | .falling => decide (1 ≤ s.cel.step)
  | _ => false

/-- A link of a row with a host reaches L0 (R78, R540): WAKE# released, event 0x8031; from L1 or L2 it comes back without one. -/
def reachL0 (ep : Endpoint) (gen : Nat) (width : Nat) (s : State) : State :=
  let e := endpoint ep s
  if !linksPowered s || !prsnt ep.ct s || e.power == .l0 || gen = 0 || width = 0 then s
  else
    let s2 := releaseWakeAt ep (modEndpoint ep (fun x => { x with power := .l0, gen := gen, width := width }) s)
    if !epActive ep s then s2
    else
      if e.power == .down then
        raise 0x8031 (d1 (Link.num ep.link) ++ d1 gen ++ d1 width) (modLink ep.link (fun h => { h with scanNoted := false }) s2)
      else s2

/-- A write to the configuration space of an endpoint, which is answered with Retry Status until S3 has ended (R385, R388, R397, R542): Bus Master Enable cleared is a link reset (R386). -/
def configWrite (ep : Endpoint) (w : CfgWrite) (s : State) : State :=
  let e := endpoint ep s
  if !(e.power == .l0 || e.power == .l1) || !configServed s then s
  else
    let s1 := modEndpoint ep (fun x =>
      { x with aspmL1 := w.aspmL1, d3hot := w.d3hot, atomicOp := w.atomicOpRequester, memSpace := w.memorySpace,
               busMaster := w.busMaster, maxPayload := min 256 w.maxPayload, maxRead := w.maxReadRequest,
               power := if w.d3hot || w.aspmL1 then .l1 else .l0 }) s
    if e.busMaster && !w.busMaster then linkReset ep .busMasterCleared s1 else s1

/-- PME_Turn_Off: the endpoint enters L2 (R385). -/
def turnOff (ep : Endpoint) (s : State) : State :=
  let e := endpoint ep s
  if !(e.power == .l0 || e.power == .l1) then s
  else emit (.linkL2 ep) (modEndpoint ep (fun x => { x with power := .l2 }) s)

/-! ### The commands -/

/-- LINK_RESET (R386). -/
def execLinkReset (ep : Endpoint) (cause : ResetCause) (s : State) : Out := .next (linkReset ep cause s)
/-- LINK_L0_REACHED (R540); HOST_PRSNT# of the row is low (`prsnt`) or not at that moment. -/
def execLinkL0Reached (ep : Endpoint) (trained : LinkWidth) (prsnt : Bool) (s : State) : Out :=
  .next (reachL0 ep trained.gen.val trained.width.val (setPrsnt ep.ct prsnt s))
/-- CONFIG_SPACE_WRITE (R385). -/
def execConfigSpaceWrite (ep : Endpoint) (w : CfgWrite) (s : State) : Out := .next (configWrite ep w s)
/-- PME_TURN_OFF (R385). -/
def execPmeTurnOff (ep : Endpoint) (s : State) : Out := .next (turnOff ep s)

end Sys2Proof.Machine
end

