-- ==== Sys2Proof/Machine/Identity.lean ====
section
/-! DEFINITION. The identity store and the firmware flash (R646 to R663): regions and their authority, erase and program, the vertex
key, the swap history, the profile a power-up selects. -/
namespace Sys2Proof.Machine

/-! ### Regions (Table 17.6) -/

/-- A region of the identity store. -/
inductive Region | factory | key | vehicle | calibration | reserved | profile (p : Nat) | history | maker
  deriving DecidableEq, Repr

/-- The region of an address. -/
def regionOf (a : Nat) : Region :=
  if a < 0x1000 then .factory
  else if a < 0x2000 then .key
  else if a < 0x3000 then .vehicle
  else if a < 0x5000 then .calibration
  else if a < 0x100000 then .reserved
  else if a < 0x500000 then .profile ((a - 0x100000) / 0x100000)
  else if a < 0xF00000 then .history
  else .maker

/-- The regions that `n` bytes from `a` touch, sector by sector. -/
def touched (a n : Nat) : List Region := (List.range ((a + n - 1) / 4096 - a / 4096 + 1)).map fun i => regionOf ((a / 4096 + i) * 4096)

/-- A region may be read; 0x1000 and above hold the key. -/
def mayRead (r : Region) : Bool := r != .maker

/-- The key record is valid (R653). -/
def keyValid (b : List Byte) : Bool :=
  let k := beAt b 0 6
  leAt b 8 4 == (crc32c (b.take 8)).toNat && k ≠ 0 && k ≠ 0xFFFFFFFFFFFE && k ≠ 0xFFFFFFFFFFFF
/-- The key record of the store. -/
def keyRecord (s : State) : List Byte := idsLoad 0x1000 12 s

/-- A region may be erased or programmed at an authority (Table 17.6, R654). -/
def mayChange (erase : Bool) (au : Authority) (r : Region) (s : State) : Bool :=
  match r with
  | .key => au == .maintainer && !(erase && keyValid (keyRecord s))
  | .vehicle => true
  | .profile _ => true
  | _ => false

/-- Cells of a flash without those of a range: what an erase leaves. -/
def eraseCells (a n : Nat) (l : List Host.Cell) : List Host.Cell := l.filter fun c => !(decide (a ≤ c.1) && decide (c.1 < a + n))

/-- A listed cell of a range: a byte that is not 0xFF. -/
def firstUsed (a n : Nat) (l : List Host.Cell) : Option Nat := (l.find? fun c => decide (a ≤ c.1) && decide (c.1 < a + n)).map (·.1)

/-- Bytes of a range left in any state: each is a free value (R651, R652). -/
def scramble_ : Nat → Nat → Nat → List Host.Cell → List Host.Cell
  | 0, _, _, l => l
  | n + 1, a, k, l => scramble_ n (a + 1) (k + 1) (memPut flashFill l a (BitVec.ofNat 8 (Config.freeValue k)))

/-! ### Flash operations (R648 to R652, R660) -/

/-- Number of bytes an operation changes. -/
def opSpan (o : FlashOp) : Nat := if o.data.isEmpty then o.eraseLen else o.data.length

/-- What a finished operation does to a flash's cells. -/
def opCells (o : FlashOp) (l : List Host.Cell) : List Host.Cell :=
  if o.data.isEmpty then eraseCells o.addr o.eraseLen l else memStore flashFill l o.addr o.data

/-- `ids_read`. -/
def idsRead (r : Req) (s : State) : State :=
  authorised 0x0D10 r (fun t =>
    let a := leAt r.body 0 4
    let n := leAt r.body 4 2
    if r.body.length ≠ 8 || !inRange 1 4080 n || !zeros r.body 6 8 || 0x1000000 < a + n then malformed r 0x0D10 t
    else if !(touched a n).all mayRead then answer r 0x0D10 stAuthority (d1 3) t
    else answer r 0x0D10 stOk (idsLoad a n t) t) s

/-- An operation on the identity store that has passed its body checks. -/
def idsChange (r : Req) (op : Half) (erase : Bool) (a n : Nat) (data : List Byte) (s : State) : State :=
  let au := authorityOf r.port s
  if !(touched a n).all (fun x => mayChange erase au x s) then answer r op stAuthority (d1 3) s
  else if (touched a n).contains (.profile s.ids.activeProf.toNat) then busy r op 0x22 s
  else if s.ids.op.isSome then busy r op 0x23 s
  else
    let used := if erase then none
      else match firstUsed a n s.ids.flash with
        | some x => some x
        | none => if regionOf a == .key then firstUsed 0x1000 0x1000 s.ids.flash else none
    match used with
    | some x => answer r op stNotErased (d4 x) (raise 0xD022 (d4 x) s)
    | none => { s with ids.op := some ⟨r.port, r.tag, op, a, data, if erase then n else 0, 0⟩ }

/-- `ids_erase`. -/
def idsErase (r : Req) (s : State) : State :=
  authorised 0x0D11 r (fun t =>
    let a := leAt r.body 0 4
    let n := leAt r.body 4 2
    if r.body.length ≠ 8 || a % 4096 ≠ 0 || !inRange 1 256 n || !zeros r.body 6 8 || 0x1000000 < a + 4096 * n then
      malformed r 0x0D11 t
    else idsChange r 0x0D11 true a (4096 * n) [] t) s

/-- `ids_program`. -/
def idsProgram (r : Req) (s : State) : State :=
  authorised 0x0D12 r (fun t =>
    let a := leAt r.body 0 4
    let n := leAt r.body 4 2
    if r.body.length ≠ 8 + n || !inRange 1 256 n || !zeros r.body 6 8 || 0x1000000 < a + n || (a % 256) + n > 256 then
      malformed r 0x0D12 t
    else idsChange r 0x0D12 false a n (r.body.drop 8) t) s

/-- The CT-8 a SLOT number names: 2 CT-A, 3 CT-B. -/
def ctOfSlot (n : Nat) : Option Ct := if n = 2 then some .a else if n = 3 then some .b else none
/-- The slot of a CT-8. -/
def ctSlot (c : Ct) : Slot := match c with | .a => 2 | .b => 3
/-- A CT-8's firmware, changed. -/
def modFw (c : Ct) (f : FwState → FwState) (s : State) : State :=
  match c with
  | .a => { s with ids.fwA := f s.ids.fwA }
  | .b => { s with ids.fwB := f s.ids.fwB }
/-- The cells of a firmware bank. -/
def bankCells (f : FwState) (bank : Nat) : List Host.Cell := if bank = 1 then f.bank1 else f.bank0

/-- The bank runs, or is the rollback bank of a trial that runs (R660). -/
def bankInUse (f : FwState) (bank : Nat) : Bool := (bank == 1) == f.running || f.trial == some f.running

/-- An operation on a firmware bank that has passed its body checks. -/
def fwChange (r : Req) (op : Half) (c : Ct) (bank a : Nat) (data : List Byte) (eraseLen : Nat) (s : State) : State :=
  let f := fwOf c s
  if (slot (ctSlot c) s).st == 0 then answer r op stBusy [] s
  else if bankInUse f bank then busy r op 0x25 s
  else if f.op.isSome then busy r op 0x23 s
  else
    match (if data.isEmpty then none else firstUsed a data.length (bankCells f bank)) with
    | some x => answer r op stNotErased (d4 x) (raise 0xD022 (d4 x) s)
    | none => modFw c (fun x => { x with op := some ⟨r.port, r.tag, op, a, data, eraseLen, bank⟩ }) s

/-- The bank the boot record starts: the trial bank, else the committed one (R661, R663). -/
def bootBank (f : FwState) : Bool := f.trial.getD f.committed

/-- Bytes in a firmware bank. -/
def bankSize : Nat := 0xC00000

/-- `fw_erase`. -/
def fwErase (r : Req) (s : State) : State :=
  authorised 0x0D21 r (fun t =>
    match ctOfSlot (byteAt r.body 0) with
    | some c =>
      if r.body.length ≠ 4 || 1 < byteAt r.body 1 || !zeros r.body 2 4 then malformed r 0x0D21 t
      else fwChange r 0x0D21 c (byteAt r.body 1) 0 [] bankSize t
    | none => malformed r 0x0D21 t) s

/-- `fw_program`. -/
def fwProgram (r : Req) (s : State) : State :=
  authorised 0x0D22 r (fun t =>
    let a := leAt r.body 4 4
    let n := leAt r.body 8 2
    match ctOfSlot (byteAt r.body 0) with
    | some c =>
      if r.body.length ≠ 12 + n || 1 < byteAt r.body 1 || !zeros r.body 2 4 || !zeros r.body 10 12 || !inRange 1 256 n
          || bankSize < a + n || (a % 256) + n > 256 then malformed r 0x0D22 t
      else fwChange r 0x0D22 c (byteAt r.body 1) a (r.body.drop 12) 0 t
    | none => malformed r 0x0D22 t) s

/-- A bank as its contents stand: valid, with the release its image names. -/
def rateBank (bank : Nat) (f : FwState) : FwState :=
  let l := bankCells f bank
  let ok := Config.fwImageValid l
  if bank = 1 then { f with valid1 := ok, major1 := Config.fwImageMajor l, minor1 := Config.fwImageMinor l }
  else { f with valid0 := ok, major0 := Config.fwImageMajor l, minor0 := Config.fwImageMinor l }

/-- A bank's cells replaced. -/
def putBank (bank : Nat) (l : List Host.Cell) (f : FwState) : FwState :=
  rateBank bank (if bank = 1 then { f with bank1 := l } else { f with bank0 := l })

/-- The identity-store operation in progress ends without its read-back (R651, R652): its bytes may hold anything. -/
def breakIds (s : State) : State :=
  match s.ids.op with
  | some o =>
    { s with ids.op := none, ids.flash := scramble_ (opSpan o) o.addr s.freeCtr s.ids.flash, freeCtr := s.freeCtr + opSpan o }
  | none => s

/-- The same for a firmware bank. -/
def breakFw (c : Ct) (s : State) : State :=
  match (fwOf c s).op with
  | some o =>
    let s1 := modFw c (fun f =>
      { putBank o.bank (scramble_ (opSpan o) o.addr s.freeCtr (bankCells f o.bank)) f with op := none }) s
    { s1 with freeCtr := s1.freeCtr + opSpan o }
  | none => s

/-- A swap-history record written. -/
def writeSwap (a : Nat) (eraseFirst : Bool) (b : List Byte) (s : State) : State :=
  { s with ids.flash := memStore flashFill (if eraseFirst then eraseCells a 4096 s.ids.flash else s.ids.flash) a b }

/-- The writes held during a host operation, once it has ended (R650). -/
def writeHeld (s : State) : State :=
  s.ids.held.foldl (fun t w => match w with
    | .swap a first b => writeSwap a first b t
    | .calibration => writeCal t) { s with ids.held := [] }

/-- A new key record waits for the next passage from OFF (R655). -/
def noteKey (o : FlashOp) (s : State) : State :=
  if !o.data.isEmpty && regionOf o.addr == .key && keyValid (keyRecord s) then
    raise 0xD023 (d6 (mkKey (beAt (keyRecord s) 0 6))) { s with ids.keyPending := true }
  else s

/-- FLASH_OP_DONE: the operation's bytes read back, or do not (R651). -/
def flashDone (dev : FlashDev) (ok : Bool) (s : State) : State :=
  match dev with
  | .ids =>
    match s.ids.op with
    | none => s
    | some o =>
      if ok then
        let s1 := writeHeld { s with ids.op := none, ids.flash := opCells o s.ids.flash }
        let s2 := if o.data.isEmpty then raise 0xD020 (d4 o.addr ++ d4 (o.eraseLen / 4096)) s1
          else raise 0xD021 (d4 o.addr ++ d2 o.data.length) s1
        respond o.port o.tag o.opcode stOk [] (noteKey o s2)
      else respond o.port o.tag o.opcode stRemoteError (d1 0x24) (raise 0xD025 (d4 o.addr) (writeHeld (breakIds s)))
  | .fw c =>
    match (fwOf c s).op with
    | none => s
    | some o =>
      if ok then
        let s1 := modFw c (fun f => { putBank o.bank (opCells o (bankCells f o.bank)) f with op := none }) s
        respond o.port o.tag o.opcode stOk [] (raise 0xD030 (d1 (ctSlot c).val ++ d1 o.bank) s1)
      else respond o.port o.tag o.opcode stRemoteError (d1 0x24) (raise 0xD025 (d4 o.addr) (breakFw c s))

/-! ### The vertex key (R655, R656) -/

/-- The key is read: the one in use from now on, or 0 where the record is not valid. -/
def readKey (s : State) : State :=
  let b := keyRecord s
  let s1 := { s with ids.keyPending := false }
  if keyValid b then { s1 with sys.vkey := mkKey (beAt b 0 6), ids.keyInvalid := false }
  else raise 0xD024 [] { s1 with sys.vkey := 0, ids.keyInvalid := true }

/-! ### Swap history (R657, R658) -/

/-- TYPE of the cartridge of a slot. -/
def cartType (n : Slot) (lp2f : Bool) : Nat :=
  if n.val < 2 then 1 else if n.val < 4 then 2 else if n.val < 8 then (if lp2f then 4 else 3) else if n.val = 8 then 5
  else if n.val = 9 then 6 else 7

/-- Records the history holds. -/
def histSlots : Nat := 327680
/-- Address of a record's place. -/
def histAddr (i : Nat) : Nat := 0x500000 + 32 * i

/-- A record appended (R657); a sector that is not erased is erased before its first one (R658). -/
def appendSwap (n : Slot) (action type : Nat) (build : Byte) (serial : Key) (s : State) : State :=
  let seq := s.ids.histSeq + 1
  let body := toLE 4 seq.toNat ++ d1 n.val ++ d1 action ++ d1 type ++ [build] ++ d6 serial ++ [0xFF, 0xFF]
    ++ toLE 8 (if s.bbn.timeValid then ttime s else 0) ++ toLE 4 (mono s)
  let b := body ++ toLE 4 (crc32c body).toNat
  let a := histAddr s.ids.histPos
  let first := s.ids.histPos % 128 == 0
  ownWrite (.swap a first b) (writeSwap a first b)
    { s with ids.histSeq := seq, ids.histPos := (s.ids.histPos + 1) % histSlots }

/-- A record with its CRC. -/
def swapOk (b : List Byte) : Bool := leAt b 28 4 == (crc32c (b.take 28)).toNat

/-- The last record of a slot among the newest `fuel`, searched backwards from a place. -/
def lastSwap (n : Slot) (s : State) : Nat → Nat → Option (List Byte)
  | 0, _ => none
  | fuel + 1, i =>
    let k := if i = 0 then histSlots - 1 else i - 1
    let b := idsLoad (histAddr k) 32 s
    if swapOk b && byteAt b 4 = n.val then some b else lastSwap n s fuel k

/-- The cartridge the history last saw in a slot: type, build, serial; none where it was left empty. -/
def seenIn (n : Slot) (s : State) : Option (Nat × Byte × Key) :=
  match lastSwap n s (min s.ids.histSeq.toNat histSlots) s.ids.histPos with
  | some b => if byteAt b 5 = 1 || byteAt b 5 = 4 then some (byteAt b 6, BitVec.ofNat 8 (byteAt b 7), mkKey (leAt b 8 6)) else none
  | none => none

/-- One slot compared with its last record: what is missing, then what is found (R657). -/
def compareSlot (s : State) (n : Slot) : State :=
  let x := slot n s
  let here := if x.st == 0 then none else some (cartType n x.lp2f, x.build, x.serial)
  let was := seenIn n s
  if here == was then s
  else
    let s1 := match was with | some (t, b, k) => appendSwap n 5 t b k s | none => s
    match here with | some (t, b, k) => appendSwap n 4 t b k s1 | none => s1

/-- Every slot compared at a passage from OFF to CELLAR. -/
def compareSlots (s : State) : State := (List.finRange 11).foldl compareSlot s

/-! ### The profile a power-up selects (R641) -/

/-- The straps select a profile; it is loaded in S4. -/
def selectByStraps (s : State) : State :=
  { s with ids.activeProf := s.sys.psel, ids.selCmd := false, ids.partialSel := false, ids.profFault := false }

/-- The selected profile is checked and loaded, or the built-in configuration in its place. -/
def loadSelected (s : State) : State :=
  match readProfile s.ids.activeProf.toNat s with
  | .inl p => raise 0xD010 (d1 s.ids.activeProf.toNat ++ d4 p.serial.toNat) (loadProfile p { s with ids.profFault := false })
  | .inr f =>
    raise 0xD011 (d1 f.1 ++ d1 f.2.1 ++ d1 f.2.2) (loadProfile builtIn { s with ids.profFault := true })

/-! ### The commands -/

/-- IDS_READ (R648). -/
def execIdsRead (req : Req) (s : State) : Out := .next (idsRead req s)
/-- IDS_ERASE (R648). -/
def execIdsErase (req : Req) (s : State) : Out := .next (idsErase req s)
/-- IDS_PROGRAM (R649). -/
def execIdsProgram (req : Req) (s : State) : Out := .next (idsProgram req s)
/-- FW_ERASE (R660). -/
def execFwErase (req : Req) (s : State) : Out := .next (fwErase req s)
/-- FW_PROGRAM (R660). -/
def execFwProgram (req : Req) (s : State) : Out := .next (fwProgram req s)
/-- FLASH_OP_DONE (R651). -/
def execFlashOpDone (dev : FlashDev) (readBackOk : Bool) (s : State) : Out := .next (flashDone dev readBackOk s)

end Sys2Proof.Machine
end

