-- ==== Sys2Proof/Machine/Power.lean ====
section
/-! DEFINITION. Power states (R503, R519 to R542, R736): OFF to CELLAR, the steps of RISING, FALLING and LAST_GASP, turns, failed steps,
`power_request`. -/
namespace Sys2Proof.Machine

/-! ### What OFF keeps -/

/-- A host link as OFF leaves it: the host's own memory. -/
def offLink (h : HifLink) : HifLink := { HifLink.reset with hmem := h.hmem }
/-- A power-line channel as OFF leaves it: the calibration that the identity store holds. -/
def offPlc (p : PlcChan) : PlcChan := { PlcChan.reset with zcStored := p.zcStored, calSerial := p.calSerial }
/-- A CT-8 without power is not ready. -/
def offCt (x : SlotState) : SlotState := if x.st == 0 then x else { x with st := 1 }
/-- A relay set as the loss of its pulses leaves it: its hold runs on (R52). -/
def offByp (b : BypassState) : BypassState := { b with fault := false }

/-- OFF: the identity store, the firmware flashes, the SR-1, the PW-2, the host's memories and what is seated stay, all else is at
reset. `alone`: the rail stays up with no controller (R609), so that the count restarts alone (R520). -/
def offState (alone : Bool) (s : State) : State :=
  let s0 := releaseWake .h2 (releaseWake .h1 (breakFw .b (breakFw .a (breakIds s))))
  let z := State.reset
  let boot := fun (f : FwState) => { f with running := bootBank f }
  let pwKeep := fun (p : PwUnit) => { p with test := none }
  let z1 : State := { z with
    pending := s0.pending, now := s0.now, quantum := s0.quantum, freeCtr := s0.freeCtr, out := s0.out,
    sys.slots := s0.sys.slots, sys.hostPrsntA := s0.sys.hostPrsntA, sys.hostPrsntB := s0.sys.hostPrsntB,
    sys.bypA := offByp s0.sys.bypA, sys.bypB := offByp s0.sys.bypB,
    hif.h1 := offLink s0.hif.h1, hif.h2 := offLink s0.hif.h2,
    ids.flash := s0.ids.flash, ids.histSeq := s0.ids.histSeq, ids.histPos := s0.ids.histPos, ids.fwA := boot s0.ids.fwA,
    ids.fwB := boot s0.ids.fwB, ids.selCmd := alone && s0.ids.selCmd,
    srm.sr1 := s0.srm.sr1, srm.permLow := s0.srm.permLow, srm.permFull := s0.srm.permFull, srm.seatDue := s0.srm.seatDue, ldg.clean := s0.ldg.clean,
    pwr.a := pwKeep s0.pwr.a, pwr.b := pwKeep s0.pwr.b, pwr.load := s0.pwr.load, pwr.rideS := s0.pwr.rideS,
    bgt.tChassis := s0.bgt.tChassis, bgt.tCx2 := s0.bgt.tCx2, cel.monoRestart := alone }
  let z2 : State := { z1 with plc := s0.plc.map offPlc,
                              vx.out0Closed := alone && s0.vx.out0Closed,
                              vx.out0HoldUntil := if alone then s0.vx.out0HoldUntil else none }
  modSlot 3 offCt (modSlot 2 offCt z2)

/-! ### From OFF to CELLAR (Table 13.4) -/

/-- A PW-2 has a qualified input (R525). -/
def railFed (s : State) : Bool :=
  ([0, 1] : List PwNo).any fun m => pwReady m s && ((pw m s).mainsQual || (pw m s).battQual)

/-- Some CT-8 is seated. -/
def ctSeated (s : State) : Bool := (slot 2 s).st != 0 || (slot 3 s).st != 0

/-- The rail comes up, 200 ms after a last gasp at the earliest (R525). -/
def railUp (s : State) : State :=
  if s.cel.pstate == .off && s.cel.step = 0 && railFed s && ctSeated s && spaced s.cel.offSince (ms 200) s then
    { s with cel.step := 1, cel.stepAt := s.now, cel.offSince := none }
  else s

/-- A strap: its bit, and whether it lay in the marginal band or did not settle (R58, R59). -/
def strapBit (r : Option Nat) : Bool × Bool :=
  match r with
  | none => (false, true)
  | some x => (decide (x ≤ 1000), decide (1000 < x) && decide (x < 10000))

/-- Both PSEL straps as a number. -/
def pselOf (s0 s1 : Bool) : BitVec 2 := BitVec.ofNat 2 (bit s0 + 2 * bit s1)

/-- PSEL and PLOCK as event data: bits 1:0 and bit 2. -/
def strapData (psel : BitVec 2) (plock : Bool) : List Byte := d1 (psel.toNat + 4 * bit plock)

/-- The straps are sampled (R58, R59). -/
def sampleStraps (m : CellarMeas) (s : State) : State :=
  let a := strapBit m.psel0
  let b := strapBit m.psel1
  let l := strapBit m.plock
  let marg := a.2 || b.2 || l.2
  let p := pselOf a.1 b.1
  let s1 := { s with sys.psel := p, sys.plock := l.1, sys.pselLive := p, sys.plockLive := l.1, sys.strapMarginal := marg,
                     sys.strapDue := some (s.now + ticksNs 1024) }
  if marg then raise 0x0024 (strapData p l.1 ++ strapData p l.1) s1 else s1

/-- The controller that takes the token at a rise: the one that held it when the node last left RUN, else CT-A, else CT-B (R594). -/
def assignToken (s : State) : State :=
  let b := if slotReady (ctSlot (activeCt s)) s then s.red.activeB else !slotReady 2 s && slotReady 3 s
  { s with red.activeB := b, red.token := slotReady 2 s || slotReady 3 s }

/-- After a passage from OFF, CT-A is preferred; the other CT-8 joins it (R594, R606). -/
def firstToken (s : State) : State :=
  let a := (slot 2 s).st != 0
  let s1 := modSlot (if a then 2 else 3) (fun x => { x with st := 2 }) { s with red.activeB := !a }
  { s1 with red.token := true, red.peerPresent := a && (slot 3 s).st != 0 }

/-- CEL_CFG as the selected profile has it: BOOT_HOLD decides before the profile is applied (Table 13.3, R641; DEDUCED, log entry 28). -/
def bootCfg (s : State) : State :=
  match readProfile s.ids.activeProf.toNat s with
  | .inl p => itemSet 0x1F 0xFF (profileData p 0x1F 0xFF) s
  | .inr _ => s

/-- A reversed battery is shown while the node is powered from another source: BATT_A_REV or BATT_B_REV and event 0x1010 (R76). -/
def showReversed (m : PwNo) (s : State) : State :=
  if s.cel.pstate == .off then s
  else raise 0x1010 (pwData m) (if m = 0 then { s with sys.battARev := true } else { s with sys.battBRev := true })

/-- One that was found in OFF. -/
def foundReversed (m : PwNo) (s : State) : State := if (pw m s).battRev then showReversed m s else s

/-- A selection lost with its controller (R642). -/
def selectionLost (s : State) : State := if s.ids.selCmd then raise 0xD013 [] s else s

/-- A vertex alone with its own key: its digest, its reference, its own time (R111, R198). -/
def startAlone (s : State) : State :=
  { s with rlv.digest := if vkey s = 0 then 0 else digestOf [vkey s], rlv.refKey := vkey s, bbn.syncOk := true }

/-- C3 ends: CELLAR is reached from OFF (Table 13.4, R519, R521, R641, R655, R657, R693, R701); train time starts at 0 (R190). -/
def arrive (m : CellarMeas) (s : State) : State :=
  let s1 := { s with cel.pstate := .cellar, cel.step := 0, cel.stepAt := s.now, cel.monoBase := 0, cel.monoAt := s.now,
                     cel.coldNext := true, bbn.timeOff := BitVec.ofInt 64 (-(s.now : Int)), bgt.levelSince := s.now, sys.hostPrsntA := m.prsntA, sys.hostPrsntB := m.prsntB,
                     sys.bpBuild := Config.bpBuild s.ids.flash }
  let s2 := foundReversed 1 (foundReversed 0 (if s1.cel.xtalFault then raise 0x2020 (d2 0) s1 else s1))
  let s3 := sampleStraps m (firstToken s2)
  let s4 := bootCfg (selectByStraps (selectionLost (startAlone (readKey s3))))
  let s5 := plcSeat 1 (plcSeat 0 (reloadLdgCfg (compareSlots s4)))
  let s6 := raise 0x2001 (d1 s5.sys.psel.toNat ++ d1 (bit s5.sys.plock)) s5
  let s7 := evaluate (if s6.ldg.clean then openInterval 0 s6 else s6)
  if s7.cel.bootHold then s7 else raiseCause 0 s7

/-- A step C1 to C3 ends: C2 without both crystals after 800 ms, C3 after 16 ticks at least (Table 13.4). -/
def cellarStep (m : CellarMeas) (s : State) : State :=
  if s.cel.pstate != .off then s
  else match s.cel.step with
    | 1 => { s with cel.step := 2, cel.stepAt := s.now }
    | 2 =>
      if m.crystals || decide (s.cel.stepAt + ms 800 ≤ s.now) then
        { s with cel.step := 3, cel.stepAt := s.now, cel.xtalFault := !m.crystals, cel.xtalOk := m.crystals }
      else s
    | 3 => if s.cel.stepAt + ticksNs 16 ≤ s.now then arrive m s else s
    | _ => s

/-- The rail falls: OFF with no further action (R512, R523). -/
def railFall (s : State) : State := if s.cel.pstate == .off && s.cel.step = 0 then s else offState false s

/-- Attic runs: its reference measures the crystal (R521). -/
def atticRuns (s : State) : Bool :=
  match s.cel.pstate with
  | .run => true
  | .rising => decide (3 ≤ s.cel.step)
  | .falling => decide (2 ≤ s.cel.step)
  | _ => false

/-- The crystal's deviation, or that it has stopped (R521). -/
def crystal (ppm : Half) (stopped : Bool) (s : State) : State :=
  if s.cel.pstate == .off then s
  else
    let measured := atticRuns s && !stopped
    let s1 := if measured then { s with cel.xtalPpm := ppm } else s
    let far := measured && decide (500 < ppm.toInt.natAbs)
    if !(stopped || far) || s1.cel.xtalFault then s1
    else raise 0x2020 (d2 s1.cel.xtalPpm.toNat) { s1 with cel.xtalFault := true, cel.xtalOk := !stopped }

/-! ### Wake causes (Table 13.8) -/

/-- The Cellar timer runs out (R533). -/
def timerOut (s : State) : State := if due s.cel.timerAt s then raiseCause 10 { s with cel.timerAt := none } else s

/-- A source raises its cause where it is enabled (R537). -/
def wakeBy (w : WakeSource) (s : State) : State :=
  match w with
  | .host ep => if prsnt ep.ct s then raiseCause (1 + Link.num ep.link) s else s
  | .sp c =>
    if (slot (ctSlot c) s).st == 0 then s else raiseCause 3 (modSp c (fun x => { x with linkUp := true }) s)
  | .eth n => if (port n s).watch && (port n s).role == 1 then raiseCause 4 s else s
  | .plc c => if wakeListen (plc c s) && relayClosed (plc c s) then raiseCause (5 + c.val) s else s
  | .can c =>
    if flagOf (can c s).cfg 8 && slotReady vxSlot s
        && (s.cel.pstate == .cellar || (s.cel.pstate == .falling && decide (s.cel.step ≤ 3))) then raiseCause (7 + c.val) s else s
  | .input p => if s.cel.inWake.getLsbD p.val && monitorsRun s then raiseCause 9 s else s
  | .timer => timerOut s
  | .train => if isNative s then raiseCause 11 s else s

/-- Energy suffices for a rise that was held (R531). -/
def energyOk (s : State) : State := retryHeld s

/-- 10 s after a failed rise (R532). -/
def retryRise (s : State) : State :=
  if s.cel.pstate == .cellar && due s.cel.retryAt s then tryRise { s with cel.retryAt := none } else s

/-- The only CT-8 is ready for removal: its sequence stands still (Table 16.6). -/
def heldForRemoval (s : State) : Bool := leverSafe (ctSlot (activeCt s)) s && s.red.pair != .duplex

/-! ### Rising (Table 13.5) -/

/-- Lane ports on a ready cartridge. -/
def lanePorts (s : State) : List PortNo :=
  (List.finRange 8).filter fun n => (portLane n s).isSome && slotReady (portSlot n) s

/-- A lane port of an end has link. -/
def endLinked (e : End) (s : State) : Bool :=
  (lanePorts s).any fun n => (port n s).link && (match portLane n s with | some (_, x) => x == e | none => false)

/-- S5: every lane port has link, or its link-up maximum has passed. -/
def portsUp (s : State) : Bool :=
  (lanePorts s).all fun n => (port n s).link || decide (s.cel.stepAt + linkUpMax (targetOf n s).1 (targetOf n s).2 ≤ s.now)

/-- S6: every end with a linked span has accepted its neighbour, or 60 ms have passed; without a lane port at once (R527). -/
def neighboursDone (s : State) : Bool :=
  let ends := [End.e1, End.e2].filter fun e => endLinked e s
  (lanePorts s).isEmpty || decide (s.cel.stepAt + ms 60 ≤ s.now)
  || (!ends.isEmpty && ends.all fun e => (endOf e s).accepted.isSome)

/-- S7: SETTLED or ALONE in an epoch that the accepted neighbours' sweeps confirm, the cycle phase following its source (R186, R736). -/
def confirmed (s : State) : Bool :=
  !isNative s
  || ((s.rlv.st == .settled || s.rlv.st == .alone)
      && ([End.e1, End.e2].all fun e => (endOf e s).accepted.isNone || (liveWatches e s).all fun w => w.epoch == s.rlv.epoch)
      && (s.bbn.gm || s.bbn.syncOk || (beaconSource s).isSome))

/-- The end condition of a rising step that the model sees. -/
def riseDone (k : Nat) (s : State) : Bool :=
  match k with
  | 5 => portsUp s
  | 6 => neighboursDone s
  | 7 => confirmed s
  | _ => true

/-- Span sweeps start on the lane ports that have link. -/
def startSweeps (s : State) : State :=
  (lanePorts s).foldl (fun t n =>
    if (port n t).link && (t.rlv.sweepDue[n]).isNone then { t with rlv.sweepDue := t.rlv.sweepDue.set n (some t.now) } else t) s

/-- Step Sk begins: the ports start with S5 at the level computed at the end of S4 (R213, R238, R555), sweeps run in S6. -/
def enterRise (k : Nat) (s : State) : State :=
  let s1 := { s with cel.step := k, cel.stepAt := s.now }
  match k with
  | 5 => retargetWatch { s1 with lp := s1.lp.map fun p => { p with restricted := false } }
  | 6 => startSweeps s1
  | _ => s1

/-- The CT-8 that does not hold the token. -/
def otherCt (s : State) : Ct := if s.red.activeB then .a else .b

/-- The other CT-8, seated and not paired, begins to join with the rise (R606, J1). -/
def startJoin (s : State) : State :=
  if (slot (ctSlot (otherCt s)) s).st != 0 && s.red.pair != .duplex && s.red.joinStep = 0 then
    endpointsStart (otherCt s) (modSlot (ctSlot (otherCt s)) (fun x => { x with st := 1 })
      { s with red.joinStep := 1, red.pair := .joining, red.peerPresent := true })
  else s

/-- A fixture was attached to the controller since its last factory release (R728). -/
def fixtureNote (c : Ct) (s : State) : State := if (fwOf c s).fixture then raise 0xF001 (d1 5 ++ d2 0) s else s

/-- A neighbour that the committed polyline places at an end and that has not come back counts as lost (R736). -/
def missedNeighbour (e : End) (s : State) : State :=
  match polyKeyAt e s with
  | some k =>
    if isNative s && (endOf e s).accepted.isNone && (endOf e s).lost.isNone && (endOf e s).hold.isNone then
      modEnd e (fun x => { x with lost := some (k, s.now + ms 100) }) s
    else s
  | none => s

/-- CAN channels that are enabled integrate. -/
def startCans (s : State) : State :=
  ([0, 1] : List Chan).foldl (fun t c => if canEn (can c t) && slotReady vxSlot t then canStart c t else t) s

/-- A CT-8 is active or standby: its count of failed starts clears (R663). -/
def startedWell (c : Ct) (s : State) : State := modFw c (fun f => { f with failedStarts := 0 }) s

/-- Step Sk ends (Table 13.5). -/
def endRise (k : Nat) (s : State) : State :=
  match k with
  | 1 => startJoin s
  | 2 => startWakeSends { s with cel.refOk := true, cel.coreLock := true, cel.serdesLock := true }
  | 3 => fixtureNote (activeCt s) <| startedWell (activeCt s) <| endpointsStart (activeCt s) <| (if s.cel.warm then writerStart s else restartCounters (writerStart s))
  | 4 =>
    let s1 := if s.cel.coldNext then loadSelected { s with cel.coldNext := false } else s
    firstLevel (plcStart 1 (plcStart 0 (startCans s1)))
  | 6 => missedNeighbour .e2 (missedNeighbour .e1 s)
  | _ => s

/-- A host is absent on a seated CT-8's row: event 0x0026 for each of its links, once per passage into RUN (R78; DESIGN CHOICE, log
entry 29). -/
def hostAbsent (c : Ct) (s : State) : State :=
  if (slot (ctSlot c) s).st != 0 && !prsnt c s then raise 0x0026 (d1 1) (raise 0x0026 (d1 0) s) else s

/-- RUN begins (R532, R586, R607). -/
def enterRun (s : State) : State :=
  let s1 := { s with
    cel.pstate := .run, cel.step := 0, cel.stepAt := s.now, cel.latch := .none, cel.fails := 0, cel.stepFail := false,
    slp.localWakeDue := if s.slp.localWake then some (s.now + sec s.slp.sleepDelay.toNat) else none,
    red.rejoinAt := s.red.rejoinAt.map fun _ => s.now + sec 10 }
  refreshOut1 (hostAbsent .b (hostAbsent .a (raise 0x2003 [] s1)))

/-- A rise turns after Sk, or after a failed Sk that Fk undoes: Fk begins (R528, R529, R532; DEDUCED, log entry 35). -/
def turnDown (k : Nat) (s : State) : State :=
  raise 0x2006 (d1 1 ++ d1 k) (fallEnds
    { s with cel.pstate := .falling, cel.step := k, cel.stepAt := s.now, cel.latch := .none, cel.fromRun := false,
             cel.turnCause := 0, cel.turnFirst := 0, cel.cntReverse := s.cel.cntReverse + 1 })

/-- A rising step ends: the next begins, RUN is reached, or the sequence turns (R526, R529, R530). -/
def riseStep (prsntA prsntB : Bool) (s : State) : State :=
  let k := s.cel.step
  if s.cel.pstate != .rising || !riseDone k s || heldForRemoval s then s
  else
    let s1 := endRise k { s with sys.hostPrsntA := prsntA, sys.hostPrsntB := prsntB }
    if s1.cel.latch == .offReq then turnDown k s1
    else if k = 7 then enterRun s1
    else enterRise (k + 1) { s1 with cel.latch := .none }

/-! ### Falling (Table 13.6) -/

/-- A passage through RISING that begins behind S5: no port is restricted any more (R213), a watch port that ASLEEP has limited
renegotiates (R238), a channel no longer held attaches (R295). -/
def passRising (asleep : Bool) (s : State) : State :=
  let free := { s with lp := s.lp.map fun p => { p with restricted := false } }
  plcStart 1 (plcStart 0 (if asleep then retargetWatch free else retargetAll free))

/-- A fall turns after Fk: Sk begins, judged by the causes of the fall (R529, R584); where S2 stands behind it, a WAKE that is due is
sent at once (R585). -/
def turnUp (k : Nat) (s : State) : State :=
  let s1 := { s with cel.pstate := .rising, cel.step := k, cel.latch := .none, cel.fromRun := false, cel.retryAt := none,
                     cel.cntReverse := s.cel.cntReverse + 1, slp.kaSince := s.now }
  let s2 := raise 0x2006 (d1 0 ++ d1 k) (plcHoldEnds s1)
  let s3 := judgeWake s.cel.turnCause s.cel.turnFirst (assertWake .h2 (assertWake .h1 s2))
  let s4 := if 3 ≤ k then startWakeSends s3 else s3
  enterRise k (if k ≤ 5 then s4 else passRising (s.slp.st == .asleep) s4)

/-- Every CQP of a link that it owns. -/
def linkCqps (l : Link) (s : State) : List Nat := (liveCqps s).filter fun c => ownsCqp l c s

/-- A step over every ring pair of both links. -/
def overRings (f : Link → Nat → State → State) (s : State) : State :=
  (linkCqps .h2 s).foldl (fun t c => f .h2 c t) ((linkCqps .h1 s).foldl (fun t c => f .h1 c t) s)

/-- Send descriptors of a ring that have no result complete TIMEOUT, and their frames are taken back. -/
def timeoutRing (l : Link) (c : Nat) (s : State) : State :=
  let gone := ((ctx l c s).txPend.filter fun t => t.result.isNone).map (·.idx)
  let s1 := modCtx l c (fun x => { x with txPend := x.txPend.map fun t =>
    if t.result.isNone then { t with result := some (BitVec.ofNat 8 stTimeout), time := trainTime s } else t }) (purge l c gone s)
  flushTx l c s1

/-- Completions of a queue are written while there is room. -/
def drainCq (s : State) (n : CqNo) : State :=
  (List.range (cq n s).pend.length).foldl (fun t _ => completionWrite n t) s

/-- F7: fetching stops, what was fetched has left or times out, everything is written, every ring is STOPPED. -/
def stopRings (s : State) : State :=
  let s1 := overRings (fun l c t => timeoutRing l c (beginStop l c 3 t)) (canDropAll 1 (canDropAll 0 s))
  let s2 := (List.finRange 16).foldl drainCq s1
  overRings (fun l c t => modCtx l c (fun x => { x with txState := .stopped, rxState := .stopped, rxFree := [] })
    (finishStops l c t)) s2

/-- Nothing fetched is undecided, or the 20 ms of F7 have passed. -/
def fetchedLeft (s : State) : Bool :=
  decide (s.cel.stepAt + ms 20 ≤ s.now)
  || ([Link.h1, .h2].all fun l => (linkCqps l s).all fun c => (ctx l c s).txPend.all fun t => t.result.isSome)

/-- F6: span sweeps stop, neighbours and holds are dropped without a message or an event (R736). -/
def dropNeighbours (s : State) : State :=
  let f := fun (x : EndState) =>
    { x with accepted := none, corr := false, corrDue := none, condSince := none, hold := none, lost := none, spanA := SpanState.reset,
             spanB := SpanState.reset, disagree := false, disagreeSince := none, barredHere := false, conflict := false, withheld := false,
             epochDiffs := 0 }
  modEnd .e2 f (modEnd .e1 f { s with rlv.sweepDue := Vector.replicate 8 none })

/-- Pending records go to the SR-1 while it can be written. -/
def flushRecords (s : State) : State := (List.range (s.srm.pend.length + 16)).foldl (fun t _ => recordCommit t) s

/-- Both relay sets closed. -/
def relaysClose (s : State) : State := closeSet .b (closeSet .a s)

/-- A channel without WAKE_LISTEN detaches with F4. -/
def plcSleep (c : Chan) (s : State) : State :=
  if wakeListen (plc c s) && relayClosed (plc c s) then s else modPlc c (fun p => { p with retryAt := none }) (plcDown c s)

/-- CAN channels in standby. -/
def stopCans (s : State) : State :=
  let f := fun (c : CanChan) => { c with st := .stopped, recovering := false }
  modCan 1 f (modCan 0 f (canDropAll 1 (canDropAll 0 s)))

/-- Every endpoint's link that is not down goes down with the rails (R386). -/
def linksFall (s : State) : State :=
  [(⟨.h1, .a⟩ : Endpoint), ⟨.h2, .a⟩, ⟨.h1, .b⟩, ⟨.h2, .b⟩].foldl (fun t ep => linkReset ep .dlDown t) s

/-- Step Fk ends (Table 13.6). -/
def endFall (k : Nat) (s : State) : State :=
  match k with
  | 7 => stopRings s
  | 6 => dropNeighbours s
  | 5 => retargetWatch s
  | 4 => relaysClose (plcSleep 1 (plcSleep 0 (stopCans s)))
  | 3 => writerStop (flushRecords s)
  | 2 => { s with cel.refOk := false, cel.coreLock := false, cel.serdesLock := false }
  | 1 => linksFall s
  | _ => s

/-- A join in progress ends with Attic; it starts again with the next rise. -/
def joinStops (s : State) : State :=
  if s.red.joinStep = 0 then s else { s with red.joinStep := 0, red.pair := .none }

/-- CELLAR is reached from FALLING: a failed rise is tried again in 10 s, three times in all (R532, R538, R540). -/
def enterCellar (s : State) : State :=
  let s1 := joinStops (releaseWake .h2 (releaseWake .h1 { s with cel.pstate := .cellar, cel.step := 0, cel.stepAt := s.now, cel.latch := .none }))
  let s2 := match s1.cel.cfgNext with | some w => setCelCfg w s1 | none => s1
  let s3 := if s2.cel.fromRun then { s2 with cel.wakeCause := 0, cel.wakeFirst := 0, cel.wakeTick := 0, cel.fromRun := false } else s2
  let s4 := assignToken (raise 0x2005 [] s3)
  if s4.cel.retryAt.isNone then s4
  else if s4.cel.fails < 3 then { s4 with cel.retryAt := some (s4.now + sec 10) }
  else { s4 with cel.retryAt := none, cel.stepFail := true }

/-- A falling step ends: the next begins, CELLAR is reached, or the sequence turns (R528 to R530). -/
def fallStep (s : State) : State :=
  let k := s.cel.step
  if s.cel.pstate != .falling || (k = 7 && !fetchedLeft s) || heldForRemoval s then s
  else
    let s1 := endFall k s
    if s1.cel.latch == .onReq then turnUp k s1
    else if k ≤ 1 then enterCellar s1
    else { s1 with cel.step := k - 1, cel.stepAt := s1.now, cel.latch := .none }

/-- Lasts of S1 to S4 (Table 13.5). -/
def riseLasts (k : Nat) (warm : Bool) : Ns :=
  match k with
  | 3 => if warm then ms 40 else ms 400
  | 4 => if warm then ms 40 else ms 150
  | _ => ms 5

/-- A step S1 to S4 has overrun twice its Lasts figure (R532). -/
def failStep (s : State) : State :=
  let k := s.cel.step
  if s.cel.pstate == .rising && decide (1 ≤ k) && decide (k ≤ 4) && decide (s.cel.stepAt + 2 * riseLasts k s.cel.warm ≤ s.now) then
    let s1 := raise 0x2011 (d1 k) { s with cel.cntStepFail := s.cel.cntStepFail + 1, cel.fails := s.cel.fails + 1 }
    turnDown k { s1 with cel.retryAt := some s1.now }
  else s

/-! ### `power_request` (R533): TARGET is the row's own -/

/-- What waits for a link's CQP 0 goes out as far as its rings allow, and its completions are written. -/
def flushMgmt (l : Link) (s : State) : State :=
  let s1 := (List.range (hlink l s).items.length).foldl (fun t _ => mgmtDeliver l t) s
  drainCq s1 (ctxCq .rx (ctx l 0 s1))

/-- An outcome byte. -/
def outcome (r : Req) (k : Nat) (s : State) : State := answer r 0x0101 stOk (d1 k) s

/-- TARGET RUN. -/
def requestRun (r : Req) (s : State) : State :=
  authorised 0x0101 r (fun t =>
    if r.body.length ≠ 7 || !zeros r.body 0 7 then malformed r 0x0101 t
    else match t.cel.pstate with
      | .run => outcome r 0 t
      | .rising => if t.cel.latch == .offReq then outcome r 1 (requestOn t) else outcome r 2 t
      | .falling => outcome r 1 (raiseCause 12 t)
      | .cellar => outcome r 2 (requestOn t)
      | _ => answer r 0x0101 stBusy [] t) s

/-- The Cellar timer is armed by a TIMER that is not 0. -/
def armTimer (n : Nat) (s : State) : State := if n = 0 then s else { s with cel.timerAt := some (s.now + ticksNs n) }

/-- TARGET CELLAR, which a Peer may not ask for (Table 17.2): the response goes out before F7 begins. -/
def requestCellar (r : Req) (s : State) : State :=
  authorised 0x0101 r (fun t =>
    if authorityOf r.port t == .peer then refuse r 0x0101 0x01 0xD001 t
    else if r.body.length ≠ 7 || !zeros r.body 0 3 then malformed r 0x0101 t
    else
      let t1 := armTimer (leAt r.body 3 4) t
      match t.cel.pstate with
      | .run => requestOff (flushMgmt (reqLink r.port) (outcome r 2 t1))
      | .rising => requestOff (outcome r 1 t1)
      | .falling => if t.cel.latch == .onReq then requestOff (outcome r 1 t1) else outcome r 2 t1
      | .cellar => outcome r 0 t1
      | _ => answer r 0x0101 stBusy [] t) s

/-! ### Last gasp (Table 13.7) -/

/-- LAST_GASP begins, from CELLAR with G0 (R534). -/
def enterGasp (s : State) : State :=
  let g0 := s.cel.pstate == .cellar
  noteLevel 5 <| lockLost <| capsuleStops { s with
    cel.gaspState := pstateCode s.cel.pstate, cel.gaspStep := s.cel.step, cel.gaspSource := sourceCode s, cel.pstate := .lastGasp,
    cel.step := if g0 then 0 else 1, cel.stepAt := s.now, cel.latch := .none, cel.retryAt := none, cel.energyHold := false, cel.heatHold := false,
    cel.cntLastgasp := s.cel.cntLastgasp + 1, bgt.holdUntil := none, red.toStep := 0, red.switchReq := none }

/-- No PW-2 carries load from an input. -/
def onBanks (s : State) : Bool :=
  (pwReady 0 s || pwReady 1 s)
  && ([0, 1] : List PwNo).all fun m => !pwReady m s || (pw m s).st == .down || (pw m s).st == .bank

/-- The usable energy of every carrying bank has reached 0 (R503): BANK_EMPTY, event 0x1022, LAST_GASP at once. -/
def bankEmpty (s : State) : State :=
  if s.cel.pstate == .off || s.cel.pstate == .lastGasp || !onBanks s then s
  else
    let down := fun (p : PwUnit) => if p.st == .bank then { p with st := .down, moving := none, energy := 0 } else p
    enterGasp (raise 0x1022 [] { s with pwr.a := down s.pwr.a, pwr.b := down s.pwr.b, pwr.bankEmpty := true })

/-- G1: relays closed, OUT0 open, PHYs down, PC-2 relays open, CAN in standby; rings stay as they are. -/
def gaspRelease (s : State) : State :=
  let still := fun (c : CanChan) => { c with st := .stopped, recovering := false }
  let s1 := modCan 1 still (modCan 0 still (relaysClose (out0Open s)))
  let open_ := fun (p : PlcChan) => { plcOff p with retryAt := none }
  retargetAll (modPlc 1 open_ (modPlc 0 open_ s1))

/-- G2: the interval closes with LAST_GASP, everything pending is written, event 0x2007 last (R534, R701). -/
def gaspRecord (s : State) : State :=
  let s1 := flushRecords (closeNow 0x0040 s)
  flushRecords (raise 0x2007 (d1 s1.cel.gaspState ++ d1 s1.cel.gaspStep ++ d1 s1.cel.gaspSource) { s1 with ldg.clean := true })

/-- A step G0 to G3 ends. -/
def gaspStep (s : State) : State :=
  if s.cel.pstate != .lastGasp then s
  else
    let next := fun (k : Nat) (t : State) => { t with cel.step := k, cel.stepAt := t.now }
    match s.cel.step with
    | 0 => next 1 (writerStart { s with cel.refOk := true, cel.coreLock := true, cel.serdesLock := true })
    | 1 => next 2 (gaspRelease s)
    | 2 => next 3 (gaspRecord s)
    | _ => { offState false s with cel.offSince := some s.now }

/-! ### Meanings -/

/-- R503, R534. -/
def execBankEmpty (s : State) : Out := .next (bankEmpty s)
/-- R525. -/
def execRailUp (s : State) : Out := .next (railUp s)
/-- R525. -/
def execCellarStepEnd (m : CellarMeas) (s : State) : Out := .next (cellarStep m s)
/-- R523. -/
def execRailFall (s : State) : Out := .next (railFall s)
/-- R521. -/
def execCrystalFault (ppm : Half) (stopped : Bool) (s : State) : Out := .next (crystal ppm stopped s)
/-- R537. -/
def execWakeCauseRaised (src : WakeSource) (s : State) : Out := .next (wakeBy src s)
/-- R531. -/
def execRiseEnergyOk (s : State) : Out := .next (energyOk s)
/-- R526. -/
def execRiseStepEnd (prsntA prsntB : Bool) (s : State) : Out := .next (riseStep prsntA prsntB s)
/-- R528. -/
def execFallStepEnd (s : State) : Out := .next (fallStep s)
/-- R532. -/
def execStepFail (s : State) : Out := .next (failStep s)
/-- R532. -/
def execRiseRetry (s : State) : Out := .next (retryRise s)
/-- R533. -/
def execPowerRequestRun (req : Req) (s : State) : Out := .next (requestRun req s)
/-- R533. -/
def execPowerRequestCellar (req : Req) (s : State) : Out := .next (requestCellar req s)
/-- R533. -/
def execCellarTimerExpiry (s : State) : Out := .next (timerOut s)
/-- R534. -/
def execLastGaspStepEnd (s : State) : Out := .next (gaspStep s)

end Sys2Proof.Machine
end

