-- ==== Sys2Proof/Machine/Takeover.lean ====
section
/-! DEFINITION. The two controllers (R593 to R609, R418, R367, R368, R682, R699, Table 19.7): heartbeat and token, takeover and its steps,
re-execution, joining and loss of the standby, the planned switchover. -/
namespace Sys2Proof.Machine

/-! ### Who runs -/

/-- Attic's units run under a controller: the heartbeat and the token line are in use (R597, R598). -/
def controls (s : State) : Bool :=
  s.red.token && (match s.cel.pstate with
    | .run => true
    | .rising => true
    | .falling => true
    | _ => false)

/-- No controller is left: pass-through (R609). -/
def noController (s : State) : State :=
  let s1 := modSlot (ctSlot (activeCt s)) (fun x => if x.st == 0 then x else { x with st := 3 }) s
  offState true s1

/-- The pair is no longer duplex: nothing is copied any more. -/
def endPair (s : State) : State :=
  { s with red.pair := .none, red.minorDiff := false, red.joinStep := 0 }

/-! ### What a takeover loses (R602) -/

/-- A client's item belongs to a flow. -/
def itemFlow (i : RxItemDue) : FlowId := ⟨i.src, i.srcCqp, i.label⟩

/-- Items of flows that wait for Receive descriptors or whose completion has not been written. -/
def undelivered (s : State) : List (FlowId × Half) :=
  ((storedRx s).filter fun i => i.isFlow).map fun i => (itemFlow i, i.fseq)

/-- NEXT of a flow falls back to the first number that was not delivered, so that it is reported as missing (R596, R602). -/
def fallBack (lost : List (FlowId × Half)) (r : RxFlow) : RxFlow :=
  let mine := (lost.filter fun x => x.1 == r.id).map (·.2)
  let next := mine.foldl (fun n q => if ahead n q < 32768 then n else q) r.next
  { r with next := next, held := [], delivered := r.delivered.filter fun q => 32768 ≤ ahead next q }

/-- A decided descriptor whose completion was not written: it is executed again (R418). -/
def pendAgain (p : CqPend) : TxPend :=
  { idx := BitVec.ofNat 16 (fieldOf p.d3 0 16), cookie := 0, len := p.octets, copies := 1,
    result := some (BitVec.ofNat 8 (fieldOf p.d2 16 8)), delayed := false, lane := false, plc := false, retx := true,
    csumSkipped := false, hostErr := false, fseq := BitVec.ofNat 16 (fieldOf p.d3 16 16), epoch := 0, time := 0,
    classU := false, charge := 0 }

/-- Descriptors of a ring that were fetched and have no written completion, in ring order. -/
def unwritten (l : Link) (c : Nat) (s : State) : List TxPend :=
  ((s.hif.cqs.toList.flatMap fun q => q.pend).filter fun p => p.link == l && p.cqp == c && !p.isRx).map pendAgain
  ++ (ctx l c s).txPend

/-- A context as the new controller finds it: nothing fetched, the descriptors to execute again. -/
def ctxAfterLoss (l : Link) (c : Nat) (s : State) (x : Ctx) : Ctx :=
  { x with redo := unwritten l c s ++ x.redo, txPend := [], rxFree := [], rxWait := [], cntRxNobuf := 0, cntTx := 0, cntRx := 0 }

/-- Every frame of the failed frame store is lost, and every frame on its way (R602). -/
def loseFrames (s : State) : State :=
  let lost := undelivered s
  { s with
    lp := s.lp.map fun p =>
      { p with queues := Vector.replicate 8 [], ctl := [], sending := none, part := none, assembly := none },
    bbn.uq := [], bbn.transit := [], bbn.rxFlows := s.bbn.rxFlows.map (fallBack lost),
    rlv.heldFrames := [],
    plc := s.plc.map fun p =>
      { p with dataQ := [], partSent := [], partial_ := [], blocks := [], urgents := [], ctlQ := [], rxBsn := [],
               att := if relayClosed p then .locking else p.att,
               stepAt := if relayClosed p then s.now + (if p.line == .dc then 0 else 16 * p.halfCycle) else p.stepAt,
               soundDue := if relayClosed p then some s.now else p.soundDue },
    hif.h1.ctx0 := ctxAfterLoss .h1 0 s s.hif.h1.ctx0, hif.h2.ctx0 := ctxAfterLoss .h2 0 s s.hif.h2.ctx0,
    hif.ctxs := s.hif.ctxs.map fun x => (x.1, ctxAfterLoss (ownerOf x.1 s) x.1 s x.2),
    hif.cqs := s.hif.cqs.map fun q => { q with pend := [], since := 0, firstAt := none },
    vx.can0.bufs := Vector.replicate 3 none, vx.can1.bufs := Vector.replicate 3 none }

/-! ### Counters that restart (R231) -/

/-- CAN counters. -/
def canZero (c : CanChan) : CanChan :=
  { c with cntRx := 0, cntTx := 0, cntTxto := 0, cntErrPassive := 0, cntBusoff := 0, cntMbxOvf := 0, cntRxNobuf := 0,
           cntRemote := 0, cntBusErr := 0 }

/-- The counters whose cards name R231, besides those of the ports and the contexts. -/
def restartOthers (s : State) : State :=
  let pwf := fun (p : PwUnit) => { p with cntHandover := 0, cntHandback := 0, cntQualRestart := 0 }
  { s with
    arb.cntCongestion := 0, arb.cntBudget := 0, arb.cntTransit := 0,
    rrw.cntSent := 0, rrw.cntTimeout := 0, rrw.cntLateRsp := 0, rrw.cntLateErr := 0, rrw.cntServed := 0, rrw.cntRefused := 0,
    rrw.cntBroken := 0, pwr.a := pwf s.pwr.a, pwr.b := pwf s.pwr.b, bgt.cntShed := 0, bgt.cntOverrun := 0,
    sec.cntDeniedMsg := 0, sec.cntDeniedWr := 0,
    srm.cntWritten := 0, srm.cntSuppressed := 0, srm.cntLost := 0, srm.cntRecycle := 0 }

/-! ### The management engine (R604) -/

/-- Requests that operations hold open and that the new engine ends with TIMEOUT, with the operations themselves. -/
def dropOps (s : State) : List (MgmtPort × Half × Half) × State :=
  let opt := fun (op : Half) (x : Option (MgmtPort × Half)) => match x with | some r => [(r.1, r.2, op)] | none => []
  let tests := s.lp.toList.flatMap fun p => match p.test with | some t => [(t.port, t.tag, (0x0301 : Half))] | none => []
  let cals := s.plc.toList.flatMap fun p => match p.cal with | some t => [(t.port, t.tag, (0x0601 : Half))] | none => []
  let flash := [s.ids.op, s.ids.fwA.op, s.ids.fwB.op].flatMap fun o =>
    match o with | some t => [(t.port, t.tag, t.opcode)] | none => []
  let sets := s.bbn.setOpen.map fun t => (t.port, t.tag, (0x0401 : Half))
  let refs := s.bbn.setRef.flatMap fun t => match t.port with | some p => [(p, t.tag, (0x0401 : Half))] | none => []
  let levers := s.red.leverReq.toList.flatMap (opt 0x0C01)
  let stops := (s.hif.h1.ctx0 :: s.hif.h2.ctx0 :: s.hif.ctxs.map (·.2)).flatMap fun x =>
    x.stopReqs.map fun q => (q.port, q.tag, q.opcode)
  let restore := s.restores.flatMap fun r => opt 0x0302 r.req
  let caps := match s.svc.capsule with | some k => [(k.port, k.tag, (0x0C20 : Half))] | none => []
  let noStop := fun (x : Ctx) => { x with stopReqs := [] }
  let s1 := breakFw .b (breakFw .a (writeHeld (breakIds s)))
  (tests ++ cals ++ opt 0x0110 s.pwr.a.test ++ opt 0x0110 s.pwr.b.test ++ flash ++ sets ++ refs ++ levers ++ stops ++ restore
    ++ caps,
   { s1 with
    lp := s1.lp.map fun p => { p with test := none, changeAfterTest := false, phyOn := p.phyOn && p.test.isNone },
    plc := s1.plc.map fun p => { p with cal := none },
    pwr.a := { s1.pwr.a with test := none }, pwr.b := { s1.pwr.b with test := none },
    bbn.setOpen := [], bbn.setRef := s1.bbn.setRef.map fun t => { t with port := none },
    red.leverReq := Vector.replicate 11 none,
    hif.h1.ctx0 := noStop s1.hif.h1.ctx0, hif.h2.ctx0 := noStop s1.hif.h2.ctx0,
    hif.ctxs := s1.hif.ctxs.map fun x => (x.1, noStop x.2),
    restores := s1.restores.map fun r => { r with req := none }, svc.capsule := none })

/-- Requests that the new engine goes on with: remote requests (R473), a commit or selection (R627, R643), the switchover itself (R608); and those that
only read state, which it executes again. -/
def goesOn (op : Half) : Bool := [0x0A01, 0x0A02, 0x0A03, 0x0A04, 0x0C02, 0x0C11, 0x0D01, 0x0D10, 0x0E01].contains op.toNat

/-- The service port of a CT-8 as a request's port: answers go to the source of its latest request (R719). -/
def spPort (c : Ct) (s : State) : MgmtPort := .sp c ((spOf c s).peer.getD 0)

/-- Each request that was taken and has no response is answered; waiting events are lost but for their number (R604). -/
def newEngine (s : State) : State :=
  let d := dropOps s
  let s1 := d.1.foldl (fun t r => respond r.1 r.2.1 r.2.2 stTimeout [] t) d.2
  let rest := fun (p : MgmtPort) (l : List MgmtReq) (t : State) =>
    (l.filter fun q => !goesOn q.opcode).foldl (fun u q => respond p q.tag q.opcode stTimeout [] u) t
  let s2 := rest .h2 s1.hif.h2.reqs (rest .h1 s1.hif.h1.reqs s1)
  let s2 := rest (spPort .b s2) s2.svc.spB.reqs (rest (spPort .a s2) s2.svc.spA.reqs s2)
  let noSp := fun (p : SpState) =>
    { p with events := [], dropped := p.dropped + p.events.length }
  let noEvents := fun (h : HifLink) =>
    { h with items := h.items.filter fun i => !i.event, dropped := h.dropped + (h.items.filter fun i => i.event).length }
  retargetAll { s2 with hif.h1 := noEvents s2.hif.h1, hif.h2 := noEvents s2.hif.h2, svc.spA := noSp s2.svc.spA,
                        svc.spB := noSp s2.svc.spB }

/-- Event 0x8012 with the number of events that were waiting, behind 0xC001 (R604, R423). -/
def reportWaiting (l : Link) (s : State) : State :=
  let data := d1 (Link.num l) ++ d4 (hlink l s).dropped
  record 0x8012 data (offerLink l (eventItem 2 0x8012 data s) (modLink l (fun h => { h with dropped := 0 }) s))

/-! ### The store room and the ledger (R677, R682, R699) -/

/-- The new controller's writer starts: buckets full, the pending records lost and counted; the interval goes on from its last copy with
FAILOVER. -/
def newWriter (s : State) : State :=
  let n := s.srm.pend.length + s.srm.dropped
  let s1 := { s with srm.pend := [], srm.dropped := 0, srm.buckets := [], srm.seen := [], srm.cntLost := s.srm.cntLost + BitVec.ofNat 32 s.srm.pend.length,
                     ldg.open_ := match s.ldg.open_ with
                       | some i => some (match s.ldg.copy with
                         | some k => if k.startMono == i.startMono && k.runId == i.runId then { i with counts := k.counts, flags := i.flags ||| 0x0010 }
                                     else { i with counts := [], flags := i.flags ||| 0x0010 }
                         | none => { i with counts := [], flags := i.flags ||| 0x0010 })
                       | none => none }
  let s2 := timeMark 4 0 s1
  if s2.srm.writerOn && 0 < n then writeRecord false 0xE006 (d4 n) s2 else s2

/-! ### Steps of Table 16.3 -/

/-- Step 1 ends: the standby takes the token (R598, R600). The controller that lost it stays out of the pair (R605): faulted, or after a
planned switchover unpaired. -/
def claim (cause : Nat) (s : State) : State :=
  let planned := cause = 4
  let old := ctSlot (activeCt s)
  let oldSeated := (slot old s).st != 0
  let s1 := modSlot old (fun x => if x.st == 0 then x else { x with st := if planned then 2 else 3 })
    { endPair s with red.toStep := 2, red.toCause := cause, red.toAt := s.now, red.yield := false, red.gapUs := none }
  let s2 := { s1 with
    red.activeB := !s.red.activeB, red.token := true, red.pair := if planned && oldSeated then .unpaired else .none,
    red.peerPresent := oldSeated, red.lastToken := s.now, red.hbNextAt := s.now,
    red.cntTakeover := if planned then s.red.cntTakeover else s.red.cntTakeover + 1,
    red.cntSwitchover := if planned then s.red.cntSwitchover + 1 else s.red.cntSwitchover,
    arb.pointers := Vector.replicate 4 15, arb.waitSince := Vector.replicate 16 none, arb.ageCount := 0, arb.grantValid := false }
  let s3 := newWriter (newEngine (loseFrames (restartOthers s2)))
  let s3 := match decide planned, s3.red.switchReq with
    | false, some (p, tag) => respond p tag 0x0C02 stTimeout [] { s3 with red.switchReq := none }
    | _, _ => s3
  let s4 := if planned then s3 else raiseRank 1 0xC001 (d1 cause) s3
  refreshOut1 (lockLost (restartCounters (reportWaiting .h2 (reportWaiting .h1 s4))))

/-- A standby that can take the token: both its views are up (R598, R599, R616). -/
def partnerUp (s : State) : Bool := s.red.pair == .duplex && !s.red.hbLinkFault && viewsOk 12 s

/-- A takeover on which Step 1 has ended, where there is a standby; else no controller is left. -/
def takeOver (cause : Nat) (s : State) : State :=
  if partnerUp s then claim cause s else noController s

/-- Forwarding runs again: flow control and preemption start anew, the caps are evaluated (Table 19.7). -/
def resumeForwarding (s : State) : State :=
  let one := fun (t : State) (n : PortNo) =>
    let t1 := flowReset n t
    flowCheck n (if (port n t1).link then startVerify n t1 else t1)
  evaluate { (List.finRange 8).foldl one s with bgt.holdUntil := none }

/-! #### R418 -/

/-- The shadow positions of a ring are taken, and its fetched Receive descriptors are taken again. -/
def readShadow (l : Link) (s : State) (c : Nat) : State :=
  let w := readHost32 l (shAddr l (4 * c) s) s
  modCtx l c (fun x =>
    { x with txDone := if x.txState == .stopped then x.txDone else BitVec.ofNat 16 (fieldOf w 0 16),
             rxDone := if x.rxState == .stopped then x.rxDone else BitVec.ofNat 16 (fieldOf w 16 16) }) s

/-- A completion queue is read forward from CQ_PROD while its entries carry the current phase: each counts as written. -/
def scanQueue (n : CqNo) : Nat → State → State
  | 0, s => s
  | fuel + 1, s =>
    let q := cq n s
    let a := entryAddr q.base q.pos.toNat
    let w7 := readHost32 q.link (a + 28) s
    let w2 := readHost32 q.link (a + 8) s
    if flagOf w7 31 == q.pass then s
    else
      let wrap := decide (cqSize q ≤ q.pos.toNat + 1)
      let c := fieldOf w2 0 10
      let s1 := modCq n (fun x => { x with pos := if wrap then 0 else x.pos + 1, pass := if wrap then !x.pass else x.pass }) s
      let s2 := modCtx q.link c (fun x =>
        if !flagOf w2 10 then { x with txDone := x.txDone + 1 }
        else if flagOf w2 28 then x
        else { x with rxDone := x.rxDone + 1 }) s1
      scanQueue n fuel (writeCqProd n (writeCons q.link c s2))

/-- An enabled queue of the link: its position and PASS from the shadow page, then forward. -/
def readQueue (l : Link) (s : State) (n : CqNo) : State :=
  let q := cq n s
  if !(q.en && q.link == l) then s
  else
    let w := readHost32 l (shAddr l (0x1000 + 4 * n.val) s) s
    scanQueue n (cqSize q) (modCq n (fun x => { x with pos := BitVec.ofNat 16 (fieldOf w 0 16), pass := flagOf w 16, full := false }) s)

/-- A ring goes on behind what is complete; what was fetched and is not is executed again (R418). -/
def resumeRing (l : Link) (s : State) (c : Nat) : State :=
  let x := ctx l c s
  let again := x.redo.filter fun t => ahead x.txDone t.idx < 32768
  let s1 := modCtx l c (fun y =>
    { y with redo := again, txFetch := if y.txState == .stopped then y.txFetch else y.txDone,
             rxFetch := if y.rxState == .stopped then y.rxFetch else y.rxDone }) s
  readProd l c { s1 with red.cntReexec := s1.red.cntReexec + BitVec.ofNat 32 again.length }

/-- R418 for one link. -/
def recoverLink (l : Link) (s : State) : State :=
  if !dmaOk l s then s
  else
    let cs := linkCqps l s
    let s1 := cs.foldl (readShadow l) s
    let s2 := (List.finRange 16).foldl (readQueue l) s1
    cs.foldl (resumeRing l) s2

/-- The mailbox entry with the highest MBX_SEQ of those written: the next entry and number follow it (R368); one that no entry has been
written to starts at entry 0 (log entry 16). -/
def recoverMailbox (ch : Chan) (s : State) : State :=
  let c := can ch s
  let l := ownerOf c.cqp.toNat s
  if !flagOf c.mbxCtrl 31 || !dmaOk l s then s
  else
    let seqs := (List.range 16).map fun e => (e, readHost32 l (mbxAddr c e + 80) s)
    let best := seqs.foldl (fun (m : Nat × Word) e => if 0 < (e.2 - m.2).toInt then e else m) (0, (seqs.headD (0, 0)).2)
    if seqs.all fun e => e.2 == 0 then modCan ch (fun y => { y with mbxPos := 0, mbxSeq := 1 }) s
    else modCan ch (fun y => { y with mbxPos := (best.1 + 1) % 16, mbxSeq := best.2 + 1 }) s

/-- A CAN channel starts anew with its error counters at 0 (R367). -/
def recoverCan (ch : Chan) (s : State) : State :=
  let s1 := modCan ch canZero s
  let s2 := if canEn (can ch s1) && slotReady vxSlot s1 && (s1.cel.pstate == .run || (s1.cel.pstate == .rising && decide (4 ≤ s1.cel.step)))
    then canStart ch s1 else s1
  recoverMailbox ch s2

/-- A restart of a CT-8 that a planned switchover has put out of the pair, for `fw_activate` (R662): it joins from J1. -/
def restartOther (s : State) : State :=
  let c := otherCt s
  if (slot (ctSlot c) s).st == 0 then s
  else
    endpointsStart c (modSlot (ctSlot c) (fun x => { x with st := 1 })
      { s with red.joinStep := 1, red.pair := .joining, red.peerPresent := true })

/-- A CT-8 that handed over for `fw_activate` restarts on the bank its boot record names (R662). -/
def restartNew (s : State) : State :=
  let f := fwOf (otherCt s) s
  if f.running == bootBank f then s else restartOther (modFw (otherCt s) (fun x => { x with running := bootBank x }) s)

/-- Step 5 ends: RED_LAST_FO; a planned switchover is answered (R600, R608). -/
def endTakeover (s : State) : State :=
  let s1 := { s with red.toStep := 0, red.lastFo := word (putBits 28 4 s.red.toCause + s.red.gapUs.getD (urgentGap s)), red.gapUs := none }
  if s1.red.toCause ≠ 4 then s1
  else
    let s2 := raise 0xC002 [] s1
    match s2.red.switchReq with
    | some (p, tag) => restartNew (respond p tag 0x0C02 stOk [] { s2 with red.switchReq := none })
    | none => restartNew s2

/-- The boundary of a planned switchover finds no duplex pair in RUN: BUSY (R608). -/
def dropSwitch (s : State) : State :=
  let s1 := { s with red.toStep := 0, red.switchReq := none }
  match s.red.switchReq with
  | some (p, tag) => respond p tag 0x0C02 stBusy [] s1
  | none => s1

/-- A takeover step ends (R600). -/
def takeoverStep (h1 h2 : List Host.Cell) (s0 : State) : State :=
  let s := hostStores .h2 h2 (hostStores .h1 h1 s0)
  let next := fun (k : Nat) (t : State) => { t with red.toStep := k, red.toAt := t.now }
  match s.red.toStep with
  | 1 =>
    if s.now < s.red.toAt then s
    else if s.red.toCause = 4 then
      (if s.cel.pstate == .run && partnerUp s then claim 4 (emit (.heartbeat true) s) else dropSwitch s)
    else takeOver s.red.toCause s
  | 2 => next 3 s
  | 3 => resumeForwarding (next 4 s)
  | 4 =>
    let s1 := next 5 s
    let s2 := recoverCan 1 (recoverCan 0 (recoverLink .h2 (recoverLink .h1 s1)))
    if isNative s2 then s2 else endTakeover s2
  | 5 => endTakeover s
  | _ => s

/-! ### Heartbeat and token -/

/-- Every 1 ms a heartbeat and two token pulses (R597). -/
def heartbeat (s : State) : State :=
  if !controls s || s.red.yield || s.now < s.red.hbNextAt then s
  else
    emit .token (emit .token (emit (.heartbeat false)
      { s with red.hbNextAt := s.now + ms 1, red.lastToken := s.now }))

/-- The standby hears a heartbeat (R597 to R599): it answers, takes the token on YIELD, joins again once the link has recovered. -/
def heardBeat (yield : Bool) (s : State) : State :=
  if !controls s then s
  else if s.red.hbLinkFault then
    { s with red.hbLinkFault := false, red.joinStep := 2, red.pair := .joining }
  else if s.red.pair != .duplex then s
  else
    let s2 := emit (.heartbeat false) s
    if yield && s2.red.toStep ≤ 1 then takeOver (if s2.red.toStep = 1 then s2.red.toCause else 2) s2 else s2

/-- The active controller finds its own fault: YIELD, and it stops driving (R598); alone, it leaves the node without a
controller (R609). -/
def activeFault (s : State) : State :=
  if !controls s then s
  else if s.red.pair == .duplex then
    emit (.heartbeat true) { s with red.yield := true, red.toStep := 1, red.toCause := 2, red.toAt := s.now }
  else noController s

/-- No token pulse for 3 ms (R598). -/
def silence (s : State) : State :=
  if controls s && s.red.pair == .duplex && decide (s.red.lastToken + ms 3 ≤ s.now) && s.red.toStep ≤ 1 then takeOver 1 s else s

/-- Heartbeats stop while token pulses go on (R599). -/
def heartbeatsLost (s : State) : State :=
  if !controls s || s.red.pair != .duplex || s.red.toStep ≠ 0 || decide (s.red.lastToken + ms 3 ≤ s.now) then s
  else refreshOut1 (raise 0xC007 [] { endPair s with red.hbLinkFault := true })

/-! ### Standby -/

/-- The standby is lost: failed (0), unseated (1) (R607). One that fails in S1 to S4 of a rise is tried again 10 s after RUN, and where a
try fails too, 10 s after that, three times in all (the spacing of further tries is DEDUCED, log entry 42). -/
def standbyLost (cause : Nat) (s : State) : State :=
  let was := s.red.pair == .duplex || s.red.pair == .joining
  let rise := s.cel.pstate == .rising && decide (1 ≤ s.cel.step) && decide (s.cel.step ≤ 4)
  let retried := s.red.joinStep = 1 && 0 < s.red.joinFails
  let again := cause = 0 && (rise || retried) && s.red.joinFails < 3
  let s1 := { endPair s with red.rejoinAt := if again then some (s.now + sec 10) else s.red.rejoinAt }
  let s2 := if was then raise 0xC003 (d1 cause) s1 else s1
  refreshOut1 (if s2.red.toStep = 1 then (if s2.red.toCause = 4 then dropSwitch s2 else noController s2) else s2)

/-- STANDBY_FAIL (R607). -/
def standbyFails (s : State) : State :=
  if s.cel.pstate == .off || s.red.joinStep = 0 && s.red.pair != .duplex then s
  else modSlot (ctSlot (otherCt s)) (fun x => if x.st == 0 then x else { x with st := 3 }) (standbyLost 0 s)

/-- 10 s after RUN the failed standby tries J1 again (R607). -/
def rejoinRetry (s : State) : State :=
  if s.cel.pstate == .run && due s.red.rejoinAt s && (slot (ctSlot (otherCt s)) s).st != 0 && s.red.pair != .duplex then
    restartOther { s with red.rejoinAt := none, red.joinFails := s.red.joinFails + 1 }
  else s

/-- J2 ends: the releases are compared (R595). -/
def pairUp (s : State) : State :=
  let a := fwOf .a s
  let b := fwOf .b s
  if runMajor a != runMajor b then
    raise 0xC005 (d1 (runMajor a).toNat ++ d1 (runMajor b).toNat)
      (modSlot (ctSlot (otherCt s)) (fun x => { x with st := 2 }) { s with red.joinStep := 0, red.pair := .unpaired })
  else
    let diff := runMinor a != runMinor b
    let s1 := { s with red.joinStep := 3, red.minorDiff := diff }
    if diff then raise 0xC006 (d1 (runMinor a).toNat ++ d1 (runMinor b).toNat) s1 else s1

/-- A join step ends (R606, Table 16.4). -/
def joinStepEnds (s : State) : State :=
  match s.red.joinStep with
  | 1 => fixtureNote (otherCt s) (endpointsStart (otherCt s) { s with red.joinStep := 2 })
  | 2 => pairUp s
  | 3 =>
    let c := otherCt s
    let s1 := startedWell c (modSlot (ctSlot c) (fun x => { x with st := 2 })
      { s with red.joinStep := 0, red.joinFails := 0, red.pair := .duplex, red.peerPresent := true, red.lastToken := s.now,
               ldg.copy := s.ldg.open_ })
    refreshOut1 (raise 0xC004 [] s1)
  | _ => s

/-! ### Planned switchover -/

/-- The switchover is set for the next cycle boundary (R608). -/
def planSwitch (req : Option (MgmtPort × Half)) (s : State) : State :=
  { s with red.toStep := 1, red.toCause := 4, red.toAt := s.now + (cycleNs s - cyclePos s), red.switchReq := req }

/-- `red_switchover` (R608). -/
def switchover (r : Req) (s : State) : State :=
  authorised 0x0C02 r (fun t =>
    if !r.body.isEmpty then malformed r 0x0C02 t
    else if t.cel.pstate != .run || t.red.pair != .duplex || t.red.toStep ≠ 0 then answer r 0x0C02 stBusy [] t
    else planSwitch (some (r.port, r.tag)) t) s

/-! ### Meanings -/

/-- R597. -/
def execHeartbeatSend (s : State) : Out := .next (heartbeat s)
/-- R597. -/
def execHeartbeatReceived (yield : Bool) (s : State) : Out := .next (heardBeat yield s)
/-- R598. -/
def execActiveFaultDetected (s : State) : Out := .next (activeFault s)
/-- R598. -/
def execTokenSilence (s : State) : Out := .next (silence s)
/-- R600. -/
def execTakeoverStepEnd (storesH1 storesH2 : List Host.Cell) (s : State) : Out := .next (takeoverStep storesH1 storesH2 s)
/-- R599. -/
def execHeartbeatLoss (s : State) : Out := .next (heartbeatsLost s)
/-- R606. -/
def execStandbyJoinStepEnd (s : State) : Out := .next (joinStepEnds s)
/-- R607. -/
def execStandbyFail (s : State) : Out := .next (standbyFails s)
/-- R607. -/
def execStandbyRejoinRetry (s : State) : Out := .next (rejoinRetry s)
/-- R608. -/
def execRedSwitchover (req : Req) (s : State) : Out := .next (switchover req s)

end Sys2Proof.Machine
end

