-- ==== Sys2Proof/Machine/Cartridges.lean ====
section
/-! DEFINITION. Cartridges (R49 to R62, R76, R377, R611 to R614, R657): seating, unseating, levers and `red_release`, what each cartridge's
preparation does; the bypass relay sets and the straps. -/
namespace Sys2Proof.Machine

/-! ### Kinds of cartridge -/

/-- Line ports of an LP slot. -/
def slotPorts (n : Slot) : List PortNo := (List.finRange 8).filter fun p => portSlot p == n
/-- A slot of line ports that hold a lane role. -/
def laneSlot (n : Slot) (s : State) : Bool := (slotPorts n).any fun p => (portLane p s).isSome
/-- The PW-2 of a slot. -/
def slotPw (n : Slot) : Option PwNo := if n.val = 0 then some 0 else if n.val = 1 then some 1 else none
/-- The CT-8 of a slot. -/
def slotCt (n : Slot) : Option Ct := if n.val = 2 then some .a else if n.val = 3 then some .b else none
/-- The relay set whose coil current passes through a slot's cartridge (R50, R53). -/
def slotLane (n : Slot) : Option Lane := if n.val = 4 then some .a else if n.val = 5 then some .b else none
/-- The slot through which a relay set's coil current passes. -/
def laneLoop (l : Lane) : Slot := match l with | .a => 4 | .b => 5

/-! ### Bypass relays -/

/-- A lane role lies on a relay set's connectors, LP0 and LP1 of BYP-A or LP2 and LP3 of BYP-B (R51). The set serves whichever
lane's roles a profile puts there (R55 names both pairs for any lane; DEDUCED, log entry 66). -/
def guarded (l : Lane) (s : State) : Bool := (List.finRange 8).any fun n => portSet n == some l && (portLane n s).isSome

/-- Drive pulses are sent: from S4 of a rise until F4 of a fall, by the controller that drives (R51, R593, R600). -/
def drives (s : State) : Bool :=
  s.red.token && !handingOver 2 s
  && (match s.cel.pstate with
      | .run => true
      | .rising => decide (4 ≤ s.cel.step)
      | .falling => decide (5 ≤ s.cel.step)
      | _ => false)

/-- A drive pulse: the set is open for the hold (R50 to R52). -/
def drivePulse (l : Lane) (s : State) : State :=
  if drives s && guarded l s && (slot (laneLoop l) s).st != 0 then
    emit (.bypassPulse l) (modByp l (fun b => moveContacts false { b with holdUntil := some (s.now + ms 40) }) s)
  else s

/-- The hold ends without a pulse: the set closes (R52). -/
def holdOver (l : Lane) (s : State) : State := if due (bypOf l s).holdUntil s then closeSet l s else s

/-- The monitor contact has disagreed with the coil drive for more than 20 ms (R56). -/
def monitorFault (l : Lane) (bridged : Bool) (s : State) : State :=
  let drive := (bypOf l s).holdUntil.isSome
  if s.cel.pstate == .off then s
  else
    let s1 := cutOff l (modByp l (fun b => { b with bridged := bridged, stuck := bridged == drive }) s)
    if bridged != drive then s1
    else raise 0x0025 (d1 (Lane.num l) ++ d1 (bit drive) ++ d1 (bit bridged)) (modByp l (fun b => { b with fault := true }) s1)

/-! ### Straps -/

/-- Every 1,024 ticks the straps are read again (R62): CHANGED and event 0x0023 at every reading that differs from the sample. A marginal
reading sets MARGINAL and writes event 0x0024 only while MARGINAL is not set yet (R58 and Table 2.20 differ on readings after the sample;
DESIGN CHOICE, log entry 66). -/
def strapRead (r : StrapReading) (s : State) : State :=
  if !due s.sys.strapDue s then s
  else
    let a := strapBit (some r.psel0)
    let b := strapBit (some r.psel1)
    let l := strapBit (some r.plock)
    let p := pselOf a.1 b.1
    let marg := a.2 || b.2 || l.2
    let s1 := { s with sys.pselLive := p, sys.plockLive := l.1, sys.strapDue := some (s.now + ticksNs 1024) }
    let s2 := if marg && !s.sys.strapMarginal then
        raise 0x0024 (strapData p l.1 ++ strapData s.sys.psel s.sys.plock) { s1 with sys.strapMarginal := true }
      else s1
    if p == s.sys.psel && l.1 == s.sys.plock then s2
    else raise 0x0023 (strapData p l.1 ++ strapData s.sys.psel s.sys.plock) { s2 with sys.strapChanged := true }

/-- A reversed battery (R76): its flag and event 0x1010, in OFF kept until the node is powered; the battery is lost. -/
def reversed (m : PwNo) (s : State) : State :=
  if (pw m s).st == .absent || (pw m s).battRev then s else batteryGone m .reversed (showReversed m s)

/-! ### What a cartridge leaves behind -/

/-- A frame that will not leave completes TIMEOUT; one that came in on a port counts in that port's RX_DROP_NOBUF (Tables 16.6, 16.7). -/
def dropFrame (s : State) (f : OutFrame) : State :=
  let s1 := match f.inPort with | some n => bump n 0x46C s | none => s
  completeOrigin f.origin stTimeout id s1

/-- Frames queued for a consist port are dropped. -/
def dropPortFrames (s : State) (n : PortNo) : State :=
  if (portLane n s).isSome then s
  else
    let all := portFrames (port n s)
    all.foldl dropFrame (modPort n (fun p => { p with queues := Vector.replicate 8 [], part := none, sending := none, ctl := [] }) s)

/-- What is on the wire of a lane port whose cartridge is pulled is lost; its descriptor is complete. -/
def cutWire (s : State) (n : PortNo) : State :=
  match (port n s).sending with
  | some x => completeOrigin x.frame.origin stOk (leftOnPort n x.frame s) (modPort n (fun p => { p with sending := none }) s)
  | none => s

/-- A line port without its cartridge (R211, R242, R613). -/
def portGone (s : State) (n : PortNo) : State :=
  let s1 := cableAbort n 0xA (dropPortFrames (cutWire s n) n)
  let s2 := if (port n s1).changing then abortChange n 1 s1 else s1
  refreshPort n (powerDown n s2)

/-- Every input pair is UNKNOWN, keeping its VALUE: the fault bits, and in place of event 0x7020 the caller's 0x7040 (R377); a pair that
was not UNKNOWN before is an INPUT cause (Table 13.8). -/
def pairsUnknown (s : State) : State :=
  let s1 : State := { s with vx.pairs := s.vx.pairs.map fun p => { p with st := .unknown, fault := true, sinceTick := none, broke := none } }
  (List.finRange 4).foldl (fun t p =>
    let wakes := (s.vx.pairs[p]).st != .unknown && s.cel.pstate != .off
    refreshEnd (pairEnd p) (if wakes then inputWake p t else t)) s1

/-- The pairs restart in SETTLING (R377). -/
def pairsSettle (s : State) : State := { s with vx.pairs := s.vx.pairs.map settlePair }

/-- A channel without its transceiver: stopped, its frames complete TIMEOUT (Table 8.7); it sees a recessive bus (R363). -/
def canGone (ch : Chan) (s : State) : State :=
  modCan ch (fun c => { c with st := .stopped, recovering := false, busFault := false }) (canDropAll ch s)

/-- The VX-2 is gone (R377, Table 8.7). -/
def vxGone (s : State) : State :=
  let open_ := { s with vx.out0HoldUntil := none, vx.out0Closed := false, vx.out1Closed := false, vx.out1Until := none,
                        vx.out0Test := none, vx.out1Test := none }
  raise 0x7040 [] (pairsUnknown (canGone 1 (canGone 0 (noteOut0 (contact0 s) open_))))

/-- A PW-2 is pulled: event 0x1031 for an unannounced pull, the rail falls where nothing else can carry (R512). -/
def pwGone (m : PwNo) (pulled : Bool) (s : State) : State :=
  let s1 := pwUnseat m (ldgPwOut m s)
  let s2 := if pulled then raise 0x1031 (pwData m) s1 else s1
  let o := pwOther m
  let other := pwReady o s2 && ((pw o s2).mainsQual || (pw o s2).battQual || decide (0 < (pw o s2).energy)) && (pw o s2).st != .down
  if other then s2 else railFall s2

/-- The endpoints of a CT-8 are gone with it. -/
def endpointsGone (c : Ct) (s : State) : State :=
  modEndpoint ⟨.h2, c⟩ (fun _ => EndpointState.reset) (modEndpoint ⟨.h1, c⟩ (fun _ => EndpointState.reset) s)

/-- A firmware operation on a CT-8 ends with it: TIMEOUT. -/
def fwOpGone (c : Ct) (s : State) : State :=
  match (fwOf c s).op with
  | some o => respond o.port o.tag o.opcode stTimeout [] (breakFw c s)
  | none => s

/-- A CT-8 is unseated: the active one hands over or leaves no controller, the other one is no standby any more (R598, R607, R609,
R613); one that never was paired starts cold (R526). -/
def ctGone (c : Ct) (s : State) : State :=
  let s1 := { fwOpGone c s with red.peerPresent := false }
  let s2 := modSp c (fun _ => SpState.reset) s1
  if c != activeCt s2 then endpointsGone c (standbyLost 1 s2)
  else if controls s2 then endpointsGone c (takeOver 3 s2)
  else if (slot (ctSlot (otherCt s2)) s2).st == 0 then offState true s2
  else
    let s3 := modSlot (ctSlot (otherCt s2)) (fun x => { x with st := 2 }) (endPair s2)
    endpointsGone c { s3 with red.activeB := !s2.red.activeB, cel.coldNext := s2.cel.coldNext || s2.red.pair != .duplex }

/-- The relay set of a slot closes with its cartridge (R53). -/
def loopOpen (n : Slot) (s : State) : State :=
  match slotLane n with
  | some l => closeSet l s
  | none => s

/-- What follows from an empty slot. -/
def cartGone (n : Slot) (pulled : Bool) (s : State) : State :=
  match slotPw n with
  | some m => pwGone m pulled s
  | none => match slotCt n with
    | some c => ctGone c s
    | none =>
      if n == pcSlot then plcUnseat 1 (plcUnseat 0 s)
      else if n == vxSlot then vxGone s
      else if n == srSlot then capsuleStops s
      else (slotPorts n).foldl portGone (loopOpen n s)

/-! ### Levers -/

/-- What a removal that ends early answers to its `red_release`: not safe, reason 0. -/
def answerLever (n : Slot) (body : List Byte) (s : State) : State :=
  match s.red.leverReq[n] with
  | some (p, tag) => respond p tag 0x0C01 stOk body { s with red.leverReq := s.red.leverReq.set n none }
  | none => s

/-- A lever's state. -/
def setLever (n : Slot) (v : LeverState) (s : State) : State := { s with red.lever := s.red.lever.set n v }

/-- The other lane is up on every span of the polyline; a polyline of one has none. -/
def otherLaneUp (l : Lane) (s : State) : Bool := decide (s.rlv.poly.length < 2) || spansUp (Lane.other l) s

/-- Why a cartridge's removal is not safe (Table 16.6); 0 while it is. -/
def unsafeReason (n : Slot) (s : State) : Nat :=
  match slotPw n with
  | some m => if pwReady (pwOther m) s && pwFed (pwOther m) s then 0 else 1
  | none =>
    if n == pcSlot then (if s.rlv.plcOnly then 3 else 0)
    else if (slotPorts n).all fun p => match portLane p s with | some (l, _) => otherLaneUp l s | none => true then 0 else 2

/-- Preparation begins (Table 16.6): spans declared down, a consist cartridge's frames dropped, channels detached, a switchover set. -/
def beginPrep (n : Slot) (s : State) : State :=
  if n == pcSlot then
    let one := fun (c : Chan) (t : State) => modPlc c (fun p => { p with retryAt := none }) (plcDown c t)
    one 1 (one 0 s)
  else if some (activeCt s) == slotCt n then
    if s.red.pair == .duplex && s.cel.pstate == .run && s.red.toStep = 0 then planSwitch none s else s
  else (slotPorts n).foldl (fun t p => match portLane p t with
    | some (l, e) => declareDown l e t
    | none => dropPortFrames t p) s

/-- The only CT-8 is prepared: F7 to F4 of Table 13.6 run for it, and the sequence stands there. -/
def pauseAlone (s : State) : State :=
  match s.cel.pstate with
  | .cellar => s
  | _ =>
    let s1 := if s.cel.pstate == .run then out0Open (beginFall 7 s) else s
    let s2 : State := { s1 with cel.pstate := .falling, cel.step := 7 }
    let s3 := endFall 6 { endFall 7 s2 with cel.step := 6 }
    let s4 := endFall 5 { s3 with cel.step := 5 }
    endFall 4 { s4 with cel.step := 4, cel.stepAt := s4.now }

/-- Preparation ends and the slot is safe: what Table 16.6 names has stopped. -/
def finishPrep (n : Slot) (s : State) : State :=
  let s1 := setLever n .safe s
  match slotCt n with
  | some c =>
    if c != activeCt s then
      (if s.red.pair == .duplex || s.red.pair == .joining then refreshOut1 (endPair s1) else s1)
    else pauseAlone (endPair s1)
  | none =>
    if n == vxSlot then pairsUnknown (canDropAll 1 (canDropAll 0 s1))
    else (slotPorts n).foldl (fun t p => refreshPort p (retarget false p t)) s1

/-- A preparation is undone (R611). -/
def undoPrep (n : Slot) (s : State) : State :=
  let safe := leverSafe n s
  let s1 := setLever n .none s
  match slotPw n, slotCt n with
  | some m, _ => tryHandback m s1
  | _, some c =>
    if c == activeCt s then
      if s1.red.toStep = 1 && s1.red.toCause = 4 && s1.red.switchReq.isNone then { s1 with red.toStep := 0 }
      else if safe && s1.cel.pstate == .falling then enterRise 4 { s1 with cel.pstate := .rising, cel.latch := .none }
      else s1
    else if s1.red.pair != .duplex && s1.red.joinStep = 0 && controls s1 then
      { s1 with red.joinStep := 2, red.pair := .joining }
    else s1
  | _, _ =>
    if n == pcSlot then plcStart 1 (plcStart 0 s1)
    else if n == vxSlot then (if safe then pairsSettle s1 else s1)
    else if n == srSlot then (if safe then resumeWriting [] s1 else s1)
    else (slotPorts n).foldl (fun t p => retarget false p t) s1

/-- A removal is asked for, by the lever or by `red_release` (R611). -/
def prepare (n : Slot) (req : Option (MgmtPort × Half)) (s : State) : State :=
  let s1 := raise 0xC010 (d1 n.val ++ d1 0) { setLever n .preparing s with red.leverReq := s.red.leverReq.set n req }
  if unsafeReason n s1 = 0 then beginPrep n s1 else s1

/-- The lever reaches its first detent. -/
def firstDetent (n : Slot) (s : State) : State :=
  if s.cel.pstate == .off || (slot n s).st == 0 || leverBusy n s then s else prepare n none s

/-- A removal is cancelled: what was prepared is undone, event 0xC013. -/
def cancelPrep (n : Slot) (s : State) : State :=
  if s.red.lever[n] == .none then s
  else
    let s1 := if leverBusy n s then undoPrep n s else setLever n .none s
    raise 0xC013 (d1 n.val ++ d1 0) (answerLever n (d1 3 ++ d1 0) s1)

/-- Preparation ends (R611, R612): safe or not safe with its reason, the response to the request. -/
def prepEnds (n : Slot) (s : State) : State :=
  let waits := slotCt n == some (activeCt s) && s.red.pair == .duplex
  if s.red.lever[n] != .preparing then s
  else if waits then
    if s.red.toStep = 0 && s.cel.pstate == .run then planSwitch none s
    else if controls s then s
    else
      let c := otherCt s
      let s1 := setLever n .safe (endPair { s with red.activeB := c == .b })
      raise 0xC011 (d1 n.val ++ d1 0) (answerLever n (d1 2 ++ d1 0) s1)
  else if s.red.toStep ≠ 0 && (slotCt n).isSome then s
  else
    match unsafeReason n s with
    | 0 => raise 0xC011 (d1 n.val ++ d1 0) (answerLever n (d1 2 ++ d1 0) (finishPrep n s))
    | r => raise 0xC012 (d1 n.val ++ d1 r) (answerLever n (d1 3 ++ d1 r) (setLever n .notSafe (undoPrep n s)))

/-- `red_release` names a slot: bytes 0 and, behind the action, two reserved ones (R611). -/
def releaseBody (b : List Byte) : Option Slot :=
  if h : byteAt b 0 < 11 then (if b.length = 3 && zeros b 1 3 then some ⟨byteAt b 0, h⟩ else none) else none

/-- `red_release`, request: an empty slot or one in preparation is BUSY; a safe one is answered at once. -/
def releaseRequest (r : Req) (s : State) : State :=
  authorised 0x0C01 r (fun t =>
    match releaseBody r.body with
    | none => malformed r 0x0C01 t
    | some n =>
      if (slot n t).st == 0 || t.red.lever[n] == .preparing then answer r 0x0C01 stBusy [] t
      else if leverSafe n t then answer r 0x0C01 stOk (d1 2 ++ d1 0) t
      else prepare n (some (r.port, r.tag)) t) s

/-- `red_release`, cancel. -/
def releaseCancel (r : Req) (s : State) : State :=
  authorised 0x0C01 r (fun t =>
    match releaseBody r.body with
    | none => malformed r 0x0C01 t
    | some n => answer r 0x0C01 stOk [] (cancelPrep n t)) s

/-! ### Seating and unseating -/

/-- TYPE and serial of a cartridge as event data. -/
def cartData (n : Slot) (x : SlotState) : List Byte := d1 n.val ++ d1 (cartType n x.lp2f) ++ d6 x.serial

/-- What follows from a cartridge in a slot (R614). -/
def cartHere (n : Slot) (c : CartInfo) (s : State) : State :=
  match slotPw n, slotCt n with
  | some m, _ => let s1 := ldgPwIn m (pwSeat m c.serial s); if s1.cel.pstate == .off then railUp s1 else s1
  | _, some k =>
    let s1 := modFw k (fun _ => { FwState.reset with major0 := c.fwMajor, minor0 := c.fwMinor }) s
    if s1.cel.pstate == .off || k == activeCt s1 then s1
    else if controls s1 then restartOther s1
    else { s1 with red.peerPresent := true }
  | _, _ =>
    if n == pcSlot then plcSeat 1 (plcSeat 0 s)
    else if n == vxSlot then
      let s1 := pairsSettle s
      if s1.cel.pstate == .run || (s1.cel.pstate == .rising && decide (5 ≤ s1.cel.step)) then startCans s1 else s1
    else if n == srSlot then s
    else (slotPorts n).foldl (fun t p => retarget false p t) s

/-- CARTRIDGE_SEATED (R57, R614, R657). -/
def seat (n : Slot) (c : CartInfo) (s : State) : State :=
  if (slot n s).st != 0 then s
  else
    let isCt := (slotCt n).isSome
    let x : SlotState :=
      { st := if isCt || n == srSlot then 1 else 2, lp2f := c.lp2f && (slotPorts n).length != 0, serial := c.serial, build := c.build,
        fwMajor := if isCt then c.fwMajor else 0, fwMinor := if isCt then c.fwMinor else 0 }
    let s1 := setLever n .none (modSlot n (fun _ => x) s)
    if s.cel.pstate == .off then cartHere n c s1
    else cartHere n c (appendSwap n 1 (cartType n x.lp2f) x.build x.serial (raise 0x0020 (cartData n x) s1))

/-- CARTRIDGE_UNSEATED (R57, R613, R657). -/
def unseat (n : Slot) (s : State) : State :=
  let x := slot n s
  let pulled := !leverSafe n s
  if x.st == 0 then s
  else
    let s1 := setLever n .none (answerLever n (d1 3 ++ d1 0) (modSlot n (fun _ => SlotState.empty) s))
    if s.cel.pstate == .off then (match slotPw n with | some m => pwUnseat m s1 | none => loopOpen n s1)
    else
      let s2 := raise 0x0021 (cartData n x) s1
      let s3 := if pulled then raise 0xC014 (d1 n.val) { s2 with red.cntUnannounced := s2.red.cntUnannounced + 1 } else s2
      refreshOut1 (cartGone n pulled (appendSwap n (if pulled then 3 else 2) (cartType n x.lp2f) x.build x.serial s3))

/-! ### Views (R615 to R617) -/

/-- The two views of a unit have differed for 100 ms: the unit is down (R616), event 0xC030. -/
def viewsDiffer (u : Fin 15) (s : State) : State :=
  if s.cel.pstate == .off || s.red.differs.getLsbD u.val then s
  else
    let b : BitVec 15 := BitVec.ofNat 15 (2 ^ u.val)
    let m := mgmtView u s
    let s1 := { s with red.differs := s.red.differs ||| b, red.viewDiff := s.red.viewDiff ||| b,
                       red.dataSeen := if m then s.red.dataSeen &&& ~~~b else s.red.dataSeen ||| b }
    let s2 := raise 0xC030 (d1 u.val ++ d1 (bit m) ++ d1 (bit !m)) s1
    if h : u.val < 8 then refreshPort ⟨u.val, h⟩ (portSpanDown ⟨u.val, h⟩ s2) else s2

/-- The two views agree again (R617). -/
def viewsMeet (u : Fin 15) (s : State) : State :=
  if !s.red.differs.getLsbD u.val then s
  else raise 0xC031 (d1 u.val) { s with red.differs := s.red.differs &&& ~~~(BitVec.ofNat 15 (2 ^ u.val)) }

/-! ### Meanings -/

/-- R51. -/
def execBypassDrivePulse (lane : Lane) (s : State) : Out := .next (drivePulse lane s)
/-- R52. -/
def execBypassHoldExpiry (lane : Lane) (s : State) : Out := .next (holdOver lane s)
/-- R56. -/
def execBypassMonitorFault (lane : Lane) (bridged : Bool) (s : State) : Out := .next (monitorFault lane bridged s)
/-- R57. -/
def execCartridgeSeated (slot : Slot) (info : CartInfo) (s : State) : Out := .next (seat slot info s)
/-- R57. -/
def execCartridgeUnseated (slot : Slot) (s : State) : Out := .next (unseat slot s)
/-- R62. -/
def execStrapReread (r : StrapReading) (s : State) : Out := .next (strapRead r s)
/-- R76. -/
def execReversedBattery (pw : PwNo) (s : State) : Out := .next (reversed pw s)
/-- R611. -/
def execLeverFirstDetent (slot : Slot) (s : State) : Out := .next (firstDetent slot s)
/-- R611. -/
def execLeverPushedBack (slot : Slot) (s : State) : Out := .next (cancelPrep slot s)
/-- R611. -/
def execRedReleaseRequest (req : Req) (s : State) : Out := .next (releaseRequest req s)
/-- R611. -/
def execRedReleaseCancel (req : Req) (s : State) : Out := .next (releaseCancel req s)
/-- R612. -/
def execRemovalPrepEnd (slot : Slot) (s : State) : Out := .next (prepEnds slot s)
/-- R617. -/
def execViewDisagree (unit : Fin 15) (s : State) : Out := .next (viewsDiffer unit s)
/-- R617. -/
def execViewAgree (unit : Fin 15) (s : State) : Out := .next (viewsMeet unit s)

end Sys2Proof.Machine
end

