-- ==== Sys2Proof/Machine/ConfigSets.lean ====
section
/-! DEFINITION. Config sets (R618 to R627), profile selection (R643, R644) and firmware activation (R661 to R663): staging and its
checks, a commit at a cycle boundary, the forced order item by item, trial, commit and revert of a firmware bank. -/
namespace Sys2Proof.Machine

/-! ### What an item does when it applies (Table 16.9) -/

/-- A port that takes a role of a lane running at 100 Mbit/s is restricted like the lane's other port, or, where it is the only one, unless
the lane has been restored; a port without a lane role is not (R213). -/
def laneRestricts (n : PortNo) (s : State) : Bool :=
  match portLane n s with
  | none => false
  | some (l, e) =>
    match lanePort l (End.other e) s with
    | some m => (port m s).restricted
    | none => (match l with | .a => s.bbn.speedA == 1 && !s.bbn.restoredA | .b => s.bbn.speedB == 1 && !s.bbn.restoredB)

/-- A raw frame queued on a port; a lane port in native mode sends none (R25). -/
def dropRaw (n : PortNo) (s : State) : State :=
  if (laneNative n s).isNone then s
  else
    let gone := ((port n s).queues.toList.flatten).filter fun f => f.nat.isNone
    gone.foldl (fun t f => completeOrigin f.origin stTimeout id t)
      (modPort n (fun p => { p with queues := p.queues.map fun q => q.filter fun f => f.nat.isSome }) s)

/-- LP_CFG set: a role or speed change is a speed change (R208), and the lane left loses its span. -/
def applyPortCfg (n : PortNo) (set : State → State) (s : State) : State :=
  let old := port n s
  let left := portLane n s
  let planned := port n (set s)
  let changes := old.role != planned.role || old.speedCfg != planned.speedCfg
  let s1 := if old.role != planned.role then linkDropped n (portSpanDown n s) else s
  let set1 := fun (t : State) =>
    if old.role == planned.role then set t
    else
      let u := set t
      dropRaw n (modPort n (fun p => { p with restricted := laneRestricts n u }) u)
  let s2 := retarget changes n (set1 s1)
  let s3 := match left with | some (_, e) => refreshDist (refreshEnd e s2) | none => s2
  refreshPort n s3

/-- A CAN channel's settings: it integrates again, or stops (chapter 8). -/
def applyCan (ch : Chan) (set : State → State) (s : State) : State :=
  let s1 := set s
  let runs := s1.cel.pstate == .run || (s1.cel.pstate == .rising && decide (5 ≤ s1.cel.step))
  if canEn (can ch s1) && runs && slotReady vxSlot s1 then canStart ch s1
  else if canEn (can ch s1) then s1
  else modCan ch (fun c => { c with st := .stopped }) (canDropAll ch s1)

/-- PLC_CFG: TM_REFRESH and TM_MARGIN without a pause, every other field by detaching and attaching again (chapter 7). -/
def applyPlc (ch : Chan) (set : State → State) (s : State) : State :=
  let s1 := set s
  let diff := (plc ch s).cfg ^^^ (plc ch s1).cfg
  if diff &&& 0xF0007FFF == 0 then s1 else plcStart ch (plcDown ch s1)

/-- An item applies. -/
def applyItem (i : CfgItem) (s : State) : State :=
  let set := itemSet i.item.toNat i.target.toNat i.data
  let n := asPort i.target.toNat
  match i.item.toNat with
  | 0x01 =>
    let s1 := set s
    if (port n s1).gateEn then
      gateChange n (raise 0x3072 (d1 n.val ++ d1 (bit (port n s1).activeBuf) ++ d4 (cycleIdx s)) s1)
    else s1
  | 0x03 => shiftAll (moveUrgents (set s))
  | 0x05 => let s1 := set s; if maskedHealth s1 then out0Open s1 else s1
  | 0x14 =>
    let s1 := set s
    let other := (port n s).fcMode != (port n s1).fcMode || (port n s).pfcEn != (port n s1).pfcEn
    flowCheck n (if other then flowReset n s1 else s1)
  | 0x15 => let s1 := set s; if (port n s1).link then startVerify n s1 else s1
  | 0x18 => applyPortCfg n set s
  | 0x19 => applyCan (asChan i.target.toNat) set s
  | 0x1A => let p := asPair i.target.toNat; refreshEnd (pairEnd p) (modPair p settlePair (set s))
  | 0x1B => out1Mode (s.vx.out1Mode != (set s).vx.out1Mode) (set s)
  | 0x1C => applyPlc (asChan i.target.toNat) set s
  | 0x1F => { s with cel.cfgNext := some (itemWord i.data 0) }
  | 0x20 => { set s with slp.kaSince := s.now, slp.masterArmed := false, slp.sleepAt := none }
  | _ => set s

/-- The slot of the cartridge an item needs ready, where it needs one. -/
def itemSlot (i : CfgItem) : Option Slot :=
  match itemRow i.item.toNat with
  | some (.port, _, _) => some (portSlot (asPort i.target.toNat))
  | _ =>
    if [0x04, 0x05, 0x19, 0x1A, 0x1B].contains i.item.toNat then some vxSlot
    else if i.item == 0x1C then some pcSlot
    else none

/-- The cartridge of an item is ready (R626). -/
def itemReady (i : CfgItem) (s : State) : Bool := match itemSlot i with | some n => slotReady n s && !leverSafe n s | none => true

/-! ### Staging -/

/-- Pairs of ITEM and TARGET. -/
def itemKey (i : CfgItem) : Nat × Nat := (i.item.toNat, i.target.toNat)

/-- An item joins the set, in the place of an earlier one with its ITEM and TARGET (R620). -/
def stageItem (l : List CfgItem) (i : CfgItem) : List CfgItem :=
  if l.any fun x => itemKey x == itemKey i then l.map fun x => if itemKey x == itemKey i then i else x else l ++ [i]

/-- Bytes of a set. -/
def setBytes (l : List CfgItem) : Nat := (l.map fun i => 4 + i.data.length).sum

/-- Reason, ITEM and TARGET of a failed check (R640). -/
def failBody (f : Nat × Nat × Nat) : List Byte := d1 f.1 ++ d1 f.2.1 ++ d1 f.2.2

/-- A commit of the set runs. -/
def committing (s : State) : Bool := s.red.cfgState == .committing || s.red.cfgState == .forcing

/-- The set belongs to the other link (R618). -/
def foreignSet (r : Req) (s : State) : Bool := s.red.cfgState != .empty && s.red.cfgOwner != reqLink r.port

/-- `config_stage` (R620, R621). -/
def stageSet (r : Req) (s : State) : State :=
  authorised 0x0C10 r (fun t =>
    let bad := fun (f : Nat × Nat × Nat) => answer r 0x0C10 stMalformed (failBody f) t
    if r.body.length < 4 || !zeros r.body 2 4 then bad (0x11, 0, 0)
    else match readItems r.body.length (r.body.drop 4) with
      | none => bad (0x11, 0, 0)
      | some new =>
        if new.length ≠ leAt r.body 0 2 then bad (0x11, 0, 0)
        else match new.find? (itemBad false) with
          | some i => bad (0x11, i.item.toNat, i.target.toNat)
          | none =>
            if foreignSet r t || committing t then answer r 0x0C10 stBusy [] t
            else
            let all := new.foldl stageItem t.red.cfgItems
            match itemsBad false all t with
            | some f => bad f
            | none =>
              if 1048576 < setBytes all then bad (0x11, 0, 0)
              else if new.isEmpty then answer r 0x0C10 stOk [] t
              else
                raise 0xC020 (d2 all.length) (answer r 0x0C10 stOk []
                  { loadStaged new t with red.cfgState := .staged, red.cfgOwner := reqLink r.port, red.cfgItems := all, red.cfgNext := 0 })) s

/-- `config_discard` (R618). -/
def discardReq (r : Req) (s : State) : State :=
  authorised 0x0C12 r (fun t =>
    if !r.body.isEmpty then malformed r 0x0C12 t
    else if foreignSet r t || committing t then answer r 0x0C12 stBusy [] t
    else discardSet (reqLink r.port) 0 (answer r 0x0C12 stOk [] t)) s

/-! ### Commit -/

/-- The cycle of a commit body: AT = 0 the earliest, AT = 1 the one CYCLE names in serial arithmetic (R622). -/
def commitCycle (b : List Byte) (s : State) : Option Nat :=
  let c := leAt b 4 4
  let cur := cycleIdx s
  if bitOf (byteAt b 0) 1 then
    let d := (c + 2 ^ 32 - cur % 2 ^ 32) % 2 ^ 32
    if inRange 4 (2 ^ 31 - 1) d then some (cur + d) else none
  else if c = 0 then some (cur + 4) else none

/-- Ports with a staged gate list show the switch that waits (Table 6.8). -/
def gatesWait (cycle : Nat) (l : List CfgItem) (s : State) : State :=
  l.foldl (fun t i =>
    if i.item == 0x01 then modPort (asPort i.target.toNat) (fun p => { p with gatePending := true, gateSwitch := word cycle }) t
    else t) s

/-- The set's items in the order of Table 16.10 by the roles in force, the profile-only items last (R643). -/
def forcedOrder (l : List CfgItem) (s : State) : List CfgItem :=
  let ports := fun (lane : Option Lane) =>
    (List.finRange 8).filter fun n => (portLane n s).map (·.1) == lane
  let portItems := fun (ns : List PortNo) =>
    ns.flatMap fun n => (List.range 7).map fun k => (0x12 + k, n.val)
  let keys : List (Nat × Nat) :=
    [(0x10, 0xFF), (0x11, 0xFF)] ++ portItems (ports none) ++ portItems (ports (some .a)) ++ portItems (ports (some .b))
    ++ [(0x19, 0), (0x19, 1), (0x1A, 0), (0x1A, 1), (0x1A, 2), (0x1A, 3), (0x1B, 0xFF), (0x1C, 0), (0x1C, 1)]
    ++ [(0x1D, 0xFF), (0x1E, 0xFF), (0x1F, 0xFF), (0x20, 0xFF), (0x21, 0xFF), (0x31, 0xFF), (0x30, 0xFF)]
  l.filter swappable ++ keys.filterMap fun k => l.find? fun i => itemKey i == k

/-- The number of swappable items at the head of a forced set. -/
def groupOne (l : List CfgItem) : Nat := (l.takeWhile swappable).length

/-- An item stands behind the wait for lane A of Table 16.10, by the roles in force. -/
def afterLaneA (i : CfgItem) (s : State) : Bool :=
  let n := i.item.toNat
  if 0x12 ≤ n && n ≤ 0x18 then (portLane (asPort i.target.toNat) s).map (·.1) == some .b else 0x19 ≤ n

/-- Place of the first such item of a forced set, its length where there is none. -/
def laneWaitAt (l : List CfgItem) (s : State) : Nat := (l.takeWhile fun i => !afterLaneA i s).length

/-- `config_commit` (R622 to R624); `force` is the row's FORCE bit. -/
def commitSet (force : Bool) (r : Req) (s : State) : State :=
  authorised 0x0C11 r (fun t =>
    let b0 := byteAt r.body 0
    if r.body.length ≠ 8 || 4 ≤ b0 || !zeros r.body 1 4 then malformed r 0x0C11 t
    else match commitCycle r.body t with
      | none => malformed r 0x0C11 t
      | some cycle =>
        let l := t.red.cfgItems
        let fixed := l.filter fun i => !swappable i
        if foreignSet r t || committing t then answer r 0x0C11 stBusy [] t
        else if t.red.cfgState == .empty then answer r 0x0C11 stOk [] t
        else if !force && !fixed.isEmpty then
          raise 0xC023 (d2 fixed.length) (answer r 0x0C11 stNotSwappable
            (d2 fixed.length ++ fixed.flatMap fun i => [i.item, i.target]) t)
        else
          gatesWait cycle l
            { t with red.cfgState := if force then .forcing else .committing, red.cfgCycle := cycle, red.cfgReq := some (r.port, r.tag),
                     red.cfgItems := if force then forcedOrder l t else l, red.cfgNext := 0, red.cfgStatuses := [], red.itemAt := none,
                     red.orderWait := none, red.cfgIsProfile := none, red.cfgWaitAt := laneWaitAt (forcedOrder l t) t }) s

/-! ### At the boundary -/

/-- The set has been applied: it is empty and belongs to no link. -/
def setDone (s : State) : State :=
  { s with red.cfgState := .empty, red.cfgItems := [], red.cfgNext := 0, red.cfgReq := none, red.cfgStatuses := [], red.itemAt := none,
           red.orderWait := none, red.cfgIsProfile := none }

/-- The opcode the responses of a forced set carry. -/
def setOpcode (s : State) : Half := if s.red.cfgIsProfile.isSome then 0x0D01 else 0x0C11

/-- One part of a forced commit's response, and event 0xC022 (R626). -/
def partDone (i : CfgItem) (status : Nat) (s : State) : State :=
  let s1 := raise 0xC022 ([i.item, i.target] ++ d1 status)
    { s with red.cfgStatuses := s.red.cfgStatuses ++ [BitVec.ofNat 8 status], red.cfgNext := s.red.cfgNext + 1, red.itemAt := none }
  match s.red.cfgReq with
  | some (p, tag) =>
    respondPart p tag (setOpcode s) stOk true
      ([i.item, i.target] ++ d1 status ++ [0] ++ d8 (if status = stOk then ttime s else 0)) s1
  | none => s1

/-- The last part: OK, or the first other status; a selection that is not whole sets PARTIAL (R626, R644). -/
def endForced (s : State) : State :=
  let st := ((s.red.cfgStatuses.find? fun b => b != 0).getD 0).toNat
  let s1 := match s.red.cfgReq with
    | some (p, tag) => respond p tag (setOpcode s) st [] s
    | none => s
  let s2 := if s1.red.cfgIsProfile.isSome then { s1 with ids.partialSel := st != stOk } else s1
  setDone s2

/-- What an item's quiesce needs before it starts (Table 16.9): TC_PCP holds the fetch of every Send ring for one cycle. -/
def quiesce (i : CfgItem) (s : State) : State :=
  let s1 := { s with red.itemAt := some s.now }
  if i.item == 0x10 then { s1 with tc.fetchHold := some (s.now + cycleNs s) } else s1

/-- A wait of Table 16.10 stands before item `k`: 0 for lane A, 1 for PL0. -/
def waitBefore (k : Nat) (s : State) : Option Nat :=
  match s.red.cfgItems[k]? with
  | none => none
  | some i =>
    if k = s.red.cfgWaitAt && decide (2 ≤ s.rlv.poly.length) && !spansUp .a s then some 0
    else if itemKey i == (0x1C, 1) && (plc 0 s).att != .associated then some 1
    else none

/-- The next items start: one whose cartridge is not ready ends BUSY, a wait stops the sequence, the last one ends it. -/
def startItems (waited : Bool) : Nat → State → State
  | 0, s => s
  | fuel + 1, s =>
    match s.red.cfgItems[s.red.cfgNext]? with
    | none => endForced s
    | some i =>
      match waited, waitBefore s.red.cfgNext s with
      | false, some k => { s with red.orderWait := some (k, s.now + sec 10) }
      | _, _ =>
        let s1 := { s with red.orderWait := none }
        if itemReady i s1 then quiesce i s1
        else startItems false fuel (partDone i stBusy s1)

/-- The sequence goes on. -/
def goOnItems (waited : Bool) (s : State) : State := startItems waited (s.red.cfgItems.length + 1) s

/-- Items that applied together have changed BGT_CFG: the caps are evaluated with the new values at the same boundary (R556). -/
def groupApplied (l : List CfgItem) (s : State) : State := if l.any (·.item == 0x07) then evaluate s else s

/-- The swappable items of a forced set apply together (order 1 of Table 16.10). -/
def applyGroupOne (s : State) : State :=
  let l := s.red.cfgItems.take (groupOne s.red.cfgItems)
  groupApplied l (l.foldl (fun t i => if itemReady i t then partDone i stOk (applyItem i t) else partDone i stBusy t) s)

/-- CONFIG_SET_APPLY (R623, R625): it waits while a remote-window lock is held (R477), which then moves its cycle (R478, `setAfterLock`). -/
def setApply (s : State) : State :=
  let begun := s.red.itemAt.isSome || s.red.orderWait.isSome || s.red.cfgNext != 0
  if !committing s || begun || decide (cycleIdx s < s.red.cfgCycle) then s
  else if s.rrw.locked then s
  else
    let at_ := s.red.cfgCycle
    if s.red.cfgState == .forcing then goOnItems false (applyGroupOne s)
    else
      let s1 := groupApplied s.red.cfgItems (s.red.cfgItems.foldl (fun t i => applyItem i t) s)
      let s2 := match s1.red.cfgReq with
        | some (p, tag) => respond p tag 0x0C11 stOk (d4 at_) s1
        | none => s1
      setDone (raise 0xC021 (d4 at_) s2)

/-! ### Item by item -/

/-- The quiesce of an item has finished: nothing of its port is on the wire, its channel has drained, its fetch hold is over. -/
def quiet (i : CfgItem) (s : State) : Bool :=
  let n := i.item.toNat
  if 0x12 ≤ n && n ≤ 0x18 then
    let p := port (asPort i.target.toNat) s
    !p.link || (p.sending.isNone && p.part.isNone)
  else if n = 0x19 then (can (asChan i.target.toNat) s).bufs.toList.all fun b => b.isNone
  else if n = 0x10 then !s.tc.fetchHold.isSome || due s.tc.fetchHold s
  else true

/-- A wait of Table 16.10 has what it waits for. -/
def waitMet (s : State) : Bool :=
  match s.red.orderWait with
  | some (0, _) => decide (s.rlv.poly.length < 2) || spansUp .a s
  | some (_, _) => (plc 0 s).att == .associated
  | none => false

/-- FORCED_ITEM_APPLY (R625, R626); no item applies while a remote-window lock is held (R477). -/
def itemApplies (s0 : State) : State :=
  if s0.red.cfgState != .forcing || s0.rrw.locked then s0
  else if waitMet s0 then goOnItems true s0
  else match s0.red.itemAt, s0.red.cfgItems[s0.red.cfgNext]? with
    | some _, some i =>
      let s := retireAll s0
      if !itemReady i s then goOnItems false (partDone i stBusy s)
      else if !quiet i s then s
      else goOnItems false (partDone i stOk (applyItem i { s with red.itemAt := none, tc.fetchHold := none }))
    | _, _ => s0

/-- FORCED_ITEM_TIMEOUT (R626). -/
def itemTimeout (s : State) : State :=
  match s.red.cfgState, s.red.itemAt, s.red.cfgItems[s.red.cfgNext]? with
  | .forcing, some t, some i => if t + sec 10 ≤ s.now then goOnItems false (partDone i stTimeout s) else s
  | _, _, _ => s

/-- FORCED_ORDER_WAIT_EXPIRY (R625). -/
def waitExpires (s : State) : State :=
  match s.red.orderWait with
  | some (_, t) => if s.red.cfgState == .forcing && decide (t ≤ s.now) then goOnItems true s else s
  | none => s

/-! ### Profile selection -/

/-- HIF_H2_BASE a profile gives. -/
def profileBase (p : Profile) : Nat := fieldOf (itemWord (profileData p 0x30 0xFF) 0) 0 11

/-- A ring of a CQP that would change owner is not STOPPED (R643). -/
def basesMove (base : Nat) (s : State) : Bool :=
  (liveCqps s).any fun c =>
    let x := ctx (ownerOf c s) c s
    c != 0 && (decide (c < base) != decide (c < s.hif.h2Base)) && !(x.txState == .stopped && x.rxState == .stopped)

/-- `profile_select` (R643). -/
def selectProfile (r : Req) (s : State) : State :=
  authorised 0x0D01 r (fun t =>
    let n := byteAt r.body 0
    if r.body.length ≠ 4 || 3 < n || !zeros r.body 1 4 then malformed r 0x0D01 t
    else if t.sys.plock then refuse r 0x0D01 0x02 0xD003 t
    else if committing t then busy r 0x0D01 0x20 t
    else match readProfile n t with
      | .inr f => answer r 0x0D01 stMalformed (failBody f) t
      | .inl p =>
        if basesMove (profileBase p) t then busy r 0x0D01 0x21 t
        else
          let link := t.red.cfgOwner
          let t1 := discardSet link 1 t
          let l := differing p t1
          let t2 := { t1 with
            ids.selCmd := true, ids.activeProf := BitVec.ofNat 2 n, ids.digest := p.digest, ids.serial := p.serial, ids.profFault := false,
            red.cfgState := .forcing, red.cfgOwner := reqLink r.port, red.cfgItems := forcedOrder l t1, red.cfgNext := 0,
            red.cfgCycle := cycleIdx t1 + 4, red.cfgReq := some (r.port, r.tag), red.cfgStatuses := [], red.itemAt := none,
            red.orderWait := none, red.cfgIsProfile := some (BitVec.ofNat 2 n),
            red.cfgWaitAt := laneWaitAt (forcedOrder l t1) t1 }
          gatesWait t2.red.cfgCycle l <| loadStaged l (raise 0xD012 (d1 n ++ d1 (portCode r.port)) t2)) s

/-! ### Firmware activation -/

/-- A CT-8 restarts for `fw_activate` (R662). -/
def restartCt (c : Ct) (s0 : State) : State :=
  let s := breakFw c s0
  let boot := fun (t : State) => modFw c (fun f => { f with running := bootBank f }) t
  if c != activeCt s then
    let out := if s.red.pair == .duplex || s.red.pair == .joining then refreshOut1 (endPair s) else s
    let again := boot out
    if controls again then restartOther again else modSlot (ctSlot c) (fun x => { x with st := 1 }) again
  else if s.red.pair == .duplex then (if s.red.toStep = 0 then planSwitch none s else s)
  else match s.cel.pstate with
    | .off => boot s
    | .cellar => boot s
    | _ => noController (boot (pauseAlone s))

/-- `fw_activate` (R661): the body check, then the action on a seated CT-8. -/
def activate (act : Req → Ct → State → State) (r : Req) (s : State) : State :=
  authorised 0x0D23 r (fun t =>
    match ctOfSlot (byteAt r.body 0) with
    | none => malformed r 0x0D23 t
    | some c =>
      if r.body.length ≠ 3 || !zeros r.body 1 3 then malformed r 0x0D23 t
      else if (slot (ctSlot c) t).st == 0 then answer r 0x0D23 stBusy [] t
      else act r c t) s

/-- TRIAL: the other bank on trial. -/
def trialAct (r : Req) (c : Ct) (s : State) : State :=
  let f := fwOf c s
  let other := !f.running
  let valid := if other then f.valid1 else f.valid0
  if !valid || f.op.isSome then answer r 0x0D23 stMalformed (d1 0x26) s
  else
    let s1 := answer r 0x0D23 stOk [] (modFw c (fun x => { x with trial := some other, failedStarts := 0, reverted := false }) s)
    restartCt c (raise 0xD031 (d1 (ctSlot c).val ++ d1 (bit other)) s1)

/-- COMMIT: the trial bank that runs is committed. -/
def commitAct (r : Req) (c : Ct) (s : State) : State :=
  let f := fwOf c s
  let inService := c == activeCt s || s.red.pair == .duplex
  if f.trial != some f.running || !inService then busy r 0x0D23 0x27 s
  else
    raise 0xD032 (d1 (ctSlot c).val ++ d1 (bit f.running))
      (answer r 0x0D23 stOk [] (modFw c (fun x => { x with committed := x.running, trial := none }) s))

/-- The rollback bank of a trial: the bank that ran when the trial was ordered, the other of the two (R661). -/
def rollbackBank (f : FwState) : Bool := match f.trial with | some b => !b | none => f.committed

/-- REVERT: the trial ends, the rollback bank runs again. -/
def revertAct (r : Req) (c : Ct) (s : State) : State :=
  if (fwOf c s).trial.isNone then busy r 0x0D23 0x27 s
  else
    let s1 := answer r 0x0D23 stOk [] (modFw c (fun x => { x with trial := none, committed := rollbackBank x, failedStarts := 0 }) s)
    restartCt c (raise 0xD033 (d1 (ctSlot c).val ++ d1 0) s1)

/-- A trial bank marked invalid. -/
def spoilTrial (f : FwState) : FwState :=
  match f.trial with
  | some b => if b then { f with valid1 := false } else { f with valid0 := false }
  | none => f

/-- TRIAL_START_FAIL (R663). -/
def trialFails (c : Ct) (s : State) : State :=
  let f := fwOf c s
  let starting := if c == activeCt s then s.cel.pstate == .rising else s.red.joinStep != 0
  if f.trial.isNone || f.trial != some f.running || !starting then s
  else
    let again := fun (t : State) =>
      if c == activeCt t then noController t
      else { t with red.joinStep := 1, red.pair := .joining }
    if f.failedStarts + 1 < 3 then again (modFw c (fun x => { x with failedStarts := x.failedStarts + 1 }) s)
    else
      let g := { spoilTrial f with failedStarts := 0, trial := none, running := rollbackBank f, committed := rollbackBank f, reverted := true }
      again (raise 0xD033 (d1 (ctSlot c).val ++ d1 1) (modFw c (fun _ => g) s))

/-! ### Meanings -/

/-- R620. -/
def execConfigStage (req : Req) (s : State) : Out := .next (stageSet req s)
/-- R622. -/
def execConfigCommit (req : Req) (s : State) : Out := .next (commitSet false req s)
/-- R625. -/
def execConfigCommitForce (req : Req) (s : State) : Out := .next (commitSet true req s)
/-- R618. -/
def execConfigDiscard (req : Req) (s : State) : Out := .next (discardReq req s)
/-- R623. -/
def execConfigSetApply (s : State) : Out := .next (setApply s)
/-- R625. -/
def execForcedItemApply (s : State) : Out := .next (itemApplies s)
/-- R626. -/
def execForcedItemTimeout (s : State) : Out := .next (itemTimeout s)
/-- R625. -/
def execForcedOrderWaitExpiry (s : State) : Out := .next (waitExpires s)
/-- R643. -/
def execProfileSelect (req : Req) (s : State) : Out := .next (selectProfile req s)
/-- R661. -/
def execFwActivateTrial (req : Req) (s : State) : Out := .next (activate trialAct req s)
/-- R661. -/
def execFwActivateCommit (req : Req) (s : State) : Out := .next (activate commitAct req s)
/-- R661. -/
def execFwActivateRevert (req : Req) (s : State) : Out := .next (activate revertAct req s)
/-- R663. -/
def execTrialStartFail (ct : Ct) (s : State) : Out := .next (trialFails ct s)

end Sys2Proof.Machine
end

