-- ==== Sys2Proof/Machine/Rrw.lean ====
section
/-! DEFINITION. The remote register window (chapter 11): wire format, the requester's checks and timeouts, responses, what a far node
executes, its lock and lease. -/
namespace Sys2Proof.Machine

/-! ### Wire format (Table 11.5) -/

/-- A remote-window payload. -/
structure RrwMsg where
  version : Nat
  type : Nat
  reserved : Bool
  reqId : Half
  lockId : Half
  region : Nat
  count : Nat
  offset : Nat
  status : Nat
  reason : Nat
  lease : Nat
  body : List Byte
  deriving DecidableEq, Repr

/-- The remote window's flow label (R461). -/
def rrwLabel : BitVec 12 := 0x0A0

/-- A payload on the wire. -/
def encodeRrw (m : RrwMsg) : List Byte :=
  toBE 1 (m.version * 16 + m.type) ++ [0] ++ toBE 2 m.reqId.toNat ++ toBE 2 m.lockId.toNat ++ toBE 1 m.region ++ toBE 1 m.count
  ++ toBE 2 m.offset ++ toBE 1 m.status ++ toBE 1 m.reason ++ toBE 1 m.lease ++ [0, 0, 0] ++ m.body

/-- A payload whose header can be read (R467); `reserved` tells that its reserved bytes are 0. -/
def decodeRrw (b : List Byte) : Option RrwMsg :=
  if b.length < 16 then none
  else some { version := byteAt b 0 / 16, type := byteAt b 0 % 16, reserved := byteAt b 1 = 0 && zeros b 13 16,
              reqId := BitVec.ofNat 16 (beAt b 2 2), lockId := BitVec.ofNat 16 (beAt b 4 2), region := byteAt b 6, count := byteAt b 7,
              offset := beAt b 8 2, status := byteAt b 10, reason := byteAt b 11, lease := byteAt b 12, body := b.drop 16 }

/-- Entries of a write: OFFSET and VALUE; none where a reserved field is not 0. -/
def rrwEntries : Nat → List Byte → Option (List (Nat × Word))
  | 0, b => if b.isEmpty then some [] else none
  | n + 1, b =>
    if b.length < 8 || !zeros b 2 4 then none
    else (rrwEntries n (b.drop 8)).map ((beAt b 0 2, word (beAt b 4 4)) :: ·)

/-- A read request's words lie in its region. -/
def readFits (off n : Nat) : Bool := off % 4 == 0 && inRange 1 128 n && decide (off + 4 * n ≤ 0x10000)
/-- A write request's entries have whole offsets. -/
def writeFits (l : List (Nat × Word)) : Bool := inRange 1 64 l.length && l.all fun e => e.1 % 4 == 0

/-- A request's fields are as Tables 11.3 and 11.5 give them (R467). -/
def rrwWellFormed (m : RrwMsg) : Bool :=
  m.version == 1 && m.reserved && m.status == 0 && m.reason == 0 &&
  (match m.type with
   | 1 => m.lease == 0 && decide (m.region < 16) && readFits m.offset m.count && m.body.isEmpty
   | 2 => m.lease == 0 && decide (m.region < 16) && m.offset == 0
       && (match rrwEntries m.count m.body with | some l => writeFits l | none => false)
   | 3 => m.region == 0 && m.count == 0 && m.offset == 0 && inRange 10 100 m.lease && m.body.isEmpty
   | 4 => m.region == 0 && m.count == 0 && m.offset == 0 && m.lease == 0 && m.body.isEmpty && m.lockId != 0
   | _ => false)

/-! ### Requester -/

/-- The host response body of R468: REASON, then what the message gives. -/
def rrwBody (reason : Nat) (rest : List Byte) : List Byte := d1 reason ++ [0, 0, 0] ++ rest

/-- A request completed at the requester. -/
def rrwAnswer (p : MgmtPort) (tag op : Half) (status reason : Nat) (rest : List Byte) (s : State) : State :=
  respond p tag op status (rrwBody reason rest) s

/-- The open requests as requester, without one. -/
def closeOpen (id : Half) (s : State) : State := { s with rrw.open_ := s.rrw.open_.filter fun o => o.reqId != id }

/-- A request leaves for the far node (R461, R469). -/
def rrwSend (r : Req) (op : Half) (far : Key) (timeout : Nat) (m : RrwMsg) (s : State) : State :=
  let id := s.rrw.nextReqId
  let t := if timeout = 0 then s.rrw.defTimeout.toNat else timeout
  let s1 := { s with rrw.nextReqId := id + 1, rrw.cntSent := s.rrw.cntSent + 1,
                     rrw.open_ := s.rrw.open_ ++ [⟨id, r.port, r.tag, op, far, s.now + ms t⟩] }
  sendFlowNode rrwLabel far (encodeRrw { m with reqId := id }) s1

/-- Table 11.3 as bytes: what the four messages share. -/
structure RrwHost where
  far : Key
  timeout : Nat
  region : Nat
  count : Nat
  offset : Nat
  lease : Nat
  lockId : Half
  deriving DecidableEq, Repr

/-- The 16 bytes of a host request. -/
def rrwHost (b : List Byte) : RrwHost :=
  { far := mkKey (leAt b 0 6), timeout := leAt b 6 2, region := byteAt b 8, count := byteAt b 9, offset := leAt b 10 2,
    lease := byteAt b 12, lockId := BitVec.ofNat 16 (leAt b 14 2) }

/-- Entries of a host's `rrw_write`. -/
def hostEntries : Nat → List Byte → Option (List (Nat × Word))
  | 0, b => if b.isEmpty then some [] else none
  | n + 1, b =>
    if b.length < 8 || !zeros b 2 4 then none
    else (hostEntries n (b.drop 8)).map ((leAt b 0 2, word (leAt b 4 4)) :: ·)

/-- Entries on the wire. -/
def wireEntries (l : List (Nat × Word)) : List Byte := l.flatMap fun e => toBE 2 e.1 ++ [0, 0] ++ toBE 4 e.2.toNat

/-- The request a host body stands for, or none where R460 makes it malformed. -/
def rrwRequestOf (type : Nat) (b : List Byte) (s : State) : Option RrwMsg :=
  let h := rrwHost b
  let m : RrwMsg := { version := 1, type := type, reserved := true, reqId := 0, lockId := h.lockId, region := h.region, count := h.count,
                      offset := h.offset, status := 0, reason := 0, lease := h.lease, body := [] }
  let entries := hostEntries h.count (b.drop 16)
  let m' : RrwMsg := { m with body := if type = 2 then (match entries with | some l => wireEntries l | none => []) else b.drop 16 }
  let bodyOk := type ≠ 2 || entries.isSome
  if 16 ≤ b.length && byteAt b 13 = 0 && h.timeout ≤ 2000 && h.far != vkey s && bodyOk && rrwWellFormed m' then some m' else none

/-- The checks of a request at its requester (R457, R460), then its sending. -/
def rrwRequest (op : Half) (type : Nat) (r : Req) (s : State) : State :=
  authorised op r (fun t =>
    match rrwRequestOf type r.body t with
    | none => rrwAnswer r.port r.tag op stMalformed 0 [] t
    | some m =>
      let h := rrwHost r.body
      if m.region = 15 then makerAttempt (portCode r.port) op.toNat (rrwAnswer r.port r.tag op stAuthority 1 [] t)
      else match ordOf h.far t with
        | none => rrwAnswer r.port r.tag op stNoRoute 0 [] t
        | some o =>
          if beyondForeign o t then rrwAnswer r.port r.tag op stNoRoute 0 [] t
          else rrwSend r op h.far h.timeout m t) s

/-- A request past its timeout completes TIMEOUT (R469). -/
def rrwLate (id : Half) (s : State) : State :=
  match s.rrw.open_.find? fun o => o.reqId == id with
  | some o =>
    if o.deadline ≤ s.now then
      raise 0xA001 (d6 o.far ++ d2 o.reqId.toNat)
        (rrwAnswer o.port o.tag o.opcode stTimeout 0 [] (closeOpen id { s with rrw.cntTimeout := s.rrw.cntTimeout + 1 }))
    else s
  | none => s

/-- A response that matches no open request (R471). -/
def lateResponse (src : Key) (m : RrwMsg) (s : State) : State :=
  let s1 := { s with rrw.cntLateRsp := s.rrw.cntLateRsp + 1 }
  if m.status = stOk then s1
  else raise 0xA002 (d6 src ++ d2 m.reqId.toNat ++ d1 m.status ++ d1 m.reason) { s1 with rrw.cntLateErr := s1.rrw.cntLateErr + 1 }

/-- Words of a read response as the host reads them. -/
def hostWords : Nat → List Byte → List Byte
  | 0, _ => []
  | n + 1, b => toLE 4 (beAt b 0 4) ++ hostWords n (b.drop 4)

/-- A response arrives (R470, R471). -/
def rrwResponse (src : Key) (m : RrwMsg) (s0 : State) : State :=
  let s := rrwLate m.reqId s0
  match s.rrw.open_.find? fun o => o.reqId == m.reqId && o.far == src with
  | some o =>
    let rest :=
      if m.status ≠ stOk then []
      else if m.type = 9 then hostWords m.count m.body
      else if m.type = 11 then toLE 2 m.lockId.toNat ++ [0, 0]
      else []
    rrwAnswer o.port o.tag o.opcode m.status m.reason rest (closeOpen m.reqId s)
  | none => lateResponse src m s

/-! ### Far node -/

/-- The far node answers a request (R461, R472): REMOTE_ERROR and BUSY are counted and recorded. -/
def farAnswer (src : Key) (m : RrwMsg) (status reason : Nat) (lockId : Half) (words : List Byte) (s : State) : State :=
  let back : RrwMsg := { m with version := 1, type := m.type + 8, status := status, reason := reason, lease := 0, lockId := lockId,
                                body := words }
  let s1 := sendFlowNode rrwLabel src (encodeRrw back) s
  if status = stRemoteError || status = stBusy then
    raise 0xA010 (d6 src ++ d2 m.reqId.toNat ++ d1 status ++ d1 reason) { s1 with rrw.cntRefused := s1.rrw.cntRefused + 1 }
  else s1

/-- A request refused. -/
def farRefuse (src : Key) (m : RrwMsg) (status reason : Nat) (s : State) : State := farAnswer src m status reason m.lockId [] s

/-- BAR0 offsets a request names. -/
def rrwOffsets (m : RrwMsg) : List Nat :=
  if m.type = 1 then (List.range m.count).map fun k => m.region * 0x10000 + m.offset + 4 * k
  else ((rrwEntries m.count m.body).getD []).map fun e => m.region * 0x10000 + e.1

/-- Registers that no remote write reaches (Table 11.4). -/
def protectedAt (a : Nat) : Bool :=
  (decide (0x1000 ≤ a) && decide (a < 0x3000)) || (decide (0x6114 ≤ a) && decide (a < 0x6120))
  || (decide (0x6214 ≤ a) && decide (a < 0x6220)) || (decide (0xF000 ≤ a) && decide (a < 0x10000))

/-- Why the registers of a request are refused (R463): status and reason. -/
def farRange (m : RrwMsg) : Option (Nat × Nat) :=
  if m.region = 15 then some (stAuthority, 0)
  else if 4 ≤ m.region then some (stRemoteError, 2)
  else if m.type = 2 && (m.region = 1 || m.region = 2 || (rrwOffsets m).any protectedAt) then some (stRemoteError, 3)
  else none

/-- The request carries the current lock of its sender. -/
def holdsLock (src : Key) (m : RrwMsg) (s : State) : Bool := s.rrw.locked && s.rrw.lockId == m.lockId && s.rrw.lockKey == src

/-- The lease as a renewal with a length would have it stays within 100 ms of the grant (R476). -/
def mayRenew (len : Ns) (s : State) : Bool := decide (s.now + len ≤ s.rrw.grantAt + ms 100)

/-- The lease runs from now. -/
def renewed (len : Ns) (s : State) : State := { s with rrw.leaseLen := len, rrw.leaseEnd := s.now + len }

/-- A request executed and answered OK. -/
def farDone (src : Key) (m : RrwMsg) (lockId : Half) (words : List Byte) (s : State) : State :=
  farAnswer src m stOk 0 lockId words { s with rrw.cntServed := s.rrw.cntServed + 1 }

/-- A read or a write executes: all its words at one moment (R462). -/
def farAccess (src : Key) (m : RrwMsg) (s : State) : State :=
  let ep := activeEp .h1 s
  if m.type = 1 then
    farDone src m m.lockId ((rrwOffsets m).flatMap fun a => toBE 4 (readWord ep a s).toNat) s
  else
    let l := (rrwEntries m.count m.body).getD []
    farDone src m m.lockId [] (l.foldl (fun t e => regWrite .h1 (m.region * 0x10000 + e.1) none e.2 t) s)

/-- A lock granted: the next LOCK_ID, 0 skipped (R474). -/
def grantLock (src : Key) (m : RrwMsg) (s : State) : State :=
  let id := if s.rrw.lockId + 1 == 0 then 1 else s.rrw.lockId + 1
  let s1 := renewed (us (100 * m.lease)) { s with rrw.locked := true, rrw.lockId := id, rrw.lockKey := src, rrw.grantAt := s.now }
  farDone src m id [] (raise 0xA020 (d6 src ++ d2 id.toNat) s1)

/-- The lock ends by its holder (R480). -/
def unlock (src : Key) (m : RrwMsg) (s : State) : State :=
  farDone src m m.lockId []
    (raise 0xA021 (d6 src ++ d2 m.lockId.toNat) (applyHeld s.rrw.held { s with rrw.locked := false }))

/-- What a well-formed request does at a far node that executes requests (R474 to R477, R480). -/
def farExecute (viaPlc : Bool) (src : Key) (m : RrwMsg) (s : State) : State :=
  let mine := holdsLock src m s
  if m.lockId != 0 && !mine then farRefuse src m stRemoteError 4 s
  else if m.type = 4 then unlock src m s
  else if m.type = 3 then
    if mine then
      if mayRenew (us (100 * m.lease)) s then farDone src m m.lockId [] (renewed (us (100 * m.lease)) s)
      else farRefuse src m stRemoteError 5 s
    else if s.rrw.locked then farRefuse src m stBusy 0x10 s
    else if viaPlc then farRefuse src m stNoRoute 0x12 s
    else grantLock src m s
  else match farRange m with
    | some (st, reason) => farRefuse src m st reason s
    | none =>
      if mine then
        if mayRenew s.rrw.leaseLen s then farAccess src m (renewed s.rrw.leaseLen s) else farRefuse src m stRemoteError 5 s
      else if s.rrw.locked && m.type = 2 then farRefuse src m stBusy 0x10 s
      else farAccess src m s

/-- The lease runs out (R481). -/
def leaseEnds (s : State) : State :=
  if s.rrw.locked && decide (s.rrw.leaseEnd ≤ s.now) then
    raise 0xA022 (lockData s)
      (applyHeld s.rrw.held { s with rrw.locked := false, rrw.broken := true, rrw.cntBroken := s.rrw.cntBroken + 1 })
  else s

/-- A request arrives at its far node: a lease that has run out ends first (R481), LOCK_BROKEN once (R482), BUSY beyond sixteen requests in
service (R464), then the checks of R467, R458 and R465. -/
def farRequest (viaPlc : Bool) (src : Key) (m : RrwMsg) (s0 : State) : State :=
  let s := leaseEnds s0
  if s.rrw.broken then
    raise 0xA023 (d6 s.rrw.lockKey ++ d2 s.rrw.lockId.toNat) (farRefuse src m stLockBroken 0 { s with rrw.broken := false })
  else if 16 ≤ rrwServing s then farRefuse src m stBusy 0x11 s
  else if !rrwWellFormed m then farRefuse src m stRemoteError 7 s
  else if !s.rrw.accept then farRefuse src m stRemoteError 1 s
  else if s.cel.pstate != .run then farRefuse src m stRemoteError 6 s
  else farExecute viaPlc src m s

/-- A remote-window payload arrives from a vertex. -/
def rrwIn (viaPlc : Bool) (src : Key) (b : List Byte) (s : State) : State :=
  match decodeRrw b with
  | none => s
  | some m =>
    if 9 ≤ m.type && m.type ≤ 12 && m.version = 1 then rrwResponse src m s
    else if m.type < 8 then farRequest viaPlc src m s
    else s

/-! ### Meanings -/

/-- R459. -/
def execRrwRead (req : Req) (s : State) : Out := .next (preemptAll (rrwRequest 0x0A01 1 req s))
/-- R459. -/
def execRrwWrite (req : Req) (s : State) : Out := .next (preemptAll (rrwRequest 0x0A02 2 req s))
/-- R474. -/
def execRrwLock (req : Req) (s : State) : Out := .next (preemptAll (rrwRequest 0x0A03 3 req s))
/-- R480. -/
def execRrwUnlock (req : Req) (s : State) : Out := .next (preemptAll (rrwRequest 0x0A04 4 req s))
/-- R469. -/
def execRrwTimeout (reqId : Half) (s : State) : Out := .next (rrwLate reqId s)
/-- R481. -/
def execLeaseExpiry (s : State) : Out := .next (leaseEnds s)

end Sys2Proof.Machine
end

