-- ==== Sys2Proof/Machine/Deliver.lean ====
section
/-! DEFINITION. Frames received (R153, R201, R220, R226, R275, R451): admission of what must be stored, the flow rules at the
receiver, delivery to clients and to the node itself, forwarding over the lanes, the classification of Table 5.3, reassembly. -/
namespace Sys2Proof.Machine

/-! ### Admission of arriving frames -/

/-- An arriving frame dropped at a port: its counters, event 0x9003 at most once per second and port (R451). -/
def dropArrival (n : PortNo) (s : State) : State :=
  let s1 := bump n 0x46C { s with arb.cntTransit := s.arb.cntTransit + 1 }
  raiseSpaced (port n s1).admitEvAt (sec 1) (fun t => modPort n (fun p => { p with admitEvAt := some t.now }) t) 0x9003 (d1 n.val) s1

/-- A frame dropped wherever it arrived; over the power line no port counts it. -/
def dropAt (n : Option PortNo) (s : State) : State :=
  match n with
  | some x => dropArrival x s
  | none => { s with arb.cntTransit := s.arb.cntTransit + 1 }

/-- L4 drops arriving S, B and raw frames before any check (R560). -/
def shedArrival (n : Option PortNo) (s : State) : State :=
  let s1 := { s with bgt.cntShed := s.bgt.cntShed + 1 }
  match n with
  | some x => bump x 0x46C s1
  | none => s1

/-- Check 1 of R451: the port's ingress quota, for S, B and raw frames. -/
def overQuota (n : Option PortNo) (cls : BitVec 2) (raw : Bool) (len : Nat) (s : State) : Bool :=
  match n with
  | some x => (raw || decide (2 ≤ cls.toNat)) && decide ((port x s).inQuota.toNat * 4096 < inUse x s + units64 len)
  | none => false

/-- Check 2 of R451: neither its own pool nor the shared one has room; class U always has (R444), class B and raw frames use the shared
pool only. -/
def noPool (own : Nat) (len : Nat) (s : State) : Bool :=
  match own with
  | 0 => false
  | 3 => !poolFits 3 len s
  | k => !poolFits k len s && !poolFits 3 len s

/-- Check 3 of R451: a client's Receive quota. -/
def overRx (cls : BitVec 2) (cqp len : Nat) (s : State) : Bool :=
  let l := ownerOf cqp s
  cls != 0 && cqp != 0 && decide (rxQuota (ctx l cqp s) < rxUsed l cqp s + units64 len)

/-- Admission of an arriving frame of `len` bytes, for the local client `cqp` where it has one (R451, R560): second, it is admitted. -/
def admitArrival (n : Option PortNo) (cls : BitVec 2) (raw : Bool) (len : Nat) (cqp : Option Nat) (s : State) : State × Bool :=
  if s.bgt.level.val = 4 && (raw || 2 ≤ cls.toNat) then (shedArrival n s, false)
  else if overQuota n cls raw len s || noPool (framePool cls raw) len s then (dropAt n s, false)
  else match cqp with
    | some c =>
      if overRx cls c len s then
        (dropAt n (modCtx (ownerOf c s) c (fun x => { x with cntRxNobuf := x.cntRxNobuf + 1 }) s), false)
      else (s, true)
    | none => (s, true)

/-! ### Delivery -/

/-- The checksums of a raw frame that entered at a port with CSUM_CHECK, as found (R226). -/
def csumsAt (n : Option PortNo) (raw : Bool) (b : List Byte) (s : State) : BitVec 2 × BitVec 2 :=
  match n with
  | some x => if raw && (port x s).csumCheck then (checkIp b, checkL4 b) else (0, 0)
  | none => (0, 0)

/-- The item of a frame for a client of this vertex (Table 9.7). -/
def rxItemOf (h : HeldFrame) (c : BitVec 2 × BitVec 2) : RxItemDue :=
  let f := h.frame
  { src := f.src, srcCqp := f.srcCqp, srcPort := 0xF, raw := f.raw, bcast := f.dst == allKey, viaPlc := h.viaPlc, lane := h.laneB,
    cls := f.cls, pcp := f.pcp, label := f.label, fseq := f.fseq, isFlow := true, truncated := false, ipCsum := c.1, l4Csum := c.2,
    fullLen := f.payload.length, data := f.payload, time := h.time, waitUntil := 0, gapCount := 0, inPort := h.inPort, pool := h.pool,
    localTx := none }

/-- A raw frame of another vertex for a consist port of this one: the header names no port (log entry 14). -/
def toConsist (h : HeldFrame) (s : State) : State :=
  let ports := (List.finRange 8).filter fun n => (port n s).role == 1
  if ports.isEmpty then s
  else
    let d := drawFree s
    match ports[d.1 % ports.length]? with
    | some n => enqueue n { rawOut h.frame.payload h.frame.cls h.frame.pcp none d.2 with inPort := h.inPort, pool := h.pool } d.2
    | none => d.2

/-- A frame in its turn goes to its client, to the remote register window, or to a consist port. -/
def passUp (h : HeldFrame) (s : State) : State :=
  let f := h.frame
  if f.dstCqp != 0 then
    let c := csumsAt h.inPort f.raw f.payload s
    rxOffer f.dstCqp.toNat (rxItemOf h c) s
  else if f.raw then toConsist h s
  else if f.label == rrwLabel then rrwIn h.viaPlc f.src f.payload s
  else s

/-- What the flow rules put out, in order; a gap takes its fields from the frame that led to it (R178). -/
def putOut (cause : NatFrame) (fixed : Bool) (outs : List FlowOut) (s : State) : State :=
  (tieGaps cause fixed outs).foldl (fun t o =>
    match o.1 with
    | .deliver h => passUp h t
    | .gap first n => reportGap o.2 first n t) s

/-- A flow without state, as its first frame makes it (R174). -/
def freshRx (f : NatFrame) (s : State) : RxFlow := ⟨flowOf f, f.fseq, [], [], none, s.now⟩

/-- What is still held in a flow that ends is put out. -/
def endFlow (r : RxFlow) (f : NatFrame) (s : State) : State :=
  putOut f false (flushHeld r).2 { s with bbn.rxFlows := s.bbn.rxFlows.filter fun x => x.id != r.id }

/-- Room for one more flow: with the table full the entry idle longest is reused, event 0x4020 (R197). -/
def makeRoom (f : NatFrame) (s : State) : State :=
  if s.bbn.rxFlows.length < rxFlowCapacity then s
  else match oldestRx s.bbn.rxFlows with
    | some r => raise 0x4020 [] (endFlow r f s)
    | none => s

/-- The state of a frame's flow, one idle for 10 s dropped first (R174). -/
def flowFor (f : NatFrame) (s : State) : RxFlow × State :=
  match findRx (flowOf f) s.bbn.rxFlows with
  | some r => if r.last + sec 10 ≤ s.now then (freshRx f s, endFlow r f s) else (r, s)
  | none => (freshRx f s, makeRoom f s)

/-- A frame of a flow meets the receiver rules (R174 to R179, R194). -/
def flowIn (h : HeldFrame) (s : State) : State :=
  let g := flowFor h.frame s
  let r := if nativeRun s then flowArrive h g.1 else flowArriveInterop h g.1
  let s1 := { g.2 with bbn.rxFlows := putRx { r.1 with last := s.now } g.2.bbn.rxFlows }
  let s2 := match r.2.2 with
    | .none => s1
    | .dup => { s1 with bbn.cntDup := s1.bbn.cntDup + 1 }
    | .late => { s1 with bbn.cntLate := s1.bbn.cntLate + 1 }
  putOut h.frame h.frame.sync r.2.1 s2

/-- Frames held in flows are delivered in their order and no gap is reported: interop mode holds none (R194). -/
def releaseFlows (s : State) : State :=
  let empty := fun (r : RxFlow) => match r.held.getLast? with
    | some h => { r with next := h.frame.fseq + 1, held := [],
                         delivered := ((r.held.map fun x => x.frame.fseq).reverse ++ r.delivered).take 64 }
    | none => r
  (s.bbn.rxFlows.map (·.held)).flatten.foldl (fun t h => passUp h t) { s with bbn.rxFlows := s.bbn.rxFlows.map empty }

/-- A change that may have begun interop mode, with what the receiver held until then. -/
def leavingNative (before after : State) : State :=
  if isNative before && !isNative after then releaseFlows after else after

/-- A client frame for this vertex: admitted, then the flow rules. -/
def clientIn (n : Option PortNo) (laneB viaPlc : Bool) (f : NatFrame) (s : State) : State :=
  let a := admitArrival n f.cls f.raw f.payload.length (some f.dstCqp.toNat) s
  if !a.2 then a.1
  else
    flowIn { frame := f, laneB := laneB, viaPlc := viaPlc, time := trainTime s, at_ := s.now, inPort := n,
             pool := poolFor (framePool f.cls f.raw) f.payload.length s } a.1

/-- A management message of another vertex (R189, R631). A response to no request of this vertex is dropped; the difference and the
outcome of a time set keep their own form (log entry 23). -/
def mgmtIn (p : MgmtPort) (f : NatFrame) (s : State) : State :=
  let m := mgmtMsg f.payload
  let r : Req := ⟨p, m.tag, m.body⟩
  let status := byteAt f.payload 6
  if f.payload.length < 8 then s
  else if m.opcode == 0x0401 && (m.body.isEmpty || status ≠ 0) then timeSetIn f.src m.tag status m.body s
  else if status ≠ 0 then s
  else if !m.ok then malformed r m.opcode s
  else if m.opcode == 0x0401 then timeSet r s
  else authorised m.opcode r id s

/-- The frame belongs to the node itself: flow label 0xFFF and CQP 0 (R80, R573). -/
def isNodeFrame (f : NatFrame) : Bool := f.cls == 1 && f.label == nodeLabel && f.dstCqp == 0

/-! ### Frames over the power line -/

/-- The epoch of a frame is the current one or, within the grace after a switch, that of an entry of the committed tally (R137). -/
def epochFits (f : NatFrame) (s : State) : Bool :=
  f.epoch == BitVec.ofNat 16 s.rlv.epoch.toNat
  || ((match s.rlv.graceUntil with | some t => decide (s.now < t) | none => false)
      && s.rlv.poly.any fun e => BitVec.ofNat 16 e.epoch.toNat == f.epoch)

/-- A frame of a stale epoch is dropped and counted (R137). -/
def staleFrame (s : State) : State := { s with rlv.cntStale := s.rlv.cntStale + 1 }

/-- A frame that reached this vertex over the power line. -/
def deliverPlc (c : Chan) (f : NatFrame) (s : State) : State :=
  let rolavo := decide (byteAt f.payload 0 / 16 = 1)
  if isNodeFrame f && f.dst != allKey && rolavo then receiveRlvPlc c f s
  else if nativeRun s && !epochFits f s then staleFrame s
  else if isNodeFrame f then
    (if f.dst == allKey then sleepIn none f.payload s else mgmtIn (.powerLine c f.src) f s)
  else if f.dst == spanKey || (f.cls != 1 && !nativeRun s) then s
  else clientIn none false true f s

/-! ### Forwarding over the lanes -/

/-- A stored frame leaves on a lane's port at an end, unchanged. -/
def storeOn (n : PortNo) (l : Lane) (e : End) (f : NatFrame) (s : State) : State :=
  match lanePort l e s with
  | some k => enqueue k (outOf f none (some n) s) s
  | none => s

/-- A frame for another vertex is stored and sent on (R161, R171, R98). -/
def forwardFrame (n : PortNo) (l : Lane) (f : NatFrame) (s : State) : State :=
  let a := admitArrival (some n) f.cls f.raw (encodeNative f).length none s
  if !a.2 then a.1
  else match routeTo f.cls f.label f.dst s with
    | .lane e _ => storeOn n (transitLane f l e s) e f s
    | r => launch r f none (some n) s

/-- A frame for every vertex goes on beyond this one (R400). -/
def forwardEvery (n : PortNo) (l : Lane) (out : End) (f : NatFrame) (s : State) : State :=
  if !polyEnd out s || (nbrOrd out s).isNone then s
  else
    let a := admitArrival (some n) f.cls f.raw (encodeNative f).length none s
    if !a.2 then a.1 else storeOn n (if spanIsUp l out s then l else Lane.other l) out f s

/-- The restore frame of R214, acted on once and sent on as R83 states. -/
def restoreIn (out : End) (f : NatFrame) (s : State) : State :=
  match decodeRestore f.payload with
  | none => s
  | some (l, low) =>
    let c := cycleIdx s
    let ahead_ := (low + 2 ^ 32 - c % 2 ^ 32) % 2 ^ 32
    let target := if ahead_ < 2 ^ 31 then c + ahead_ else c
    if s.restores.any fun r => r.lane == l && r.cycle % 2 ^ 32 == low then s
    else
      let s1 := { s with restores := s.restores ++ [⟨l, target, false, none⟩] }
      if polyEnd out s1 && (nbrOrd out s1).isSome then sendBothLanes out f s1 else s1

/-- A lane notice: the copy for this vertex's own lane map (R181, R182). -/
def noticeIn (f : NatFrame) (s : State) : State :=
  match decodeNotice f.payload with
  | some (d, epoch) => if epoch == s.rlv.epoch then mapSpan d.lane d.up d.low d.high s else s
  | none => s

/-- A class U frame in native mode: a notice for every vertex, or a frame for this vertex or one beyond it (R162, R164, R181). `good` is
false where its FCS or length has proved wrong: it goes on stomped and is not used here (R165). -/
def urgentFrame (n : PortNo) (l : Lane) (e : End) (f : NatFrame) (b : List Byte) (good : Bool) (s : State) : State :=
  let out := End.other e
  if f.dst == allKey then
    if f.label != nodeLabel then { s with bbn.cntHchk := s.bbn.cntHchk + 1 }
    else
      let s1 := if (nbrOrd out s).isSome then transitU l e f b good s else s
      if good then noticeIn f s1 else s1
  else if f.dst == vkey s then (if good then clientIn (some n) (l == .b) false f s else s)
  else match ordOf f.dst s with
    | some o => if endTowards o s == some out then transitU l e f b good s else s
    | none => s

/-- A native frame of any other class, whole and good (R153). -/
def storedFrame (n : PortNo) (l : Lane) (e : End) (f : NatFrame) (s : State) : State :=
  let out := End.other e
  if f.dst == allKey then
    if isNodeFrame f then
      (if f.payload.length = 8 then restoreIn out f s else sleepIn (some e) f.payload s)
    else clientIn (some n) (l == .b) false f (forwardEvery n l out f s)
  else if f.dst == vkey s then
    (if isNodeFrame f then mgmtIn (.lane n f.src) f s else clientIn (some n) (l == .b) false f s)
  else forwardFrame n l f s

/-- A native frame whose header is good: its epoch is checked, then it goes its way (R80, R137, R153). Over a barred span only span
sweeps come in (R139). -/
def nativeIn (n : PortNo) (l : Lane) (e : End) (f : NatFrame) (b : List Byte) (good : Bool) (s : State) : State :=
  if f.dst == spanKey then
    if !good then s
    else if isNodeFrame f && (lanesRun s || (match decodeRlv f.payload with | some ⟨_, _, _, .sweep w⟩ => w.scope == 0 | _ => false)) then
      receiveRlv n l e f s
    else if isNodeFrame f then s
    else { s with bbn.cntHchk := s.bbn.cntHchk + 1 }
  else if !lanesRun s || barredAt e s then s
  else if nativeRun s && !epochFits f s then staleFrame s
  else if f.cls == 0 && nativeRun s then urgentFrame n l e f b good s
  else if good then storedFrame n l e f s
  else s

/-! ### Raw frames: consist ports, and the bridge of interop mode -/

/-- A raw frame received on a port goes to the client LP_BIND names; one above LP_MAXLEN is cut (R201, R220, R221). -/
def rawToClient (n : PortNo) (b : List Byte) (s : State) : State :=
  let p := port n s
  let cut := effMaxLen n s
  let long := decide (cut < wireLen b)
  let data := if long then b.take cut else b
  let a := admitArrival (some n) 3 true data.length (some p.bind.toNat) s
  if !a.2 then a.1
  else
    let c := csumsAt (some n) true b s
    let it : RxItemDue :=
      { src := vkey s, srcCqp := 0, srcPort := BitVec.ofNat 4 n.val, raw := true, bcast := false, viaPlc := false, lane := false,
        cls := 3, pcp := rawPrio n b s, label := 0, fseq := 0, isFlow := false, truncated := long, ipCsum := c.1, l4Csum := c.2,
        fullLen := if long then wireLen b else b.length, data := data, time := trainTime s, waitUntil := 0, gapCount := 0,
        inPort := some n, pool := 3, localTx := none }
    rxOffer p.bind.toNat it a.1

/-- Event 0x3061, at most once per minute and port (R201). -/
def unbound (n : PortNo) (s : State) : State :=
  let s1 := bump n 0x470 s
  raiseSpaced (port n s1).unboundEvAt (sec 60) (fun t => modPort n (fun p => { p with unboundEvAt := some t.now }) t) 0x3061 (d1 n.val) s1

/-- A raw frame received on a consist port (R201). -/
def consistFrame (n : PortNo) (b : List Byte) (s : State) : State :=
  if (port n s).bind == 0 then unbound n s else rawToClient n b s

/-- An address that no bridge forwards (IEEE 802.1Q). -/
def reservedMac (b : List Byte) : Bool := b.take 5 == [0x01, 0x80, 0xC2, 0x00, 0x00] && decide (byteAt b 5 < 16)

/-- Where the bridge has learned that an address lies: beyond an end, or among the hosts (none); none where it does not know. -/
def macAt (b : List Byte) (s : State) : Option (Option End) :=
  if byteAt b 0 % 2 = 1 then none
  else (s.bbn.fdb.find? fun x => x.1 == mkKey (beAt b 0 6) && decide (s.now < x.2.2 + sec 300)).map (·.2.1)

/-- The port of the bridge at an end: of the lane a frame came on where that has link there, else of the other. -/
def bridgePort (l : Lane) (e : End) (s : State) : Option PortNo :=
  ([l, Lane.other l].filterMap fun x => lanePort x e s).find? fun k => (port k s).link

/-- A raw frame goes on beyond an end. -/
def bridgeOn (n : PortNo) (l : Lane) (out : End) (b : List Byte) (s : State) : State :=
  let a := admitArrival (some n) 3 true b.length none s
  if !a.2 then a.1
  else match bridgePort l out a.1 with
    | some k => enqueue k { rawOut b 3 (rawPrio n b s) none s with inPort := some n } a.1
    | none => a.1

/-- In interop mode the lane ports are an 802.1Q bridge for raw frames, with a port at each end and one for the hosts, the client that
LP_BIND of the arriving lane port names (R192; the host's port is a DESIGN CHOICE, log entry 67): it learns source addresses, sends on
towards a known destination only, floods others, and forwards no reserved address. -/
def bridgeRaw (n : PortNo) (l : Lane) (e : End) (b : List Byte) (s : State) : State :=
  if reservedMac b then s
  else
    let s1 := learnMac b (some e) s
    let toHost := fun (t : State) => if (port n t).bind == 0 then t else rawToClient n b t
    match macAt b s1 with
    | some (some x) => if x == e then s1 else bridgeOn n l (End.other e) b s1
    | some none => toHost s1
    | none => toHost (bridgeOn n l (End.other e) b s1)

/-! ### Frames on a lane port -/

/-- A class U frame that goes on beyond this vertex in cut-through. -/
def transits (e : End) (f : NatFrame) (s : State) : Bool :=
  let out := End.other e
  f.cls == 0 && nativeRun s
  && (if f.dst == allKey then f.label == nodeLabel && (nbrOrd out s).isSome
      else f.dst != vkey s && f.dst != spanKey && (match ordOf f.dst s with | some o => endTowards o s == some out | none => false))

/-- A frame of an acceptable length on a lane port, other than MAC control (R25, R150 to R153). A header that fails its checks counts
whatever the FCS turns out to be; a length that disagrees with PAY_LEN shows in a transit class U frame only after its release. -/
def laneFrame (n : PortNo) (l : Lane) (e : End) (b : List Byte) (good : Bool) (s : State) : State :=
  let bad := fun (t : State) => { t with bbn.cntHchk := t.bbn.cntHchk + 1 }
  let type := beAt b 12 2
  if type = 0x88F7 then (if good then pdelayIn n b s else s)
  else if type ≠ 0x88B5 then (if !good then s else if nativeRun s then bad s else if lanesRun s then bridgeRaw n l e b s else s)
  else match decodeNative b with
    | some f => nativeIn n l e f b good s
    | none =>
      match if b.take 6 == natDst then decodeHeader (b.drop 14) else none with
      | some f => if transits e f s then nativeIn n l e f b false s else if good then bad s else s
      | none => bad s

/-! ### Classification -/

/-- Counters of a frame that is dropped for its FCS or its length (Tables 5.3 and 5.4). -/
def countBad (n : PortNo) (len : Nat) (whole : Bool) (s : State) : State :=
  let p := port n s
  if len < 64 then bump n 0x460 s
  else if effMaxLen n s < len then bump n 0x468 s
  else
    let off := if !whole && p.speed != .s1000 then 0x454 else 0x450
    bump n (0x42C + 4 * sizeBin len) (bump n off s)

/-- A good frame within or above the port's length, once counted. -/
def acceptFrame (n : PortNo) (b : List Byte) (s : State) : State :=
  if (macControl b).isSome then takeMacControl n b s
  else match portLane n s with
    | some (l, e) => laneFrame n l e b true s
    | none =>
      let p := port n s
      if p.role != 1 || (p.watch && watching s && (patternOf p b).isSome) then s else consistFrame n b s

/-- A received frame, by its length and FCS (R220, Table 5.3). -/
def frameIn (n : PortNo) (b : List Byte) (fcsOk whole symbolErr : Bool) (s : State) : State :=
  let p := port n s
  if !p.link || (p.role == 1 && watchQuiet s) then s
  else
    let s1 := modPort n (fun x => { x with los := false }) s
    let good := fcsOk && !symbolErr
    let len := wireLen b
    let s2 := if symbolErr then bump n 0x458 s1 else s1
    if good then
      if len < 64 then bump n 0x45C s2
      else if effMaxLen n s < len then
        (if (portLane n s).isSome then bump n 0x464 s2 else acceptFrame n b (bump n 0x464 s2))
      else acceptFrame n b (countFrame n 0x400 b s2)
    else
      let s3 := countBad n len whole s2
      if len < 64 || effMaxLen n s < len then s3
      else match portLane n s3 with
        | some (l, e) => laneFrame n l e b false s3
        | none => s3

/-! ### Fragments -/

/-- A frame discarded in reassembly (R275): what still comes of it, under its frame count, is passed over. -/
def assyError (n : PortNo) (frame : BitVec 2) (s : State) : State :=
  bump n 0x47C (modPort n (fun p => { p with assembly := some ⟨[], frame, 0, true⟩ }) s)

/-- A fragment that belongs to the frame being put together: the frame is whole where its FCS follows, goes on where the mCRC of what has
come follows, and is discarded where neither does. -/
def assemble (n : PortNo) (all : List Byte) (frame next : BitVec 2) (check : Word) (s : State) : State :=
  if check == fcs all then frameIn n all true true false (modPort n (fun p => { p with assembly := none }) s)
  else if check == mcrc all then modPort n (fun p => { p with assembly := some ⟨all, frame, next, false⟩ }) s
  else assyError n frame s

/-- One 802.3br mPacket of the preemptable MAC (R275): a frame with a wrong frame or fragment count, a bad check or no final fragment is
discarded, each counted once. A whole frame in one mPacket is no fragment. -/
def fragmentIn (n : PortNo) (start : Bool) (frame frag : BitVec 2) (b : List Byte) (check : Word) (s : State) : State :=
  if !(port n s).link || ((port n s).role == 1 && watchQuiet s) then s
  else
    let s1 := if start && check == fcs b then s else bump n 0x478 s
    match (port n s).assembly with
    | some a =>
      if start then assemble n b frame 0 check (if a.lost then s1 else bump n 0x47C s1)
      else if a.lost then (if a.frame == frame then s1 else assyError n frame s1)
      else if a.frame == frame && a.next == frag then assemble n (a.bytes ++ b) frame (frag + 1) check s1
      else assyError n frame s1
    | none => if start then assemble n b frame 0 check s1 else assyError n frame s1

/-! ### Meanings -/

/-- A TTDP frame on a linked lane port, counted. -/
def ttdpIn (n : PortNo) (b : List Byte) (f : State → State) (s : State) : State :=
  if (port n s).link then f (countFrame n 0x400 b (modPort n (fun x => { x with los := false }) s)) else s

/-- What a line port receives (R220, R188, R270, R275, R141, R143, R195). On a port without a lane role every whole frame is an ordinary
one (R201, R202); a lane port in native train mode knows no TTDP but HELLO (R25). -/
def portReceives (n : PortNo) (item : RxItem) (s : State) : State :=
  let lane := (portLane n s).isSome
  match item with
  | .frame b fcsOk whole symbolErr => frameIn n b fcsOk whole symbolErr s
  | .verify => gotVerify n s
  | .respond => gotRespond n s
  | .fragment start frame frag b check => fragmentIn n start frame frag b check s
  | .gptpSync b offset valid gmStepped =>
    let s1 := frameIn n b true true false s
    if (port n s).link && lane then takeSync n offset valid gmStepped s1 else s1
  | .gptpAnnounce b prio betterTie => takeAnnounce n prio betterTie (frameIn n b true true false s)
  | .hello b => if lane then ttdpIn n b (helloIn n) s else frameIn n b true true false s
  | .topology b counter nodes facing =>
    if lane && !isNative s then ttdpIn n b (topologyIn counter nodes facing) s else frameIn n b true true false s

/-- A frame has been held for 2 ms behind missing numbers (R177). -/
def reorderExpires (id : FlowId) (s : State) : State :=
  match findRx id s.bbn.rxFlows with
  | none => s
  | some r =>
    match r.held with
    | [] => s
    | h :: _ =>
      if r.held.any fun x => decide (x.at_ + ms 2 ≤ s.now) then
        let g := giveUp (ahead r.next h.frame.fseq) r
        putOut h.frame false g.2 { s with bbn.rxFlows := putRx g.1 s.bbn.rxFlows }
      else s

/-- R220. -/
def execPortFrameReceived (port_ : PortNo) (item : RxItem) (s : State) : Out :=
  .next (preemptAll (flowCheck port_ (leavingNative s (portReceives port_ item s))))
/-- R141. -/
def execForeignHelloConfirm (port_ : PortNo) (s : State) : Out := .next (leavingNative s (helloConfirm port_ s))
/-- R177. -/
def execReorderHoldExpiry (flow : FlowId) (s : State) : Out := .next (reorderExpires flow s)

end Sys2Proof.Machine
end

