-- ==== Sys2Proof/Machine/PlcSend.lean ====
section
/-! DEFINITION. What a power-line station sends (R301 to R326, R329 to R331, R339): windows, priority resolution and the Urgent lead,
blocks and control messages, beacons and their relays, allocations, polls and joins, chords. -/
namespace Sys2Proof.Machine

/-! ### Places in a window (R303, R306) -/

/-- When a symbol of the present window starts. -/
def symbolAt (p : PlcChan) (i : Nat) : Ns := p.winStart + symbolNs * i

/-- The vertex's train time at an instant. -/
def timeAt (t : Ns) (s : State) : Nat := (ttime s + t) - s.now

/-- Symbols leave from symbol `i` of the window on; they count for the duty (R302, R303, R339). -/
def plcEmit (c : Chan) (i : Nat) (xs : List PlcSymbol) (s : State) : State :=
  emit (.plc c (symbolAt (plc c s) i) xs) (modPlc c (fun p => { p with symbols := p.symbols + xs.length }) s)

/-- A frame leaves. -/
def plcSend (c : Chan) (i : Nat) (xs : List PlcSymbol) (s : State) : State :=
  plcEmit c i xs (modPlc c (fun p => { p with cntFramesTx := p.cntFramesTx + 1 }) s)

/-- TYPE, TX_STN and DST_STN at the head of every frame control (Table 7.9). -/
def fcHead (type tx dst : Nat) : Nat := fcField 0 4 type + fcField 4 7 tx + fcField 11 7 dst

/-- The coordinator's or polling master's STN. -/
def coordStn (p : PlcChan) : BitVec 7 :=
  if p.role != 0 then p.stn else match p.stations.find? fun x => x.key == p.coord with | some x => x.stn | none => 0

/-- The relays a beacon names: the repeaters of the coordinator's own chords, in order, at most 8, so that every station whose link to
the coordinator is not usable hears the last repeater of its chord (R329; that its chord records name them is DEDUCED, log entry 20). -/
def relaysOf (p : PlcChan) : List (BitVec 7) :=
  (((p.chords.filter fun x => x.orig == coordStn p).map (·.reps)).flatten.eraseDups).take 8

/-- Symbols of the beacon that a relay sends at the start of the data part of the present window. -/
def relaySyms (p : PlcChan) : Nat := if 1 ≤ p.winIdx.toNat && p.winIdx.toNat ≤ (relaysOf p).length then p.bcnSyms else 0

/-- First symbol behind the Urgent lead and any relayed beacon, from which allocations count (Tables 7.8, 7.11). -/
def dataStart (p : PlcChan) : Nat := 1 + 2 * p.lead + relaySyms p

/-! ### Urgent frames (R308, R319, R320, R331) -/

/-- The frame control fields of an Urgent frame. -/
def urgentFc (u : PlcUrgent) (tx : BitVec 7) : Nat :=
  let f := u.frame
  fcHead 1 tx.toNat u.dst.toNat + fcField 18 7 u.orig.toNat + fcField 25 4 u.hops + fcField 29 16 f.epoch.toNat
  + fcField 45 10 f.srcCqp.toNat + fcField 55 10 f.dstCqp.toNat + fcField 65 12 f.label.toNat + fcField 77 16 f.fseq.toNat
  + fcField 93 1 (bit f.sync) + fcField 94 1 (bit f.retx) + fcField 95 5 f.payload.length

/-- The 249 payload bits: 30 bytes, CRC-8, a zero bit. -/
def urgentPayload (f : NatFrame) : List Bool :=
  let b := f.payload ++ List.replicate (30 - f.payload.length) 0
  bitsOfBytes (b ++ [crc8 b]) ++ [false]

/-- U_MAX of a window of W symbols. -/
def uMaxOf (w : BitVec 6) : Nat := min 4 ((w.toNat - 1) / 2)

/-- The winners of a window: the first U_MAX asserting stations in cyclic order from the pointer (R320). -/
def winnersOf (asserted : List (BitVec 7)) (ptr : BitVec 7) (n : Nat) : List (BitVec 7) :=
  (((List.range 128).map fun i => ptr + BitVec.ofNat 7 i).filter fun x => asserted.contains x).take n

/-- An Urgent frame of this station is due. -/
def urgentDue (p : PlcChan) : Bool := p.stn != 0 && p.urgents.any fun u => decide (u.dueWin ≤ p.winCount)

/-- The head of the due Urgent frames leaves as the winner of a place in the lead (R320, R331). -/
def sendPlcUrgent (c : Chan) (place : Nat) (s : State) : State :=
  let p := plc c s
  match p.urgents.find? fun u => decide (u.dueWin ≤ p.winCount) with
  | none => s
  | some u =>
    let s1 := modPlc c (fun x => { x with urgents := x.urgents.erase u, cntUTx := x.cntUTx + 1,
                                          cntURepeat := if u.hops = 0 then x.cntURepeat else x.cntURepeat + 1 }) s
    let t0 := trainTime s
    completeOrigin u.origin stOk (fun t => { leftByPlc t with time := t0 })
      (plcSend c (2 * place + 1) (urgentSymbols (urgentFc u p.stn) (urgentPayload u.frame)) s1)

/-! ### Blocks (R310 to R312, R316, R318, R321) -/

/-- The map towards a station and its TMI; none for STN 127 and while it has returned none. -/
def mapTo (c : Chan) (rx : BitVec 7) (s : State) : Option (List (BitVec 3) × Bool) :=
  if rx == 127 then none
  else match (plc c s).nbrs.find? fun n => n.stn == rx && decide (0 < mapBits (txMap n)) && !(txMap n).isEmpty with
    | some n => some (txMap n, n.txTmi)
    | none => none

/-- Native frames packed into a block's data bytes as segments; second, the frames that go on, third, the descriptors complete with the
block (R311 step 1, R312). What is left over is padding. -/
def packStream : Nat → Nat → List (PlcData × Bool) → List Byte × List (PlcData × Bool) × List TxRef
  | 0, _, q => ([], q, [])
  | _, _, [] => ([], [], [])
  | fuel + 1, room, (x, started) :: rest =>
    if room ≤ 2 then ([], (x, started) :: rest, [])
    else
      let n := min x.bytes.length (min 2047 (room - 2))
      let seg := segmentBytes (!started) (decide (n = x.bytes.length)) (x.bytes.take n)
      if n = x.bytes.length then
        let r := packStream fuel (room - n - 2) rest
        (seg ++ r.1, r.2.1, x.origin.toList ++ r.2.2)
      else
        let r := packStream fuel (room - n - 2) (({ x with bytes := x.bytes.drop n }, true) :: rest)
        (seg ++ r.1, r.2.1, r.2.2)

/-- Payload symbols of a block: the fewest that carry one codeword and `n` bytes, else as many as there is room for; none where not even
one codeword fits (R311). -/
def blockSymbols (d b room n : Nat) : Option Nat :=
  match (List.range room).find? fun i => decide (1 ≤ blockK d (i + 1) b) && decide (n ≤ 223 * blockK d (i + 1) b) with
  | some i => some (i + 1)
  | none => if 1 ≤ blockK d room b then some room else none

/-- A block of data bytes for a receiver: coded, cut into slices, numbered in its stream (R310, R311, Table 7.9). Without a map it goes to
STN 127 with the robust map, as one slice (R318, log entry 22). -/
def addBlock (c : Chan) (rx : BitVec 7) (deep : Bool) (cls : BitVec 2) (map : Option (List (BitVec 3) × Bool)) (sym : Nat)
    (data : List Byte) (done : List TxRef) (s : State) : State :=
  let p := plc c s
  let deep' := deep && map.isSome
  let stream : PlcStream := ⟨p.stn, if map.isSome then rx else 127, deep'⟩
  let d := if deep' then 16 else 1
  let b := mapBits ((map.map (·.1)).getD [])
  let k := blockK d sym b
  let bits := blockBits d sym b (data ++ List.replicate (223 * k - data.length) 0)
  let bsn : Byte := ((p.txBsn.find? fun x => x.1 == stream).map (·.2)).getD 0
  let blk : PlcBlock :=
    { rx := stream.rx, deep := deep', cls := cls, bsn := bsn, tmi := (map.map (·.2)).getD false, map := (map.map (·.1)).getD [],
      symbols := sym, next := 0, slices := (List.range d).map fun i => sliceBits d i bits, done := done }
  modPlc c (fun x => { x with txBsn := (x.txBsn.filter fun y => y.1 != stream) ++ [(stream, bsn + 1)], blocks := x.blocks ++ [blk] }) s

/-- A block for a receiver and DEPTH begins with the frames waiting for it; none where nothing waits or no codeword fits. CLASS is that
of its first frame (DESIGN CHOICE, log entry 22). -/
def beginBlock (c : Chan) (rx : BitVec 7) (deep : Bool) (room : Nat) (s : State) : State :=
  let p := plc c s
  let mine := fun (d : PlcData) => d.hop == rx && d.deep == deep
  let q := ((p.partSent.filter mine).map fun x => (x, true)) ++ ((p.dataQ.filter mine).map fun x => (x, false))
  let map := mapTo c rx s
  let d := if deep && map.isSome then 16 else 1
  let b := mapBits ((map.map (·.1)).getD [])
  match q.head?, blockSymbols d b (min 34 (room - 2)) (q.map fun x => x.1.bytes.length + 2).sum with
  | some first, some sym =>
    let r := packStream (223 * blockK d sym b) (223 * blockK d sym b) q
    let part := (r.2.1.filter fun x => x.2).map (·.1)
    let left := (r.2.1.filter fun x => !x.2).map (·.1)
    addBlock c rx deep first.1.cls map sym r.1 r.2.2
      (modPlc c (fun x => { x with dataQ := (x.dataQ.filter fun y => !mine y) ++ left,
                                   partSent := (x.partSent.filter fun y => !mine y) ++ part }) s)
  | _, _ => s

/-- A block of class M for the first control message to a receiver: as much of it as fits, as one segment (R312; how such a message is
told from a frame the spec does not say, DESIGN CHOICE, log entry 22). An empty message is a block of padding. -/
def beginCtl (c : Chan) (rx : BitVec 7) (room : Nat) (s : State) : State :=
  let p := plc c s
  match p.ctlQ.find? fun m => m.rx == rx with
  | none => s
  | some m =>
    let map := mapTo c rx s
    let b := mapBits ((map.map (·.1)).getD [])
    match blockSymbols 1 b (min 34 (room - 2)) (m.bytes.length + 2) with
    | none => s
    | some sym =>
      let n := min m.bytes.length (min 2047 (223 * blockK 1 sym b - 2))
      let rest : List PlcCtl := if n = m.bytes.length then [] else [⟨rx, m.bytes.drop n, true⟩]
      addBlock c rx false 1 map sym
        (if n = 0 then [] else segmentBytes (!m.started) (decide (n = m.bytes.length)) (m.bytes.take n)) []
        (modPlc c (fun x => { x with ctlQ := rest ++ x.ctlQ.erase m }) s)

/-- The frame control of a data frame. -/
def dataFc (p : PlcChan) (k : PlcBlock) : Nat :=
  fcHead 2 p.stn.toNat k.rx.toNat + fcField 18 2 k.cls.toNat + fcField 20 1 (bit k.deep) + fcField 21 4 k.next
  + fcField 25 8 k.bsn.toNat + fcField 33 1 (bit k.tmi) + fcField 34 6 k.symbols

/-- The next slice of a block leaves, where it ends within the room there is: else it stays, and the block waits (R321). With the last
slice the frames in the block have left (R408). -/
def sendSlice (c : Chan) (i room : Nat) (k : PlcBlock) (s : State) : State :=
  match k.slices with
  | [] => modPlc c (fun x => { x with blocks := x.blocks.erase k }) s
  | sl :: rest =>
    if room < 2 + k.symbols then s
    else
      let s1 := plcSend c i (frameHead (dataFc (plc c s) k) ++ dataSymbols k.map k.symbols sl) s
      let s2 := modPlc c (fun x => { x with blocks := if rest.isEmpty then x.blocks.erase k
                                     else x.blocks.map fun y => if y == k then { k with next := k.next + 1, slices := rest } else y }) s1
      if rest.isEmpty then k.done.foldl (fun t o => completeOrigin (some o) stOk leftByPlc t) s2 else s2

/-! ### What a station sends in its allocations (R316, R317, R321, R322, R324, R339) -/

/-- The duty limit holds class S and B back (R339, R563). -/
def dutyReached (p : PlcChan) : Bool :=
  decide (p.dutyLimit.toNat < 100) && decide (p.dutyLimit.toNat * (32 * p.w.toNat) ≤ 100 * p.symbols)

/-- The map a neighbour was last returned: what the station hears it with (R316, R324). -/
def rxMapNew (n : PlcNbr) : List (BitVec 3) := if n.rxNew then n.rx1 else n.rx0

/-- The link-quality report of a station: each station it hears (R324). -/
def linkReport (c : Chan) (s : State) : List Byte :=
  (((plc c s).nbrs.filter fun n => n.loss != 0xFF).map fun n =>
    toBE 1 n.stn.toNat ++ toBE 1 n.loss.toNat ++ toBE 2 ((rxMapNew n).map toneBits).sum).flatten

/-- The block under way for a receiver, or robust to STN 127. -/
def blockFor (rx : BitVec 7) (deep : Bool) (p : PlcChan) : Option PlcBlock :=
  p.blocks.find? fun k => (k.rx == rx && k.deep == deep) || (k.rx == 127 && !k.deep)

/-- A data frame to a receiver: the block under way, else a new one with control messages first; class S and B wait under the duty limit
(R321, R339), and at L4 those that have not begun to leave (R560). -/
def sendData (c : Chan) (i room : Nat) (rx : BitVec 7) (deep : Bool) (s : State) : State :=
  let p := plc c s
  if deep && dutyReached p then
    if p.dataQ.any fun d => d.hop == rx && d.deep then modPlc c (fun x => { x with cntDeferred := x.cntDeferred + 1 }) s else s
  else
    let more := fun (f : State → State) (t : State) => if (blockFor rx deep (plc c t)).isSome then t else f t
    let s1 := if deep then (if s.bgt.level.val == 4 then s else more (beginBlock c rx true room) s)
      else more (beginBlock c 127 false room) (more (beginBlock c rx false room) (more (beginCtl c rx room) s))
    match blockFor rx deep (plc c s1) with
    | some k => sendSlice c i room k s1
    | none => s1

/-- A sounding frame: two symbols like SYNC, TXLVL, DST_STN 127 (R313). The level is the transmitter's, which the spec leaves to it:
a free value (log entry 22). -/
def sendSounding (c : Chan) (i : Nat) (s : State) : State :=
  let d := drawFree s
  let fc := fcHead 5 (plc c s).stn.toNat 127 + fcField 34 6 2 + fcField 40 8 d.1
  plcSend c i (frameHead fc ++ [syncSymbol, syncSymbol]) (modPlc c (fun p => { p with soundDue := some (s.now + sec (tmRefresh p)) }) d.2)

/-- A superframe's report waits for the coordinator (R324). -/
def queueReport (c : Chan) (rx : BitVec 7) (s : State) : State :=
  let p := plc c s
  if p.role == 0 && !p.reported && rx == coordStn p && rx != 0 then
    modPlc c (fun x => { x with reported := true, ctlQ := x.ctlQ ++ [⟨rx, linkReport c s, false⟩] }) s
  else s

/-- What a station sends in an allocation or grant of its own from a symbol on: a sounding that is due, then a block (R317, R322, R323). -/
def useAlloc (c : Chan) (i room : Nat) (use : BitVec 2) (rx : BitVec 7) (s : State) : State :=
  if use == 1 then sendData c i room rx true s
  else if due (plc c s).soundDue s && 4 ≤ room then sendSounding c i s
  else sendData c i room rx false (queueReport c rx s)

/-! ### Allocations (R322) -/

/-- Largest W of a channel now (Table 7.6). -/
def wLimit (p : PlcChan) : Nat := min (winMax p) (if 20000000 < p.halfCycle then 35 else 15)

/-- Bytes a beacon can carry behind `u` Urgent frames in a window of W symbols (R309). -/
def beaconRoom (w u : Nat) : Nat := (255 * (w - 3 - 2 * u) - 6) / 8

/-- The stations a beacon lists: every one whose STN is not merely reserved. -/
def liveStns (p : PlcChan) : List (BitVec 7) := (p.stations.filter fun x => x.reservedUntil.isNone).map (·.stn)

/-- Bytes of a beacon body with no allocation: header, records, check (Table 7.10). -/
def recordBytes (p : PlcChan) : Nat := 32 + 8 * ((liveStns p).length + 1) + 12 * (if p.role == 2 then 0 else p.chords.length)

/-- The allocations of a superframe, one a window (R322; their choice beyond the guarantee is the coordinator's, DESIGN CHOICE, log
entry 20): a join opportunity, class M from each station to the coordinator and back, then the ordered pairs of stations in turn; no
more than the beacon carries at the W in force, each as long as its window allows behind a relayed beacon. -/
def makeAllocs (w : Nat) (p : PlcChan) : List Alloc :=
  let stns := liveStns p
  let all := if p.stn == 0 then stns else p.stn :: stns
  let pairs := ((all.map fun a => (all.filter fun b => b != a).map fun b => (a, b)).flatten.map fun x =>
    [(x.1, x.2, (0 : BitVec 2)), (x.1, x.2, (1 : BitVec 2))]).flatten
  let skip := if pairs.isEmpty then 0 else p.sfNum.toNat * 30 % pairs.length
  let coord := if p.stn == 0 then [] else stns.flatMap fun a => [(a, p.stn, (0 : BitVec 2)), (p.stn, a, (0 : BitVec 2))]
  let list := (0, p.stn, (2 : BitVec 2)) :: coord ++ pairs.drop skip ++ pairs.take skip
  let chosen := list.take (min 31 ((beaconRoom p.w.toNat p.lead - recordBytes p) / 4))
  let syms := 2 + bodySymbols (recordBytes p + 4 * chosen.length)
  chosen.zipIdx.map fun x =>
    ⟨BitVec.ofNat 5 (x.2 + 1), 0,
      BitVec.ofNat 6 (min 34 (w - 1 - (if x.2 < (relaysOf p).length then syms else 0))), x.1.1, x.1.2.1, x.1.2.2⟩

/-! ### Links and chords (R330) -/

/-- A reported link, with its usability: from 160 bits per symbol on, until below 128. -/
def putLink (l : List PlcLink) (tx rx : BitVec 7) (loss : Byte) (b : Nat) : List PlcLink :=
  let was := l.any fun x => x.tx == tx && x.rx == rx && x.usable
  let n : PlcLink := ⟨tx, rx, loss, b, if was then decide (128 ≤ b) else decide (160 ≤ b)⟩
  if l.any fun x => x.tx == tx && x.rx == rx then l.map fun x => if x.tx == tx && x.rx == rx then n else x else l ++ [n]

/-- A link is usable. -/
def linkUsable (l : List PlcLink) (a b : BitVec 7) : Bool := l.any fun x => x.tx == a && x.rx == b && x.usable

/-- Path loss between two stations, 255 where none is reported. -/
def stnLoss (l : List PlcLink) (a b : BitVec 7) : Nat :=
  ((l.filter fun x => (x.tx == a && x.rx == b) || (x.tx == b && x.rx == a)).map fun x => x.loss.toNat).foldl min 255

/-- Stations appended one by one, the nearest to the last one first (R102 over single stations). -/
def lineOrder (l : List PlcLink) : Nat → BitVec 7 → List (BitVec 7) → List (BitVec 7)
  | 0, a, _ => [a]
  | k + 1, a, rest =>
    match rest.foldl (fun (m : Option (BitVec 7)) x =>
      match m with
      | some y => if stnLoss l a x < stnLoss l a y || (stnLoss l a x == stnLoss l a y && decide (x.toNat < y.toNat)) then some x else some y
      | none => some x) none with
    | some x => a :: lineOrder l k x (rest.filter fun y => y != x)
    | none => [a]

/-- The stations along the line: from one station of the pair with the greatest loss. -/
def stationLine (l : List PlcLink) (all : List (BitVec 7)) : List (BitVec 7) :=
  let pairs := (all.map fun a => all.map fun b => (a, b)).flatten.filter fun x => decide (x.1.toNat < x.2.toNat) && stnLoss l x.1 x.2 ≠ 255
  let best := pairs.foldl (fun (m : Option (BitVec 7 × BitVec 7)) x =>
    match m with
    | some y => if stnLoss l y.1 y.2 < stnLoss l x.1 x.2 then some x else some y
    | none => some x) none
  match best with
  | some x => lineOrder l all.length x.1 (all.filter fun y => y != x.1)
  | none => all

/-- The repeaters from a station to another along the line, at most 8; none where no station makes progress (R330). -/
def chordPath (l : List PlcLink) (order : List (BitVec 7)) (dst : BitVec 7) : Nat → BitVec 7 → Option (List (BitVec 7))
  | 0, a => if linkUsable l a dst then some [] else none
  | k + 1, a =>
    if linkUsable l a dst then some []
    else
      let pos := fun (x : BitVec 7) => order.idxOf x
      let between := order.filter fun x =>
        x != a && x != dst && linkUsable l a x
        && ((decide (pos a < pos x) && decide (pos x < pos dst)) || (decide (pos x < pos a) && decide (pos dst < pos x)))
      let dist := fun (x : BitVec 7) => max (pos x) (pos dst) - min (pos x) (pos dst)
      match between.foldl (fun (m : Option (BitVec 7)) x =>
        match m with
        | some y => if dist x < dist y || (dist x == dist y && decide (x.toNat < y.toNat)) then some x else some y
        | none => some x) none with
      | some x => (chordPath l order dst k x).map (x :: ·)
      | none => none

/-- Chords of the pairs whose direct link is reported and not usable, and the pairs that no chord reaches (R330; the coordinator counts
every such pair as one with traffic, log entry 20), as many as a beacon at the widest window can carry. Events 0x6040 and 0x6041 for
what is new. -/
def makeChords (c : Chan) (s : State) : State :=
  let p := plc c s
  if p.role != 1 then s
  else
    let all := (if p.stn == 0 then [] else [p.stn]) ++ liveStns p
    let order := stationLine p.links all
    let pairs := (all.map fun a => (all.filter fun b => b != a).map fun b => (a, b)).flatten.filter fun x =>
      !linkUsable p.links x.1 x.2 && (p.links.any fun l => l.tx == x.1 || l.rx == x.1) && (p.links.any fun l => l.tx == x.2 || l.rx == x.2)
    let paths := pairs.map fun x => (x, chordPath p.links order x.2 8 x.1)
    let room := (beaconRoom (wLimit p) 0 - 32 - 8 * all.length) / 12
    let chords : List Chord := (paths.filterMap fun x =>
      match x.2 with | some (r :: rs) => some ⟨x.1.1, x.1.2, r :: rs⟩ | _ => none).take room
    let bad := paths.filterMap fun x => if x.2.isNone then some x.1 else none
    let s1 := modPlc c (fun x => { x with chords := chords, unreach := bad }) s
    let s2 := (chords.filter fun k => !p.chords.contains k).foldl
      (fun t k => raise 0x6040 (d1 c.val ++ d1 k.orig.toNat ++ d1 k.dst.toNat ++ d1 k.reps.length) t) s1
    (bad.filter fun k => !p.unreach.contains k).foldl
      (fun t k => raise 0x6041 (d1 c.val ++ d1 k.1.toNat ++ d1 k.2.toNat ++ d1 0) t) s2

/-! ### Beacons, relays, polls and joins (R309, R322 to R326, R329) -/

/-- The new W a beacon sets, which the window after it, or this one, takes; a window centred on a crossing moves by 90 µs for each symbol
(R300, R301). -/
def takeW (w : BitVec 6) (p : PlcChan) : PlcChan :=
  let old := p.nextW.getD p.w
  let moved : Int := if p.synth then 0 else 90000 * ((old.toNat : Int) - (w.toNat : Int))
  let q := { p with winAt := ((p.winAt : Int) + moved).toNat }
  if p.winIdx == 0 then { q with nextW := some w } else { q with w := w }

/-- The header and records of a beacon body (Tables 7.10 to 7.12): W from window 1 on, the pointer of window 0, the relay index, train
time at the first sample of SYNC. -/
def beaconBody (c : Chan) (w : Nat) (uPtr : BitVec 7) (relay time : Nat) (s : State) : List Byte :=
  let p := plc c s
  let line := if p.line == .dc then 2 else 1
  let poll := p.role == 2
  let live := p.stations.filter fun x => x.reservedUntil.isNone
  let own : List Station := if p.stn == 0 then [] else [⟨p.stn, vkey s, laneNbrNow s, false, 0, none⟩]
  let records := own ++ live
  let allocs := if poll then [] else p.allocs
  let chords := if poll then [] else p.chords
  let h := toBE 6 (vkey s).toNat ++ toBE 2 p.sfNum.toNat ++ toBE 8 time
    ++ toBE 1 (p.access.toNat * 64 + line * 16 + bit s.bbn.timeValid * 8 + bit (laneNbrNow s) * 4)
    ++ toBE 1 w ++ toBE 1 uPtr.toNat ++ toBE 1 relay ++ toBE 1 allocs.length ++ toBE 1 records.length ++ toBE 1 chords.length
    ++ [0, 0, 0, 0, 0]
  let al := (allocs.map fun a => toBE 4 (a.win.toNat * 2 ^ 27 + a.start.toNat * 2 ^ 22 + a.len.toNat * 2 ^ 16 + a.tx.toNat * 2 ^ 9
    + a.rx.toNat * 4 + a.use.toNat)).flatten
  let st := (records.map fun x => toBE 1 x.stn.toNat ++ toBE 6 x.key.toNat
    ++ toBE 1 (bit x.laneNbr * 128 + bit x.leaving * 64)).flatten
  let ch := (chords.map fun x => toBE 1 x.orig.toNat ++ toBE 1 x.dst.toNat ++ toBE 1 x.reps.length
    ++ x.reps.map (fun r => BitVec.ofNat 8 r.toNat) ++ List.replicate (9 - x.reps.length) 0).flatten
  let b := h ++ al ++ st ++ ch
  b ++ toBE 4 (crc32c b).toNat

/-- The beacon as a relay sends it: its index, its own time, the rest as it came (R329). -/
def relayBody (i time : Nat) (b : List Byte) : List Byte :=
  let n := b.length - 4
  let x := b.take 8 ++ toBE 8 time ++ slice b 16 3 ++ toBE 1 i ++ (b.take n).drop 20
  x ++ toBE 4 (crc32c x).toNat

/-- A coordinator that has lost stops beaconing: event 0x6021; it listens for the other (R326). -/
def resign (c : Chan) (winner : Key) (s : State) : State :=
  raise 0x6021 (d1 c.val ++ d6 winner)
    (modPlc c (fun p => { p with role := 0, stn := 0, ownStn := 0, resignTo := none, access := 0, att := .listening, coord := winner, joinIn := none,
                                 stations := [], chords := [], allocs := [], links := [], unreach := [], lastBeacon := s.now }) s)

/-- A superframe begins: duty, a beacon missed, reservations that have ended, nothing left of the last superframe's allocations; a
coordinator that has lost resigns (R309, R324, R326, R339, Table 7.15). -/
def newSuperframe (c : Chan) (s : State) : State :=
  let p := plc c s
  let s1 := modPlc c (fun x =>
    { x with lastDuty := BitVec.ofNat 8 (sat 255 (x.symbols * 100 / (32 * max 1 x.w.toNat))), symbols := 0, reported := false,
             gotBeacon := false, bcnSyms := 0, bcnBody := [], allocs := [], freeAllocs := [],
             cntBeaconMiss := if x.role == 0 && x.att == .associated && !x.gotBeacon then x.cntBeaconMiss + 1 else x.cntBeaconMiss,
             stations := x.stations.filter fun y => match y.reservedUntil with | some t => decide (s.now < t) | none => true }) s
  match p.resignTo with
  | some k => if p.role == 0 then s1 else resign c k s1
  | none => s1

/-- A coordinator is a station of its own channel from the beacon on that first lists it (R325). -/
def ownAssociates (c : Chan) (s : State) : State :=
  let p := plc c s
  if p.stn == 0 && p.ownStn != 0 then
    raise 0x6001 (d1 c.val ++ d1 p.ownStn.toNat)
      (modPlc c (fun x => { x with stn := x.ownStn, att := .associated, soundDue := some (s.now + sec (tmRefresh x)) }) s)
  else s

/-- The beacon or poll-sync of window 0, where its records fit behind the Urgent lead (R301, R309, R321 to R323, R338). -/
def sendBeacon (c : Chan) (uPtr : BitVec 7) (s : State) : State :=
  if (plc c s).role == 0 then s
  else
    let s1 := match s.bbn.setRef.find? fun x => x.settleBy.isNone && !isReference s with
      | some x => applySet x s
      | none => s
    let s2 := makeChords c (ownAssociates c s1)
    let w := wLimit (plc c s2)
    let s3 := modPlc c (fun x =>
      let y := { x with sfNum := x.sfNum + 1, coordLaneNbr := laneNbrNow s2 }
      takeW (BitVec.ofNat 6 w) { y with allocs := if y.role == 1 then makeAllocs w y else [] }) s2
    let p := plc c s3
    let at_ := 1 + 2 * p.lead
    let body := beaconBody c w uPtr 0 (timeAt (symbolAt p at_) s3) s3
    let frame := frameHead (fcHead (if p.role == 1 then 3 else 4) p.stn.toNat 127) ++ bodyPart body
    if p.w.toNat < at_ + frame.length then s3
    else plcSend c at_ frame (modPlc c (fun x => { x with bcnSyms := frame.length, bcnBody := body }) s3)

/-- A relay repeats the beacon in its window, where that still fits (R329). -/
def relayBeacon (c : Chan) (s : State) : State :=
  let p := plc c s
  let i := p.winIdx.toNat
  let at_ := 1 + 2 * p.lead
  if p.role != 0 || p.stn == 0 || i = 0 || (relaysOf p)[i - 1]? != some p.stn || p.bcnBody.isEmpty || p.w.toNat < at_ + p.bcnSyms then s
  else plcSend c at_ (frameHead (fcHead 3 p.stn.toNat 127) ++ bodyPart (relayBody i (timeAt (symbolAt p at_) s) p.bcnBody)) s

/-- The lowest STN that is free. -/
def freeStn (p : PlcChan) : Option (BitVec 7) :=
  ((List.range 126).map fun i => BitVec.ofNat 7 (i + 1)).find? fun (n : BitVec 7) =>
    n != p.stn && n != p.ownStn && !(p.stations.any fun x => x.stn == n)

/-- The join frame, from a symbol on (R325); a coordinator that joins its own channel gives itself the lowest STN (log entry 20). -/
def sendJoin (c : Chan) (i : Nat) (s : State) : State :=
  let p := plc c s
  let body := toBE 6 (vkey s).toNat ++ toBE 1 (bit (coordOkCfg p) * 128 + bit (laneNbrNow s) * 64)
  plcSend c i (frameHead (fcHead 8 0 127) ++ bodyPart body)
    (modPlc c (fun x => { x with joinIn := none, ownStn := if x.role == 0 then 0 else (freeStn x).getD 0 }) s)

/-- A join opportunity: the one this vertex chose, or one it lets pass (R325). -/
def joinChance (c : Chan) (i room : Nat) (s : State) : State :=
  match (plc c s).joinIn with
  | some 0 => if room < 3 then s else sendJoin c i s
  | some (k + 1) => modPlc c (fun p => { p with joinIn := some k }) s
  | none => s

/-- A poll: an FC-only frame with a slave and the symbols it may answer with (R323). A poll of STN 0 is a join opportunity, the master's
own too. -/
def sendPoll (c : Chan) (slave : BitVec 7) (s : State) : State :=
  let p := plc c s
  let at_ := dataStart p
  let grant := min 34 (p.w.toNat - at_ - 3)
  if p.w.toNat < at_ + 2 then s
  else
    let s1 := plcSend c at_ (frameHead (fcHead 6 p.stn.toNat slave.toNat + fcField 34 6 grant)) s
    if slave == 0 then joinChance c (at_ + 3) grant s1 else s1

/-- What a polling master has to send itself: a block under way, a control message, a frame; its receiver and DEPTH. -/
def masterOwes (p : PlcChan) : Option (BitVec 7 × Bool) :=
  match p.blocks.head?, p.ctlQ.head?, p.dataQ.head? with
  | some k, _, _ => some (k.rx, k.deep)
  | none, some m, _ => some (m.rx, false)
  | none, none, some d => some (d.hop, d.deep)
  | none, none, none => none

/-- The data part of a polling master: STN 0 in window 1, each slave in turn, then frames of its own where it has some, else the slaves
again (R323; where it sends its own frames the spec does not say, DESIGN CHOICE, log entry 20). -/
def masterPart (c : Chan) (s : State) : State :=
  let p := plc c s
  let live := liveStns p
  let i := p.winIdx.toNat - 1
  let slave : BitVec 7 := if i = 0 || live.isEmpty then 0 else live.getD ((i - 1) % live.length) 0
  let at_ := dataStart p
  let room := p.w.toNat - at_
  if i ≤ live.length || p.stn == 0 then sendPoll c slave s
  else if due p.soundDue s && 4 ≤ room then sendSounding c at_ s
  else match masterOwes p with
    | some x => sendData c at_ room x.1 x.2 s
    | none => sendPoll c slave s

/-! ### Windows (R306) -/

/-- The data part of windows 1 to 31: allocations or polls, behind the Urgent lead and a relayed beacon; nothing passes the window's end
(R302, R321 to R323). Allocations of class M in which nothing was sent are noted for a sounding. -/
def dataPart (c : Chan) (s : State) : State :=
  let p := plc c s
  if p.role == 2 then masterPart c s
  else
    (p.allocs.filter fun a => a.win == p.winIdx).foldl (fun t a =>
      let i := dataStart p + a.start.toNat
      let room := min a.len.toNat (p.w.toNat - i)
      if a.use == 2 then joinChance c i room t
      else if a.tx == p.stn && p.stn != 0 then
        let u := useAlloc c i room a.use a.rx t
        if (plc c u).cntFramesTx == (plc c t).cntFramesTx && a.use == 0 then
          modPlc c (fun x => { x with freeAllocs := x.freeAllocs ++ [a] }) u
        else u
      else t) s

/-- A window opens: its index, its start, the W in force; the next one follows a half-cycle later (R300, R301). -/
def openWindow (p : PlcChan) : PlcChan :=
  let idx := p.winIdx + 1
  { p with winIdx := idx, winStart := p.winAt, winAt := p.winAt + p.halfCycle, winCount := p.winCount + 1, missing := p.missing + 1, lead := 0,
           freeAllocs := [], w := if idx == 1 then p.nextW.getD p.w else p.w, nextW := if idx == 1 then none else p.nextW }

/-- Priority resolution and the Urgent lead; `asserted` are the other stations whose tones are heard (R306, R319, R320). -/
def urgentLead (c : Chan) (asserted : List (BitVec 7)) (s : State) : State :=
  let p := plc c s
  let mine := urgentDue p
  let win := winnersOf (if mine then p.stn :: asserted else asserted) p.rotation (uMaxOf p.w)
  let s1 := if mine then plcEmit c 0 [prsSymbol p.stn] s else s
  let s2 := if mine && win.contains p.stn then sendPlcUrgent c (win.idxOf p.stn) s1 else s1
  modPlc c (fun x => { x with lead := win.length, rotation := match win.getLast? with
    | some l => if l.toNat = 126 then 1 else l + 1
    | none => x.rotation }) s2

/-- A window begins (R306): priority resolution and the Urgent lead, then the beacon, a relayed beacon, or the data part. A window that has
passed before its start is noticed is not used (R302). -/
def windowStart (c : Chan) (asserted : List (BitVec 7)) (s : State) : State :=
  let p := plc c s
  if !plcRuns c s || p.att == .locking || s.now < p.winAt then s
  else
    let s1 := modPlc c openWindow s
    let s2 := if (plc c s1).winIdx == 0 then newSuperframe c s1 else s1
    let s3 := if (plc c s2).synth then wakeOut c none s2 else s2
    let q := plc c s3
    if symbolAt q q.w.toNat ≤ s.now then s3
    else
      let s4 := urgentLead c asserted s3
      if q.winIdx == 0 then sendBeacon c q.rotation s4
      else
        let s5 := relayBeacon c s4
        if q.att == .associated || q.role != 0 || q.joinIn.isSome then dataPart c s5 else s5

/-- A sounding that is due leaves in a class M allocation of this window that has not been used and has not begun (R302, R317); else it
waits for the next one. -/
def soundingDue (c : Chan) (s : State) : State :=
  let p := plc c s
  let i := fun (a : Alloc) => dataStart p + a.start.toNat
  match p.freeAllocs.find? fun a => decide (s.now ≤ symbolAt p (i a)) && decide (4 ≤ min a.len.toNat (p.w.toNat - i a)) with
  | some a =>
    if p.att == .associated && due p.soundDue s then
      sendSounding c (i a) (modPlc c (fun x => { x with freeAllocs := x.freeAllocs.erase a }) s)
    else s
  | none => s

/-! ### Meanings -/

/-- R306. -/
def execPlcWindowStart (ch : Chan) (asserted : List (BitVec 7)) (s : State) : Out := .next (windowStart ch asserted s)
/-- R317. -/
def execSoundingSend (ch : Chan) (s : State) : Out := .next (soundingDue ch s)

end Sys2Proof.Machine
end

