-- ==== Sys2Proof/Machine/PowerLine.lean ====
section
/-! DEFINITION. What a power-line station receives (R305 to R339): Urgent frames, beacons and the station's membership, joins, polls,
blocks and segments, sounding and tone maps, link reports, train time by beacon. -/
namespace Sys2Proof.Machine

/-! ### Frames -/

/-- A frame with a good FC has been decoded (R294, Table 7.18). -/
def decodedSome (c : Chan) (s : State) : State :=
  modPlc c (fun p => { p with cntFramesRx := p.cntFramesRx + 1, lastFrame := s.now }) s

/-- A station has been heard (R324). -/
def heardStn (c : Chan) (stn : BitVec 7) (s : State) : State :=
  modPlc c (fun p => { p with stations := p.stations.map fun x =>
    if x.stn == stn then { x with lastHeard := s.now } else x }) s

/-- What is done with a frame of one of the given types whose FC holds and whose reserved bits are 0, on a channel that runs (R307,
Table 7.9); it counts as decoded, and its transmitter as heard. -/
def plcTyped (c : Chan) (fc : BitVec 121) (types : List Nat) (reserved : Nat) (f : BitVec 105 → State → State) (s : State) : State :=
  if !plcRuns c s then s
  else match fcRead fc with
    | none => s
    | some x =>
      let s1 := heardStn c (BitVec.ofNat 7 (fcGet x 4 7)) (decodedSome c s)
      if types.contains (fcGet x 0 4) && fcGet x reserved (105 - reserved) = 0 then f x s1 else s1

/-- TX_STN and DST_STN of a frame control. -/
def fcTx (x : BitVec 105) : BitVec 7 := BitVec.ofNat 7 (fcGet x 4 7)
def fcDst (x : BitVec 105) : BitVec 7 := BitVec.ofNat 7 (fcGet x 11 7)

/-! ### Urgent frames (R308, R331) -/

/-- The native frame an Urgent frame carries, from its FC fields and the bytes of its payload. -/
def urgentNative (c : Chan) (x : BitVec 105) (payload : List Byte) (s : State) : Option NatFrame :=
  let g := fun (a w : Nat) => fcGet x a w
  let keyOf := fun (n : Nat) => if n = (plc c s).stn.toNat then some (vkey s)
    else ((plc c s).stations.find? fun y => y.stn.toNat == n).map (·.key)
  match keyOf (g 18 7), keyOf (g 11 7) with
  | some src, some dst =>
    if 30 < g 95 5 then none
    else some
      { cls := 0, raw := false, lane := false, pcp := s.tc.pcpU, sync := g 93 1 == 1, retx := g 94 1 == 1,
        epoch := BitVec.ofNat 16 (g 29 16), src := src, dst := dst, srcCqp := BitVec.ofNat 10 (g 45 10),
        dstCqp := BitVec.ofNat 10 (g 55 10), label := BitVec.ofNat 12 (g 65 12), fseq := BitVec.ofNat 16 (g 77 16),
        payload := payload.take (g 95 5) }
  | _, _ => none

/-- This station repeats the frames of a chord behind the station `tx` (R331); a polling master repeats once (R323). -/
def repeats (c : Chan) (orig dst tx : BitVec 7) (hops : Nat) (s : State) : Bool :=
  let p := plc c s
  if p.access == 2 then p.role == 2 && hops == 0 && dst != p.stn
  else p.chords.any fun x => x.orig == orig && x.dst == dst && x.reps[hops]? == some p.stn && (orig :: x.reps)[hops]? == some tx

/-- The 30 bytes of an Urgent payload, none where its CRC-8 or its last bit is wrong (R308). -/
def urgentBytes (pay : BitVec 249) : Option (List Byte) :=
  let b := toBE 31 (pay.toNat / 2)
  if pay.getLsbD 0 then none
  else if crc8 (b.take 30) == b.getD 30 0 then some (b.take 30) else none

/-- An Urgent frame (R308, R331): delivered, or repeated two windows later. -/
def urgentIn (c : Chan) (fc : BitVec 121) (pay : BitVec 249) (s : State) : State :=
  plcTyped c fc [1] 100 (fun x t =>
    match urgentBytes pay with
    | none => t
    | some b =>
      match urgentNative c x b t with
      | none => t
      | some f =>
        let orig : BitVec 7 := BitVec.ofNat 7 (fcGet x 18 7)
        let hops := fcGet x 25 4
        if fcDst x == (plc c t).stn then deliverPlc c f t
        else if repeats c orig (fcDst x) (fcTx x) hops t then
          modPlc c (fun p => { p with urgents := p.urgents ++ [⟨f, hops + 1, orig, fcDst x, p.winCount + 2, none⟩] }) t
        else t) s

/-! ### Beacons (R309, R325 to R329, R336 to R338) -/

/-- A parsed beacon or poll-sync. -/
structure Beacon where
  coord : Key
  sf : Half
  time : Nat
  access : BitVec 2
  timeValid : Bool
  laneNbr : Bool
  w : BitVec 6
  uPtr : BitVec 7
  relay : Nat
  allocs : List Alloc
  stations : List Station
  chords : List Chord
  deriving DecidableEq, Repr

/-- Items of `n` bytes each, `k` of them. -/
def cutItems : Nat → Nat → List Byte → List (List Byte)
  | 0, _, _ => []
  | k + 1, n, b => b.take n :: cutItems k n (b.drop n)

/-- A beacon body, none where its CRC-32C, a reserved encoding or a count is wrong (Table 7.10). -/
def readBeacon (b : List Byte) : Option Beacon :=
  let na := byteAt b 20
  let ns := byteAt b 21
  let nc := byteAt b 22
  let n := 28 + 4 * na + 8 * ns + 12 * nc
  let f := byteAt b 16
  if b.length ≠ n + 4 || toBE 4 (crc32c (b.take n)).toNat != b.drop n then none
  else if byteAt b 17 < 5 || 35 < byteAt b 17 || f / 64 = 0 || f / 64 = 3 || f / 16 % 4 = 0 || f / 16 % 4 = 3 || 8 < byteAt b 19 || beAt b 0 6 = 0 then none
  else some
    { coord := mkKey (beAt b 0 6), sf := BitVec.ofNat 16 (beAt b 6 2), time := beAt b 8 8, access := BitVec.ofNat 2 (f / 64),
      timeValid := bitOf f 3, laneNbr := bitOf f 2, w := BitVec.ofNat 6 (byteAt b 17), uPtr := BitVec.ofNat 7 (byteAt b 18),
      relay := byteAt b 19,
      allocs := (cutItems na 4 (b.drop 28)).map fun x =>
        let v := beAt x 0 4
        ⟨BitVec.ofNat 5 (v / 2 ^ 27), BitVec.ofNat 5 (v / 2 ^ 22), BitVec.ofNat 6 (v / 2 ^ 16), BitVec.ofNat 7 (v / 2 ^ 9),
          BitVec.ofNat 7 (v / 4), BitVec.ofNat 2 v⟩,
      stations := (cutItems ns 8 (b.drop (28 + 4 * na))).map fun x =>
        ⟨BitVec.ofNat 7 (byteAt x 0), mkKey (beAt x 1 6), bitOf (byteAt x 7) 7, bitOf (byteAt x 7) 6, 0, none⟩,
      chords := (cutItems nc 12 (b.drop (28 + 4 * na + 8 * ns))).map fun x =>
        ⟨BitVec.ofNat 7 (byteAt x 0), BitVec.ofNat 7 (byteAt x 1),
          (slice x 3 (min 8 (byteAt x 2))).map fun r => BitVec.ofNat 7 r.toNat⟩ }

/-- This vertex takes its time from beacons: no lane port gives it (R186, R337). -/
def timeByBeacon (s : State) : Bool :=
  let e : End := if s.rlv.refEnd.toNat = 2 then .e2 else .e1
  !s.bbn.gm && (s.rlv.plcOnly || !(spanIsUp .a e s || spanIsUp .b e s))

/-- Time from a beacon, by the receiver's own time stamp of its SYNC: the first beacon of a source sets train time, later ones slew it by
at most 5 µs a superframe (R336, R337); a difference of half a step of R189 or more is a step of the source, taken at the next cycle
boundary (R188; that a beacon tells a step so is DEDUCED, log entry 30). -/
def beaconTime (c : Chan) (b : Beacon) (syncAt : Ns) (s : State) : State :=
  if !timeByBeacon s then modPlc c (fun p => { p with timeSrc := false }) s
  else
    let diff : Int := (b.time : Int) - (timeAt syncAt s : Int)
    let first := (plc c s).firstBeacon || !(plc c s).timeSrc
    let stepped_ := decide (500000 ≤ diff.natAbs)
    let s1 := { s with plc := s.plc.map fun p => { p with timeSrc := false },
                       bbn.lastSync := some s.now, bbn.firstSync := false, bbn.offset := BitVec.ofInt 32 (-diff),
                       bbn.syncOk := decide (diff.natAbs ≤ 20000) }
    let s2 := modPlc c (fun p => { p with timeSrc := true, firstBeacon := false }) s1
    let s3 := correct (if first || stepped_ then diff else clampNs (-5000) 5000 diff) (first || stepped_) (stepped_ && !first) s2
    if b.timeValid then timeIsValid s3 else s3

/-- The stations of a beacon, and since when it names this vertex (R101); keys it names count as heard (R100, R328). -/
def beaconStations (c : Chan) (b : Beacon) (s : State) : State :=
  let named := b.stations.any fun x => x.key == vkey s
  corroborate (modPlc c (fun p =>
    let keys := b.coord :: b.stations.map (·.key)
    { p with
      stations := (b.stations.filter fun x => x.key != vkey s).map fun x => { x with lastHeard := s.now },
      namedSince := if named then some (p.namedSince.getD s.now) else none,
      heard := (keys.filter fun k => k != vkey s).eraseDups.map fun k =>
        match p.heard.find? fun h => h.1 == k with | some h => h | none => (k, s.now) }) s)

/-- Associates, joins or listens on, by what a beacon says of this vertex (R325, R327). -/
def beaconMembership (c : Chan) (b : Beacon) (s : State) : State :=
  let p := plc c s
  if b.access.toNat ≠ plcAccess p then
    let s1 := modPlc c (fun x => { x with mismatchNoted := true, access := 0, stn := 0, joinIn := none,
                                          att := if x.att == .associated then .listening else x.att }) s
    if p.mismatchNoted then s1 else raise 0x6022 (d1 c.val) s1
  else
    let s0 := modPlc c (fun x => { x with access := b.access, mismatchNoted := false }) s
    match b.stations.find? fun x => x.key == vkey s with
    | some me =>
      let s1 := modPlc c (fun x => { x with att := .associated, stn := me.stn, joinIn := none, soundDue := some (x.soundDue.getD s.now) }) s0
      if p.att == .associated && p.stn == me.stn then s1 else raise 0x6001 (d1 c.val ++ d1 me.stn.toNat) s1
    | none =>
      let s1 := if p.att == .associated then modPlc c (fun x => { x with att := .listening, stn := 0 }) s0 else s0
      if (plc c s1).joinIn.isSome then s1 else chooseJoin c s1

/-- The other coordinator wins (R326). -/
def otherWins (b : Beacon) (s : State) : Bool :=
  (b.laneNbr && !laneNbrNow s) || (b.laneNbr == laneNbrNow s && decide (b.coord.toNat < (vkey s).toNat))

/-- Path loss to a station as it is known, 0xFF where it is not. -/
def lossTo (c : Chan) (stn : BitVec 7) (s : State) : Nat :=
  match (plc c s).nbrs.find? fun n => n.stn == stn with | some n => n.loss.toNat | none => 0xFF

/-- The windows of a line without crossings take their phase from a beacon: it begins behind the Urgent lead of its window (R300). -/
def synthPhase (syncAt : Ns) (p : PlcChan) : PlcChan :=
  if !p.synth then p
  else
    let start := syncAt - symbolNs * (1 + 2 * p.lead)
    { p with winStart := start, winAt := start + p.halfCycle }

/-- What the first copy of a superframe's beacon settles: index, phase, W, rotation, allocations, chords (R300, R301, R309, R320, R322);
the pointer holds where no winner of window 0 has moved it on. -/
def takeBeacon (c : Chan) (b : Beacon) (body : List Byte) (syncAt : Ns) (s : State) : State :=
  modPlc c (fun x =>
    let y := synthPhase syncAt { x with winIdx := BitVec.ofNat 5 b.relay }
    takeW b.w { y with coord := b.coord, coordLaneNbr := b.laneNbr, sfNum := b.sf,
                       rotation := if b.relay = 0 && x.lead = 0 then b.uPtr else x.rotation, allocs := b.allocs, chords := b.chords,
                       gotBeacon := true, lastBeacon := s.now, bcnBody := body, bcnSyms := 2 + bodySymbols body.length }) s

/-- The copy of a beacon is from the sender this station takes time through, or from a nearer one: one with less path loss, or any where
nothing has come from that sender for a superframe (R329). -/
def nearestCopy (c : Chan) (tx : BitVec 7) (s : State) : Bool :=
  let p := plc c s
  tx == p.bcnStn || decide (lossTo c tx s < lossTo c p.bcnStn s) || decide (p.lastBeacon + superframe p < s.now) || p.bcnStn == 0

/-- A beacon or poll-sync is decoded, from the coordinator or a relay (R309, R320, R325 to R329). -/
def beaconIn (c : Chan) (fc : BitVec 121) (body : List Byte) (syncAt : Ns) (s : State) : State :=
  plcTyped c fc [3, 4] 18 (fun x t =>
    let p := plc c t
    if p.att == .locking then t
    else match readBeacon body with
      | none => t
      | some b =>
        let poll := fcGet x 0 4 == 4
        if poll && !(b.allocs.isEmpty && b.chords.isEmpty) || (poll != (b.access == 2)) then t
        else if p.role != 0 then
          (if b.coord != vkey t && otherWins b t then modPlc c (fun y => { y with resignTo := some b.coord }) t else t)
        else
          let tx := fcTx x
          let near := nearestCopy c tx t
          let t1 := if p.gotBeacon && p.coord == b.coord then t else beaconStations c b (takeBeacon c b body syncAt t)
          if !near then t1
          else
            let t2 := modPlc c (fun y => { y with bcnStn := tx, firstBeacon := y.firstBeacon || y.bcnStn != tx }) t1
            beaconTime c b syncAt (beaconMembership c b t2)) s

/-- No beacon for 3 superframes and the further 2 + (key mod 32): a new candidate (R326). -/
def beaconLossEnd (c : Chan) (s : State) : State :=
  let p := plc c s
  if p.role == 0 && (p.att == .associated || p.att == .listening)
      && decide (p.lastBeacon + (3 + 2 + (vkey s).toNat % 32) * superframe p ≤ s.now) then
    candidate c (modPlc c (fun x => { x with coord := 0, stations := [], heard := [], namedSince := none, timeSrc := false, bcnStn := 0,
                                             lastBeacon := s.now }) s)
  else s

/-! ### Stations (R323 to R325) -/

/-- A station silent for 3 superframes loses its association; its STN stays reserved 10 s (R324). -/
def stationSilent (c : Chan) (stn : BitVec 7) (s : State) : State :=
  let p := plc c s
  match p.stations.find? fun x => x.stn == stn && x.reservedUntil.isNone with
  | some x =>
    if p.role != 0 && x.lastHeard + 3 * superframe p ≤ s.now then
      raise 0x6023 (d1 c.val ++ d1 stn.toNat)
        (modPlc c (fun y => { y with
          stations := y.stations.map fun z => if z.stn == stn then { z with reservedUntil := some (s.now + sec 10) } else z,
          heard := y.heard.filter fun h => h.1 != x.key,
          links := y.links.filter fun l => l.tx != stn && l.rx != stn }) s)
    else s
  | none => s

/-- The most stations a channel takes on: what a polling master can poll each superframe (R323), and what a beacon can list at the
widest window (DESIGN CHOICE, log entry 20). -/
def mostStations (p : PlcChan) : Nat :=
  let listed := (beaconRoom (wLimit p) 0 - 40) / 8
  if p.role == 2 then min 30 listed else min 125 listed

/-- A join: the STN reserved for the key, else the lowest free one (DESIGN CHOICE, log entry 20); a key the station list holds counts as
heard (R328). A polling master refuses what it could not poll each superframe (R323 to R325). -/
def joinIn (c : Chan) (fc : BitVec 121) (key : Key) (flags : Byte) (s : State) : State :=
  plcTyped c fc [8] 18 (fun _ t =>
    let p := plc c t
    let lane := flags.getLsbD 6
    let hear := fun (y : PlcChan) => if y.heard.any fun h => h.1 == key then y.heard else y.heard ++ [(key, s.now)]
    if p.role == 0 || key == 0 || key == vkey s || flags.toNat % 64 ≠ 0 then t
    else match p.stations.find? fun x => x.key == key with
      | some x =>
        corroborate (modPlc c (fun y => { y with heard := hear y, stations := y.stations.map fun z =>
          if z.stn == x.stn then { z with laneNbr := lane, reservedUntil := none, lastHeard := s.now } else z }) t)
      | none =>
        match freeStn p with
        | some n =>
          if mostStations p ≤ (liveStns p).length then (if p.role == 2 then raise 0x6024 (d1 c.val ++ d6 key) t else t)
          else corroborate (modPlc c (fun y => { y with heard := hear y, stations := y.stations ++ [⟨n, key, lane, false, s.now, none⟩] }) t)
        | none => t) s

/-- A poll for this slave, or for STN 0: the answer begins one symbol after its FC, and neither passes the grant nor the window (R302,
R323). -/
def pollIn (c : Chan) (fc : BitVec 121) (syncAt : Ns) (s : State) : State :=
  plcTyped c fc [6] 40 (fun x t =>
    let p := plc c t
    let i := (syncAt + symbolNs / 2 - p.winStart) / symbolNs + 3
    let room := min (fcGet x 34 6) (p.w.toNat - i)
    if p.access != 2 || p.role != 0 || fcGet x 18 16 ≠ 0 || syncAt < p.winStart || symbolAt p i < t.now then t
    else if fcDst x == 0 then (if p.stn == 0 then joinChance c i room t else t)
    else if fcDst x != p.stn then t
    else
      let m := coordStn p
      let t1 := queueReport c m t
      let q := plc c t1
      let shallow := !q.ctlQ.isEmpty || due q.soundDue t1 || (q.dataQ.any fun d => !d.deep) || (q.blocks.any fun k => !k.deep)
      useAlloc c i room (if shallow then 0 else 1) m t1) s

/-! ### Received data, sounding and control (R311 to R317) -/

/-- The neighbour entry of a station. -/
def nbrOf (c : Chan) (stn : BitVec 7) (s : State) : PlcNbr :=
  match (plc c s).nbrs.find? fun n => n.stn == stn with
  | some n => n
  | none => ⟨stn, [], [], false, [], [], false, false, 0xFF, 0⟩

/-- A neighbour's entry, changed. -/
def putNbr (c : Chan) (n : PlcNbr) (s : State) : State :=
  modPlc c (fun p => { p with nbrs := (p.nbrs.filter fun x => x.stn != n.stn) ++ [n] }) s

/-- The stream of an arriving block at the end of what was put together of it. -/
def dropPartial (k : PlcStream) (c : Chan) (s : State) : State :=
  modPlc c (fun p => { p with partial_ := p.partial_.filter fun x => x.1 != k }) s

/-- A frame over the power line: to this vertex, or on along its chord where the station before this one on it has sent it (R331). -/
def plcFrame (c : Chan) (tx : BitVec 7) (b : List Byte) (s : State) : State :=
  match decodeNatBytes b with
  | none => s
  | some f =>
    if f.dst == vkey s || f.dst == allKey || f.dst == spanKey then deliverPlc c f s
    else
      let p := plc c s
      let stnOf := fun (k : Key) => if k == vkey s then some p.stn else (p.stations.find? fun x => x.key == k).map (·.stn)
      match stnOf f.src, stnOf f.dst with
      | some o, some d =>
        if p.access == 2 then (if p.role == 2 && o == tx then plcQueue c d f none none s else s)
        else match p.chords.find? fun x => x.orig == o && x.dst == d && x.reps.contains p.stn with
          | some x =>
            let i := x.reps.idxOf p.stn
            if (o :: x.reps)[i]? == some tx then plcQueue c (x.reps.getD (i + 1) d) f none none s else s
          | none => s
      | _, _ => s

/-- A segment joins the frame of its stream, and passes on a frame that is whole; a missing one takes its frame with it (R312). -/
def takeSegment (c : Chan) (k : PlcStream) (g : Option (Bool × Bool × List Byte)) (s : State) : State :=
  match g with
  | none => dropPartial k c s
  | some (first, last, b) =>
    let old := ((plc c s).partial_.find? fun x => x.1 == k).map (·.2)
    let s1 := dropPartial k c s
    match if first then some b else old.map (· ++ b) with
    | none => s1
    | some all => if last then plcFrame c k.tx all s1 else modPlc c (fun p => { p with partial_ := p.partial_ ++ [(k, all)] }) s1

/-- The data of a decoded block: counted, descrambled, its segments put together (R311, R312). -/
def takeBlock (c : Chan) (k : PlcStream) (words : List CodewordRx) (s : State) : State :=
  let bad := words.map fun w => w.corrected.isNone
  let fixed := (words.map fun w => w.corrected.getD 0).sum
  let plain := scramble (words.map (·.data)).flatten
  (readSegments bad plain (plain.length / 3 + 1) 0).foldl (fun t g => takeSegment c k g t)
    (modPlc c (fun p => { p with cntRsUncorr := p.cntRsUncorr + BitVec.ofNat 32 (bad.filter id).length,
                                 cntRsCorr := p.cntRsCorr + BitVec.ofNat 32 fixed }) s)

/-- An early refresh is asked for: the second block in a row with a codeword RS cannot correct, or more than 8 bytes corrected per
codeword on average (R317). -/
def askEarly (c : Chan) (tx : BitVec 7) (words : List CodewordRx) (s : State) : State :=
  let n := nbrOf c tx s
  let bad := words.any fun w => w.corrected.isNone
  let fixed := (words.map fun w => w.corrected.getD 0).sum
  let n1 := { n with badBlocks := if bad then n.badBlocks + 1 else 0 }
  if 2 ≤ n1.badBlocks || 8 * words.length < fixed then
    raise 0x6031 (d1 c.val ++ d1 tx.toNat ++ d2 ((rxMapNew n).map toneBits).sum)
      (modPlc c (fun p => { p with ctlQ := p.ctlQ ++ [⟨tx, [], false⟩], cntTmEarly := p.cntTmEarly + 1 }) (putNbr c { n1 with badBlocks := 0 } s))
  else putNbr c n1 s

/-- A block number missing between two blocks of a stream ends the frame under way (R312). -/
def noteBsn (c : Chan) (k : PlcStream) (bsn : Byte) (s : State) : State :=
  let last := ((plc c s).rxBsn.find? fun x => x.1 == k).map (·.2)
  let s1 := modPlc c (fun x => { x with rxBsn := (x.rxBsn.filter fun y => y.1 != k) ++ [(k, bsn)] }) s
  if match last with | some b => bsn != b + 1 | none => false then dropPartial k c s1 else s1

/-- A slice, and with the last one of its block the block: it came with the robust map, or with a map this station has returned, which is
from then on the one in use (R310, R316). -/
def sliceIn (c : Chan) (x : BitVec 105) (block : Option (List CodewordRx)) (s : State) : State :=
  let k : PlcStream := ⟨fcTx x, fcDst x, fcGet x 20 1 == 1⟩
  let tmi := fcGet x 33 1 == 1
  let n := nbrOf c k.tx s
  let known := k.rx == 127 || !(if tmi then n.rx1 else n.rx0).isEmpty
  if (k.rx != (plc c s).stn && k.rx != 127) || !known then s
  else match block with
    | none => s
    | some words =>
      let s1 := if k.rx == 127 then s else putNbr c { n with rxTmi := tmi } s
      takeBlock c k words (askEarly c k.tx words (noteBsn c k (BitVec.ofNat 8 (fcGet x 25 8)) s1))

/-- Path loss in 0.5 dB steps: TXLVL less the received level, averaged over every tone, rounded down (R315; the rounding is DESIGN
CHOICE, log entry 22). -/
def toneLoss (txLvl : Nat) (level : List Nat) : Byte := BitVec.ofNat 8 (sat 254 ((512 * txLvl - level.sum) / 256))

/-- A sounding frame: the tone map it gives fills the slot not in use, and is returned with TM_RSP (R315, R316). -/
def soundingIn (c : Chan) (x : BitVec 105) (level snr : List Nat) (s : State) : State :=
  let tx := fcTx x
  let n := nbrOf c tx s
  let map := (List.range 256).map fun k => toneCode (tmMargin (plc c s)) (snr.getD k 0)
  let loss := toneLoss (fcGet x 40 8) level
  let slot_ := !n.rxTmi
  let b := (map.map toneBits).sum
  let body := toBE 1 (bit slot_) ++ toBE 1 loss.toNat ++ toBE 2 b ++ packBits 97 ((map.map fun m => bitsOfNat 3 m.toNat).flatten)
  let s1 := putNbr c { n with rx0 := if slot_ then n.rx0 else map, rx1 := if slot_ then map else n.rx1, rxNew := slot_, loss := loss } s
  modPlc c (fun p => { p with ctlQ := p.ctlQ ++ [⟨tx, body, false⟩],
                              links := if p.role != 0 then putLink p.links tx p.stn loss b else p.links }) s1

/-- TM_RSP: the map to send with from the next block on; event 0x6030 (R316). -/
def tmRspIn (c : Chan) (tx : BitVec 7) (body : List Byte) (s : State) : State :=
  if body.length ≠ 100 then s
  else
    let bits := bitsOfBytes (body.drop 4)
    let map := (List.range 256).map fun k => BitVec.ofNat 3 (natOfBits ((bits.drop (3 * k)).take 3))
    let slot_ := byteAt body 0 % 2 == 1
    let n := nbrOf c tx s
    raise 0x6030 (d1 c.val ++ d1 tx.toNat ++ d2 (map.map toneBits).sum)
      (putNbr c { n with tx0 := if slot_ then n.tx0 else map, tx1 := if slot_ then map else n.tx1, txTmi := slot_ } s)

/-- A link-quality report at the coordinator: STN, path loss, b of each station the sender hears (R324, R330). -/
def reportIn (c : Chan) (tx : BitVec 7) (body : List Byte) (s : State) : State :=
  if (plc c s).role == 0 then s
  else
    let put := fun (m : List PlcLink) (x : List Byte) => putLink m (BitVec.ofNat 7 (byteAt x 0)) tx (BitVec.ofNat 8 (byteAt x 1)) (beAt x 2 2)
    modPlc c (fun p => { p with links := (cutItems (body.length / 4) 4 body).foldl put p.links }) s

/-- What a station receives in the data part of a window. -/
def dataIn (c : Chan) (fc : BitVec 121) (y : PlcRx) (s : State) : State :=
  let mine := fun (x : BitVec 105) (t : State) => fcDst x == (plc c t).stn || fcDst x == 127
  match y with
  | .slice block => plcTyped c fc [2] 40 (fun x t => sliceIn c x block t) s
  | .sounding level snr => plcTyped c fc [5] 48 (fun x t => soundingIn c x level snr t) s
  | .tmRsp body => plcTyped c fc [2] 40 (fun x t => if mine x t then tmRspIn c (fcTx x) body t else t) s
  | .tmReq => plcTyped c fc [2] 40 (fun x t => if mine x t then modPlc c (fun p => { p with soundDue := some s.now }) t else t) s
  | .report body => plcTyped c fc [2] 40 (fun x t => if mine x t then reportIn c (fcTx x) body t else t) s

/-! ### Meanings -/

/-- R331. -/
def execUrgentFrameReceived (ch : Chan) (f : UrgentRx) (s : State) : Out := .next (urgentIn ch f.fc f.payload s)
/-- R309. -/
def execBeaconReceived (ch : Chan) (head : PlcHead) (body : List Byte) (s : State) : Out :=
  .next (beaconIn ch head.fc body head.syncAt s)
/-- R326. -/
def execBeaconLossWait (ch : Chan) (s : State) : Out := .next (beaconLossEnd ch s)
/-- R311. -/
def execDataFrameReceived (ch : Chan) (f : DataRx) (s : State) : Out := .next (preemptAll (dataIn ch f.fc f.payload s))
/-- R324. -/
def execStationSilenceExpiry (ch : Chan) (stn : BitVec 7) (s : State) : Out := .next (stationSilent ch stn s)
/-- R325. -/
def execJoinReceived (ch : Chan) (fc : BitVec 121) (key : Key) (flags : Byte) (s : State) : Out := .next (joinIn ch fc key flags s)
/-- R323. -/
def execPollReceived (ch : Chan) (fc : BitVec 121) (syncAt : Ns) (s : State) : Out := .next (pollIn ch fc syncAt s)

end Sys2Proof.Machine
end

