-- ==== Sys2Proof/Machine/Service.lean ====
section
/-! DEFINITION. The service ports and the return capsule (chapter 20): SP frames, their sessions, `red_freeze`, the capture. -/
namespace Sys2Proof.Machine

/-! ### SP frames (R718) -/

/-- The broadcast address. -/
def spBroadcast : Key := 0xFFFFFFFFFFFF

/-- A segment of a request as an SP frame carries it: LAST, SEG and its bytes; none for a frame SP discards (Table 20.2). -/
def spSegment (c : Ct) (f : SpFrame) : Option (Bool × Nat × List Byte) :=
  let b := f.payload
  let n := beAt b 2 2
  if f.etherType != 0x88B5 || (f.dst != spBroadcast && f.dst != Config.spMac (c == .b)) || b.length < 4 || byteAt b 0 ≠ 0x21
      || n = 0 || 1480 < n || b.length < 4 + n then none
  else some (bitOf (byteAt b 1) 7, byteAt b 1 % 128, slice b 4 n)

/-- What has arrived of a message is discarded. -/
def spForget (p : SpState) : SpState := { p with parts := [], partsAt := none }

/-- A segment joins the message in progress, none where it is not the next one within 100 ms. Segment 0 starts a message. -/
def spJoin (seg : Nat) (part : List Byte) (now : Ns) (p : SpState) : Option SpState :=
  if seg = 0 then some { p with parts := [part], partsAt := some now }
  else match p.partsAt with
    | some t => if now < t + ms 100 && seg == p.parts.length then some { p with parts := p.parts ++ [part] } else none
    | none => none

/-! ### Sessions (R719, R720) -/

/-- The CT-8 of this port answers BUSY: it is neither the active one nor a paired standby (R720). -/
def spUnpaired (c : Ct) (s : State) : Bool := c != activeCt s && s.red.pair != .duplex

/-- Events that waited for the session go out, then the number of those dropped (R719). -/
def spFlush (c : Ct) (mac : Key) (s : State) : State :=
  let p := spOf c s
  let s1 := p.events.foldl (fun t it => spSend c mac 3 (encodeMgmt it) t) (modSp c (fun x => { x with events := [], dropped := 0 }) s)
  if p.dropped = 0 then s1
  else
    let data := d1 2 ++ d4 p.dropped
    record 0x8012 data (spSend c mac 3 (encodeMgmt (eventItem 4 0x8012 data s1)) s1)

/-- A request from an address: it opens the session, or its source becomes where the session's answers go. -/
def spOpen (c : Ct) (mac : Key) (s : State) : State :=
  let s1 := modSp c (fun p => { p with peer := some mac }) s
  if (spOf c s).peer.isNone then spFlush c mac s1 else s1

/-- A request answered in the last 10 s is not executed again: its response is sent again. -/
def spAgain (c : Ct) (mac : Key) (tag : Half) (s : State) : Option State :=
  let hits := (spOf c s).answered.filter fun a => a.1 == tag
  if hits.isEmpty || (spOf c s).peer.isNone then none
  else some (hits.foldl (fun t a => spSend c mac 2 a.2.1 t) (spOpen c mac s))

/-- A whole request on a service port, with Maintainer authority (R631, R718 to R720): taken by the management engine, which answers
at once what no message of the table answers. -/
def spRequest (c : Ct) (mac : Key) (b : List Byte) (s : State) : State :=
  let m := mgmtMsg b
  let r : Req := ⟨.sp c mac, m.tag, m.body⟩
  if spUnpaired c s then
    spSend c mac 2 (encodeMgmt { opcode := m.opcode, tag := m.tag, status := BitVec.ofNat 8 stBusy, more := false, event := false, rank := 0,
                                 src := vkey s, body := d1 0x30 }) s
  else if !spServes s then s
  else match spAgain c mac m.tag s with
    | some t => t
    | none =>
      if !m.ok then malformed r m.opcode s
      else
        let s1 := spOpen c mac s
        let s2 := modSp c (fun p => { p with reqs := p.reqs ++ [⟨m.opcode, m.tag, m.body⟩] }) s1
        if allowedAt m.opcode.toNat (authorityOf r.port s2) == some true then
          (if reservedAction m.opcode m.body then refuseReserved r m.opcode s2 else s2)
        else authorised m.opcode r id s2

/-- The answers of the last 10 s. -/
def spRecent (s : State) (p : SpState) : SpState := { p with answered := p.answered.filter fun a => decide (s.now < a.2.2 + sec 10) }

/-- A frame on a service port of a CT-8 whose controller runs. -/
def spFrameIn (c : Ct) (f : SpFrame) (s : State) : State :=
  if (slot (ctSlot c) s).st == 0 || !(spServes s || spUnpaired c s) then s
  else match spSegment c f with
    | none => s
    | some (last, seg, part) =>
      let s1 := modSp c (fun p => { spRecent s p with linkUp := true, lastFrame := s.now }) s
      match spJoin seg part s.now (spOf c s1) with
      | none => modSp c spForget s1
      | some p =>
        if last then spRequest c f.src p.parts.flatten (modSp c spForget s1) else modSp c (fun _ => p) s1

/-- Segments missing for 100 ms (R718). -/
def spTimeout (c : Ct) (s : State) : State :=
  match (spOf c s).partsAt with
  | some t => if t + ms 100 ≤ s.now then modSp c spForget s else s
  | none => s

/-- A session closes 10 s after its last frame, or with its link (R719). -/
def spClose (c : Ct) (linkDown : Bool) (s : State) : State :=
  let p := spOf c s
  let closed := fun (x : SpState) => { spForget x with peer := none, answered := [], linkUp := x.linkUp && !linkDown }
  if linkDown then modSp c closed s
  else if p.peer.isSome && p.lastFrame + sec 10 ≤ s.now then modSp c closed s
  else s

/-! ### `red_freeze` (R721) -/

/-- `red_freeze`: the checks in order, then the capture waits for the next cycle boundary. -/
def freeze (r : Req) (s : State) : State :=
  authorised 0x0C20 r (fun t =>
    if r.body.length ≠ 8 || 1 < byteAt r.body 0 || !zeros r.body 1 4 then malformed r 0x0C20 t
    else if t.svc.capsule.isSome then busy r 0x0C20 0x01 t
    else if !slotReady srSlot t then busy r 0x0C20 0x02 t
    else if t.cel.pstate != .run then busy r 0x0C20 0x03 t
    else if !spaced t.svc.capsuleEnd (sec 60) t then busy r 0x0C20 0x04 t
    else
      { t with svc.capsule := some ⟨r.port, r.tag, bitOf (byteAt r.body 0) 0, BitVec.ofNat 32 (leAt r.body 4 4), cycleStart t + cycleNs t⟩ })
    s

/-! ### The capture (R722 to R724) -/

/-- The assigned words of one line port's page: runs of an offset and a number of words (Table 19.2). -/
def lpRuns (base : Nat) : List (Nat × Nat) :=
  [(0x000, 9), (0x030, 2), (0x100, 5), (0x120, 5), (0x140, 5), (0x160, 5), (0x200, 11), (0x400, 192)].map fun r => (base + r.1, r.2)

/-- The assigned words of Table 19.2 in rising offset, without the statistics mirror and the maker range. -/
def assignedRuns : List (Nat × Nat) :=
  [(0x0000, 2), (0x0010, 1), (0x0018, 7), (0x1000, 7), (0x1100, 64), (0x2000, 258), (0x3000, 3), (0x3040, 5), (0x3060, 3),
   (0x4000, 2), (0x4100, 5), (0x4118, 13), (0x4200, 5), (0x4218, 13), (0x4800, 4), (0x4840, 4), (0x4860, 6), (0x5000, 9),
   (0x5040, 5), (0x5400, 6), (0x5440, 5), (0x6100, 9), (0x6140, 9), (0x6200, 9), (0x6240, 9), (0x6400, 6), (0x6420, 2),
   (0x6800, 128)]
  ++ ((List.range 8).map fun n => lpRuns (0x8000 + 0x800 * n)).flatten
  ++ [(0xC000, 6), (0xC020, 7), (0xC040, 1), (0xD000, 6), (0xD020, 1), (0xD030, 3), (0xE000, 8), (0xE100, 10), (0xE400, 8),
      (0xE500, 10), (0xF000, 4), (0xF800, 5), (0xF820, 4)]
  ++ ((List.range 1024).map fun c => (0x10000 + 64 * c, 14))
  ++ [(0x20000, 6), (0x20040, 4), (0x21000, 7), (0x21040, 7), (0x22000, 7), (0x22040, 2), (0x23000, 2), (0x23010, 3),
      (0x23020, 2), (0x23030, 1), (0x23040, 4)]

/-- Payload of a register run, as an endpoint shows the words (Table 20.3). -/
def runRec (ep : Endpoint) (off n : Nat) (s : State) : List Byte :=
  toLE 4 off ++ toLE 2 n ++ [0, 0] ++ ((List.range n).map fun i => toLE 4 (readWord ep (off + 4 * i) s).toNat).flatten

/-- SYS_REV of a CT-8; 0 in an empty slot. -/
def sysRevOf (c : Ct) (s : State) : Nat := if (slot (ctSlot c) s).st == 0 then 0 else (readWord ⟨.h1, c⟩ 4 s).toNat

/-- Payload of the header, 64 bytes (Table 20.3). -/
def capsuleHead (k : CapsuleState) (detail : Bool) (s : State) : List Byte :=
  toLE 4 k.note.toNat ++ d1 (portCode k.port) ++ d1 (bit k.rings + 2 * bit detail) ++ [0, 0] ++ d6 (vkey s)
  ++ d6 (slot (ctSlot .a) s).serial ++ d6 (slot (ctSlot .b) s).serial ++ d4 (sysRevOf .a s) ++ d4 (sysRevOf .b s)
  ++ d8 (mono s) ++ d8 (ttime s) ++ d4 (cycleIdx s) ++ d4 (readWord (activeEp .h1 s) 0x10 s).toNat ++ d4 s.rlv.epoch.toNat ++ [0, 0]

/-- A ring or queue with a tail: its link, its number, its KIND (Table 20.3). -/
structure TailOf where
  link : Link
  num : Nat
  kind : Nat
  deriving DecidableEq, Repr

/-- The tails of one CQP: its rings that are not STOPPED. -/
def ringTails (l : Link) (c : Nat) (s : State) : List TailOf :=
  let x := ctx l c s
  (if x.txState != .stopped then [⟨l, c, 0⟩] else []) ++ (if x.rxState != .stopped then [⟨l, c, 1⟩] else [])

/-- Every tail of a capsule: the rings that are not STOPPED, the queues that are enabled. -/
def tailsOf (s : State) : List TailOf :=
  ringTails .h1 0 s ++ ringTails .h2 0 s ++ (s.hif.ctxs.map fun e => ringTails (ownerOf e.1 s) e.1 s).flatten
  ++ (List.finRange 16).filterMap fun n => if (cq n s).en then some ⟨(cq n s).link, n.val, 2⟩ else none

/-- Where a tail ends, how many entries its table has, the table's address. -/
def tailPlace (t : TailOf) (s : State) : Nat × Nat × Dword :=
  match t.kind with
  | 0 => ((ctx t.link t.num s).txFetch.toNat, ctxSize .tx (ctx t.link t.num s), (ctx t.link t.num s).txBase)
  | 1 => ((ctx t.link t.num s).rxFetch.toNat, ctxSize .rx (ctx t.link t.num s), (ctx t.link t.num s).rxBase)
  | _ =>
    let q := s.hif.cqs.toList.getD t.num CqState.reset
    (q.pos.toNat, cqSize q, q.base)

/-- The shadow word of a ring or queue as the node keeps it (Table 9.9). -/
def tailShadow (t : TailOf) (s : State) : Nat :=
  if t.kind = 2 then
    let q := s.hif.cqs.toList.getD t.num CqState.reset
    q.pos.toNat + bit q.pass * 65536
  else (ctx t.link t.num s).txDone.toNat + 65536 * (ctx t.link t.num s).rxDone.toNat

/-- Payload of the `i`-th tail: up to 16 entries before the fetch or write position; none with the link down or a failed read
(R723). -/
def tailRec (failed : List Nat) (i : Nat) (t : TailOf) (s : State) : List Byte :=
  let down := (endpoint (activeEp t.link s) s).power != .l0
  let err := !down && failed.contains i
  let p := tailPlace t s
  let n := if down || err then 0 else min 16 p.2.1
  let wrap := if t.kind = 2 then p.2.1 else 65536
  let first := (p.1 + wrap - n) % wrap
  let entries := (List.range n).map fun k => readHost t.link (entryAddr p.2.2 ((first + k) % wrap % p.2.1)) 32 s
  toLE 2 (Link.num t.link * 32768 + t.num) ++ d1 t.kind ++ d1 (bit err + 2 * bit down) ++ toLE 2 first ++ toLE 2 n
  ++ toLE 4 (tailShadow t s) ++ entries.flatten

/-- The records of a capsule before its end: code and payload, in order. -/
def capsuleBody (k : CapsuleState) (failed : List Nat) (detail : Bool) (s : State) : List (Half × List Byte) :=
  [(0xE010, capsuleHead k detail s)]
  ++ (assignedRuns.map fun r => ((0xE011 : Half), runRec (activeEp .h1 s) r.1 r.2 s))
  ++ [(0xE011, runRec (activeEp .h2 s) 0x10000 14 s)]
  ++ (if k.rings then ((tailsOf s).zipIdx.map fun t => ((0xE012 : Half), tailRec failed t.2 t.1 s)) else [])

/-- Payload of the end record (Table 20.3). -/
def capsuleTail (firstSeq : Word) (body : List (Half × List Byte)) : List Byte :=
  toLE 4 firstSeq.toNat ++ toLE 2 (body.length + 1) ++ [0, 0] ++ toLE 4 (crc32c (body.map (·.2)).flatten).toNat

/-- Bytes of records in an area. -/
def recsLen (l : List (Half × List Byte)) : Nat := (l.map fun r => recLen r.2).sum

/-- The capture, all of it at the instant its end record is committed (R722 to R724, log entry 31). -/
def capture (k : CapsuleState) (failed : List Nat) (s : State) : State :=
  let end_ := recLen (List.replicate 12 0)
  let perm := !s.srm.permFull && decide (recsLen (capsuleBody k failed false s) + end_ ≤ permFree s.srm.sr1)
  let body := capsuleBody k failed (!perm) s
  let first := s.srm.sr1.nextSeq
  let all := body ++ [(0xE013, capsuleTail first body)]
  let s1 := all.foldl (fun t r => commitRec ⟨r.1, false, perm, false, none, r.2⟩ t) s
  let lastOne := first + BitVec.ofNat 32 (all.length - 1)
  if s1.srm.sr1.seqEnd then capsuleStops s1
  else
    respond k.port k.tag 0x0C20 stOk
      (d4 first.toNat ++ d4 lastOne.toNat ++ d2 all.length ++ [0, 0] ++ d4 (recsLen all))
      { s1 with svc.capsule := none, svc.capsuleEnd := some s1.now }

/-- CAPSULE_END (R722): from the boundary on at which the capture starts. -/
def capsuleDone (failed : List Nat) (s : State) : State :=
  match s.svc.capsule with
  | none => s
  | some k =>
    if ttime s < k.startAt then s else if !srWritable s then capsuleStops s else capture k failed s

/-! ### Meanings -/

/-- R718. -/
def execSpFrameReceived (ct : Ct) (f : SpFrame) (s : State) : Out := .next (spFrameIn ct f s)
/-- R718. -/
def execSpReassemblyTimeout (ct : Ct) (s : State) : Out := .next (spTimeout ct s)
/-- R719. -/
def execSpSessionClose (ct : Ct) (linkDown : Bool) (s : State) : Out := .next (spClose ct linkDown s)
/-- R721. -/
def execRedFreeze (req : Req) (s : State) : Out := .next (freeze req s)
/-- R722. -/
def execCapsuleEnd (storesH1 storesH2 : List Host.Cell) (failed : List Nat) (s : State) : Out :=
  .next (capsuleDone failed (hostStores .h2 storesH2 (hostStores .h1 storesH1 s)))

end Sys2Proof.Machine
end

