-- ==== Sys2Proof/Machine/Dispatch.lean ====
section
/-! DEFINITION. The dispatch: one arm per command, each one direct call of its meaning. -/
namespace Sys2Proof.Machine

/-- The effect of a command on everything but the queue. -/
def exec (i : Instr) (s : State) : Host.Outcome State Fault Refusal :=
  match i with
  -- Scope and Conventions; The Unit, Its Cartridges and the Harness Panel
  | .writeLo ep off v => Sys2Proof.Machine.execWriteLo ep off v s
  | .writeHi ep off v => Sys2Proof.Machine.execWriteHi ep off v s
  | .readLo ep off => Sys2Proof.Machine.execReadLo ep off s
  | .readHi ep off => Sys2Proof.Machine.execReadHi ep off s
  | .misalignedAccess ep isWrite off width => Sys2Proof.Machine.execMisalignedAccess ep isWrite off width s
  | .registerWrite ep off v => Sys2Proof.Machine.execRegisterWrite ep off v s
  | .makerRangeAccess ep isWrite low => Sys2Proof.Machine.execMakerRangeAccess ep isWrite low s
  | .locateWrite ep v => Sys2Proof.Machine.execLocateWrite ep v s
  | .locateExpiry => Sys2Proof.Machine.execLocateExpiry s
  | .bypassDrivePulse lane => Sys2Proof.Machine.execBypassDrivePulse lane s
  | .bypassHoldExpiry lane => Sys2Proof.Machine.execBypassHoldExpiry lane s
  | .bypassMonitorFault lane bridged => Sys2Proof.Machine.execBypassMonitorFault lane bridged s
  | .cartridgeSeated slot info => Sys2Proof.Machine.execCartridgeSeated slot info s
  | .cartridgeUnseated slot => Sys2Proof.Machine.execCartridgeUnseated slot s
  | .strapReread r => Sys2Proof.Machine.execStrapReread r s
  | .foreignVoltageDetected port pairs => Sys2Proof.Machine.execForeignVoltageDetected port pairs s
  | .foreignVoltageCleared port => Sys2Proof.Machine.execForeignVoltageCleared port s
  | .reversedBattery pw => Sys2Proof.Machine.execReversedBattery pw s
  -- Inauguration and Renumbering (Rolavo)
  | .spanSweepSend port => Sys2Proof.Machine.execSpanSweepSend port s
  | .neighbourAccept e => Sys2Proof.Machine.execNeighbourAccept e s
  | .spanInputDisagree e => Sys2Proof.Machine.execSpanInputDisagree e s
  | .neighbourLoss e => Sys2Proof.Machine.execNeighbourLoss e s
  | .lossDecision e => Sys2Proof.Machine.execLossDecision e s
  | .holdExpiry e => Sys2Proof.Machine.execHoldExpiry e s
  | .corroborationCheck e => Sys2Proof.Machine.execCorroborationCheck e s
  | .plcOnlyJoin chan => Sys2Proof.Machine.execPlcOnlyJoin chan s
  | .deferredSweepOriginate => Sys2Proof.Machine.execDeferredSweepOriginate s
  | .renumberBackoffExpiry => Sys2Proof.Machine.execRenumberBackoffExpiry s
  | .epochSwitch => Sys2Proof.Machine.execEpochSwitch s
  | .cycleLengthChange => Sys2Proof.Machine.execCycleLengthChange s
  | .gatherTimeout => Sys2Proof.Machine.execGatherTimeout s
  | .pendingTimeout => Sys2Proof.Machine.execPendingTimeout s
  | .staleGraceEnd => Sys2Proof.Machine.execStaleGraceEnd s
  | .foreignHelloConfirm port => Sys2Proof.Machine.execForeignHelloConfirm port s
  | .interopExit => Sys2Proof.Machine.execInteropExit s
  | .rlvQuery req => Sys2Proof.Machine.execRlvQuery req s
  | .rlvPinReference req => Sys2Proof.Machine.execRlvPinReference req s
  -- Backbone Lanes, Forwarding and Train Time
  | .portFrameReceived port item => Sys2Proof.Machine.execPortFrameReceived port item s
  | .reorderHoldExpiry flow => Sys2Proof.Machine.execReorderHoldExpiry flow s
  | .rxFlowAgeOut flow => Sys2Proof.Machine.execRxFlowAgeOut flow s
  | .txFlowAgeOut flow => Sys2Proof.Machine.execTxFlowAgeOut flow s
  | .classUOriginate lane => Sys2Proof.Machine.execClassUOriginate lane s
  | .classURelease lane outbound => Sys2Proof.Machine.execClassURelease lane outbound s
  | .lossOfSignal port => Sys2Proof.Machine.execLossOfSignal port s
  | .spanUp lane e => Sys2Proof.Machine.execSpanUp lane e s
  | .syncLoss => Sys2Proof.Machine.execSyncLoss s
  | .bbnTimeSet req => Sys2Proof.Machine.execBbnTimeSet req s
  | .timeSetStep => Sys2Proof.Machine.execTimeSetStep s
  | .timeSetSettleTimeout settled => Sys2Proof.Machine.execTimeSetSettleTimeout settled s
  | .timeSetRequestTimeout => Sys2Proof.Machine.execTimeSetRequestTimeout s
  -- Line Ports
  | .linkUp port speed mdix master parDet => Sys2Proof.Machine.execLinkUp port speed mdix master parDet s
  | .linkDown port => Sys2Proof.Machine.execLinkDown port s
  | .speedChangeAbort port => Sys2Proof.Machine.execSpeedChangeAbort port s
  | .speedChangeRetry port => Sys2Proof.Machine.execSpeedChangeRetry port s
  | .speedChangeOverdue port => Sys2Proof.Machine.execSpeedChangeOverdue port s
  | .lpSpeedRestore req => Sys2Proof.Machine.execLpSpeedRestore req s
  | .speedRestoreCycle lane => Sys2Proof.Machine.execSpeedRestoreCycle lane s
  | .wakePatternMatch port bytes fcsOk => Sys2Proof.Machine.execWakePatternMatch port bytes fcsOk s
  | .lpCableTest req => Sys2Proof.Machine.execLpCableTest req s
  | .cableTestDone port first more => Sys2Proof.Machine.execCableTestDone port first more s
  -- Traffic Classes, Gates, Preemption and Pause
  | .egressStart port => Sys2Proof.Machine.execEgressStart port s
  | .gateEntryChange port => Sys2Proof.Machine.execGateEntryChange port s
  | .verifyWaitExpiry port => Sys2Proof.Machine.execVerifyWaitExpiry port s
  | .laneVerifyRetry port => Sys2Proof.Machine.execLaneVerifyRetry port s
  | .pauseExpiry port => Sys2Proof.Machine.execPauseExpiry port s
  | .xoffRepeat port => Sys2Proof.Machine.execXoffRepeat port s
  | .pauseStorm port => Sys2Proof.Machine.execPauseStorm port s
  | .pauseStormEnd port => Sys2Proof.Machine.execPauseStormEnd port s
  -- The Power-Line Channel
  | .plcSenseEnd ch m => Sys2Proof.Machine.execPlcSenseEnd ch m s
  | .plcRampPull ch => Sys2Proof.Machine.execPlcRampPull ch s
  | .plcAttachRetry ch => Sys2Proof.Machine.execPlcAttachRetry ch s
  | .plcRampEnd ch => Sys2Proof.Machine.execPlcRampEnd ch s
  | .plcRelayClosed ch => Sys2Proof.Machine.execPlcRelayClosed ch s
  | .plcLockEnd ch => Sys2Proof.Machine.execPlcLockEnd ch s
  | .plcListenEnd ch => Sys2Proof.Machine.execPlcListenEnd ch s
  | .plcLineLost ch => Sys2Proof.Machine.execPlcLineLost ch s
  | .plcNothingDecoded ch => Sys2Proof.Machine.execPlcNothingDecoded ch s
  | .plcDetach req => Sys2Proof.Machine.execPlcDetach req s
  | .plcAttachAgain req => Sys2Proof.Machine.execPlcAttachAgain req s
  | .zeroCrossing ch measured m => Sys2Proof.Machine.execZeroCrossing ch measured m s
  | .plcCalZc req => Sys2Proof.Machine.execPlcCalZc req s
  | .calZcDone ch delayUs thdReached lineLost => Sys2Proof.Machine.execCalZcDone ch delayUs thdReached lineLost s
  | .plcWindowStart ch asserted => Sys2Proof.Machine.execPlcWindowStart ch asserted s
  | .urgentFrameReceived ch f => Sys2Proof.Machine.execUrgentFrameReceived ch f s
  | .beaconReceived ch head body => Sys2Proof.Machine.execBeaconReceived ch head body s
  | .beaconLossWait ch => Sys2Proof.Machine.execBeaconLossWait ch s
  | .dataFrameReceived ch f => Sys2Proof.Machine.execDataFrameReceived ch f s
  | .soundingSend ch => Sys2Proof.Machine.execSoundingSend ch s
  | .stationSilenceExpiry ch stn => Sys2Proof.Machine.execStationSilenceExpiry ch stn s
  | .joinReceived ch fc key flags => Sys2Proof.Machine.execJoinReceived ch fc key flags s
  | .pollReceived ch fc syncAt => Sys2Proof.Machine.execPollReceived ch fc syncAt s
  -- Vehicle I/O
  | .canDescriptorLoad ch stores => Sys2Proof.Machine.execCanDescriptorLoad ch stores s
  | .canFrameSent ch sofAgo => Sys2Proof.Machine.execCanFrameSent ch sofAgo s
  | .canTxTimeout ch buf => Sys2Proof.Machine.execCanTxTimeout ch buf s
  | .canFrameReceived ch f stores => Sys2Proof.Machine.execCanFrameReceived ch f stores s
  | .canBusError ch tecAdd recAdd => Sys2Proof.Machine.execCanBusError ch tecAdd recAdd s
  | .canBusoffRecovered ch => Sys2Proof.Machine.execCanBusoffRecovered ch s
  | .vxCanRecover req => Sys2Proof.Machine.execVxCanRecover req s
  | .canBusDominant ch => Sys2Proof.Machine.execCanBusDominant ch s
  | .canBusFaultClear ch => Sys2Proof.Machine.execCanBusFaultClear ch s
  | .debounceChange pair chB volts => Sys2Proof.Machine.execDebounceChange pair chB volts s
  | .pairUnknown pair => Sys2Proof.Machine.execPairUnknown pair s
  | .pairAgreeAgain pair => Sys2Proof.Machine.execPairAgreeAgain pair s
  | .out0DrivePulse => Sys2Proof.Machine.execOut0DrivePulse s
  | .out0HoldExpiry => Sys2Proof.Machine.execOut0HoldExpiry s
  | .healthCondition cond => Sys2Proof.Machine.execHealthCondition cond s
  | .out1PulseEnd => Sys2Proof.Machine.execOut1PulseEnd s
  | .vxContactTest req => Sys2Proof.Machine.execVxContactTest req s
  | .contactTestEnd out1 => Sys2Proof.Machine.execContactTestEnd out1 s
  -- Host Interface, Rings and Doorbells
  | .urgentPoll link stores => Sys2Proof.Machine.execUrgentPoll link stores s
  | .generalPoll link stores => Sys2Proof.Machine.execGeneralPoll link stores s
  | .scanPoll link urgent stores => Sys2Proof.Machine.execScanPoll link urgent stores s
  | .descriptorFetch link cqp stores => Sys2Proof.Machine.execDescriptorFetch link cqp stores s
  | .receiveDescriptorFetch link cqp stores => Sys2Proof.Machine.execReceiveDescriptorFetch link cqp stores s
  | .receiveDelivery link cqp => Sys2Proof.Machine.execReceiveDelivery link cqp s
  | .rxwaitExpiry link cqp => Sys2Proof.Machine.execRxwaitExpiry link cqp s
  | .completionWrite cq stores => Sys2Proof.Machine.execCompletionWrite cq stores s
  | .cqFullRecheck cq stores => Sys2Proof.Machine.execCqFullRecheck cq stores s
  | .moderationTimer cq => Sys2Proof.Machine.execModerationTimer cq s
  | .linkReset ep cause => Sys2Proof.Machine.execLinkReset ep cause s
  | .linkL0Reached ep trained prsnt => Sys2Proof.Machine.execLinkL0Reached ep trained prsnt s
  | .cqEnable ep cq v => Sys2Proof.Machine.execCqEnable ep cq v s
  | .mgmtEnable ep v => Sys2Proof.Machine.execMgmtEnable ep v s
  | .mgmtItemDelivery link => Sys2Proof.Machine.execMgmtItemDelivery link s
  | .ringStart req => Sys2Proof.Machine.execRingStart req s
  | .ringStop req => Sys2Proof.Machine.execRingStop req s
  | .ringStopDone link cqp => Sys2Proof.Machine.execRingStopDone link cqp s
  | .ringReset req => Sys2Proof.Machine.execRingReset req s
  | .hostReadFail link cqp ring descRead => Sys2Proof.Machine.execHostReadFail link cqp ring descRead s
  | .summaryReadFail link => Sys2Proof.Machine.execSummaryReadFail link s
  -- Contention, Arbitration and Admission
  | .arbiterDecision requests accept withdrawn => Sys2Proof.Machine.execArbiterDecision requests accept withdrawn s
  | .arbSettingsWrite ep isClass v => Sys2Proof.Machine.execArbSettingsWrite ep isClass v s
  -- The Remote Register Window
  | .rrwRead req => Sys2Proof.Machine.execRrwRead req s
  | .rrwWrite req => Sys2Proof.Machine.execRrwWrite req s
  | .rrwLock req => Sys2Proof.Machine.execRrwLock req s
  | .rrwUnlock req => Sys2Proof.Machine.execRrwUnlock req s
  | .rrwTimeout reqId => Sys2Proof.Machine.execRrwTimeout reqId s
  | .leaseExpiry => Sys2Proof.Machine.execLeaseExpiry s
  -- Supply, Battery and Hold-Up
  | .mainsLost low => Sys2Proof.Machine.execMainsLost low s
  | .batteryLost pw volts => Sys2Proof.Machine.execBatteryLost pw volts s
  | .battOvClear pw => Sys2Proof.Machine.execBattOvClear pw s
  | .mainsInvalid pw => Sys2Proof.Machine.execMainsInvalid pw s
  | .handoverDone pw => Sys2Proof.Machine.execHandoverDone pw s
  | .inputQualified pw batt reading => Sys2Proof.Machine.execInputQualified pw batt reading s
  | .handbackSpacingEnd pw => Sys2Proof.Machine.execHandbackSpacingEnd pw s
  | .handbackDone pw => Sys2Proof.Machine.execHandbackDone pw s
  | .loadShareUnequal pw share => Sys2Proof.Machine.execLoadShareUnequal pw share s
  | .bankEmpty => Sys2Proof.Machine.execBankEmpty s
  | .rideSUpdate a b load => Sys2Proof.Machine.execRideSUpdate a b load s
  | .bankFull pw cap => Sys2Proof.Machine.execBankFull pw cap s
  | .pwrBankTest req => Sys2Proof.Machine.execPwrBankTest req s
  | .bankTestDone pw cap => Sys2Proof.Machine.execBankTestDone pw cap s
  | .outputFault pw => Sys2Proof.Machine.execOutputFault pw s
  -- Power States, Cellar and Attic
  | .railUp => Sys2Proof.Machine.execRailUp s
  | .cellarStepEnd m => Sys2Proof.Machine.execCellarStepEnd m s
  | .railFall => Sys2Proof.Machine.execRailFall s
  | .crystalFault ppm stopped => Sys2Proof.Machine.execCrystalFault ppm stopped s
  | .wakeCauseRaised src => Sys2Proof.Machine.execWakeCauseRaised src s
  | .riseEnergyOk => Sys2Proof.Machine.execRiseEnergyOk s
  | .riseStepEnd prsntA prsntB => Sys2Proof.Machine.execRiseStepEnd prsntA prsntB s
  | .fallStepEnd => Sys2Proof.Machine.execFallStepEnd s
  | .stepFail => Sys2Proof.Machine.execStepFail s
  | .riseRetry => Sys2Proof.Machine.execRiseRetry s
  | .powerRequestRun req => Sys2Proof.Machine.execPowerRequestRun req s
  | .powerRequestCellar req => Sys2Proof.Machine.execPowerRequestCellar req s
  | .cellarTimerExpiry => Sys2Proof.Machine.execCellarTimerExpiry s
  | .lastGaspStepEnd => Sys2Proof.Machine.execLastGaspStepEnd s
  -- Energy and Heat Budget Scheduling
  | .budgetEvaluate tChassis tCx2 load => Sys2Proof.Machine.execBudgetEvaluate tChassis tCx2 load s
  | .budgetRiseHoldEnd => Sys2Proof.Machine.execBudgetRiseHoldEnd s
  | .loadOverrun => Sys2Proof.Machine.execLoadOverrun s
  | .heatOff => Sys2Proof.Machine.execHeatOff s
  | .budgetLimitSet req => Sys2Proof.Machine.execBudgetLimitSet req s
  | .budgetLimitClear req => Sys2Proof.Machine.execBudgetLimitClear req s
  | .hostCapExpiry => Sys2Proof.Machine.execHostCapExpiry s
  -- Network Sleep, Wake and Isolation
  | .keepaliveSend => Sys2Proof.Machine.execKeepaliveSend s
  | .kaSilence => Sys2Proof.Machine.execKaSilence s
  | .sleepNoticeCompute => Sys2Proof.Machine.execSleepNoticeCompute s
  | .sleepInstant => Sys2Proof.Machine.execSleepInstant s
  | .sleepCommandHold req => Sys2Proof.Machine.execSleepCommandHold req s
  | .sleepCommandRelease req => Sys2Proof.Machine.execSleepCommandRelease req s
  | .sleepCommandSleep req => Sys2Proof.Machine.execSleepCommandSleep req s
  | .sleepCommandAwake req => Sys2Proof.Machine.execSleepCommandAwake req s
  | .sleepCommandWake req => Sys2Proof.Machine.execSleepCommandWake req s
  | .wakeSendEnd => Sys2Proof.Machine.execWakeSendEnd s
  | .plcWakeHeard ch after => Sys2Proof.Machine.execPlcWakeHeard ch after s
  | .localWakeTimeout => Sys2Proof.Machine.execLocalWakeTimeout s
  -- Redundancy, Hot Swap and Recovery
  | .heartbeatSend => Sys2Proof.Machine.execHeartbeatSend s
  | .heartbeatReceived yield => Sys2Proof.Machine.execHeartbeatReceived yield s
  | .activeFaultDetected => Sys2Proof.Machine.execActiveFaultDetected s
  | .tokenSilence => Sys2Proof.Machine.execTokenSilence s
  | .takeoverStepEnd storesH1 storesH2 => Sys2Proof.Machine.execTakeoverStepEnd storesH1 storesH2 s
  | .heartbeatLoss => Sys2Proof.Machine.execHeartbeatLoss s
  | .standbyJoinStepEnd => Sys2Proof.Machine.execStandbyJoinStepEnd s
  | .standbyFail => Sys2Proof.Machine.execStandbyFail s
  | .standbyRejoinRetry => Sys2Proof.Machine.execStandbyRejoinRetry s
  | .redSwitchover req => Sys2Proof.Machine.execRedSwitchover req s
  | .leverFirstDetent slot => Sys2Proof.Machine.execLeverFirstDetent slot s
  | .leverPushedBack slot => Sys2Proof.Machine.execLeverPushedBack slot s
  | .redReleaseRequest req => Sys2Proof.Machine.execRedReleaseRequest req s
  | .redReleaseCancel req => Sys2Proof.Machine.execRedReleaseCancel req s
  | .removalPrepEnd slot => Sys2Proof.Machine.execRemovalPrepEnd slot s
  | .viewDisagree unit => Sys2Proof.Machine.execViewDisagree unit s
  | .viewAgree unit => Sys2Proof.Machine.execViewAgree unit s
  | .configStage req => Sys2Proof.Machine.execConfigStage req s
  | .configCommit req => Sys2Proof.Machine.execConfigCommit req s
  | .configCommitForce req => Sys2Proof.Machine.execConfigCommitForce req s
  | .configDiscard req => Sys2Proof.Machine.execConfigDiscard req s
  | .configSetApply => Sys2Proof.Machine.execConfigSetApply s
  | .forcedItemApply => Sys2Proof.Machine.execForcedItemApply s
  | .forcedItemTimeout => Sys2Proof.Machine.execForcedItemTimeout s
  -- Port Authority, Profiles and the Identity Store
  | .profileSelect req => Sys2Proof.Machine.execProfileSelect req s
  | .idsRead req => Sys2Proof.Machine.execIdsRead req s
  | .idsErase req => Sys2Proof.Machine.execIdsErase req s
  | .idsProgram req => Sys2Proof.Machine.execIdsProgram req s
  | .fwErase req => Sys2Proof.Machine.execFwErase req s
  | .fwProgram req => Sys2Proof.Machine.execFwProgram req s
  | .flashOpDone dev readBackOk => Sys2Proof.Machine.execFlashOpDone dev readBackOk s
  | .fwActivateTrial req => Sys2Proof.Machine.execFwActivateTrial req s
  | .fwActivateCommit req => Sys2Proof.Machine.execFwActivateCommit req s
  | .fwActivateRevert req => Sys2Proof.Machine.execFwActivateRevert req s
  | .trialStartFail ct => Sys2Proof.Machine.execTrialStartFail ct s
  -- The Store Room and the Usage Ledger
  | .recordCommit => Sys2Proof.Machine.execRecordCommit s
  | .tokenRefill code => Sys2Proof.Machine.execTokenRefill code s
  | .timeMarkPeriod => Sys2Proof.Machine.execTimeMarkPeriod s
  | .sr1Ready content => Sys2Proof.Machine.execSr1Ready content s
  | .srRead req => Sys2Proof.Machine.execSrRead req s
  | .ledgerBoundary => Sys2Proof.Machine.execLedgerBoundary s
  | .ldgCfgWrite ep v => Sys2Proof.Machine.execLdgCfgWrite ep v s
  | .intervalCopy => Sys2Proof.Machine.execIntervalCopy s
  -- Commissioning, Field Diagnosis and Return
  | .spFrameReceived ct f => Sys2Proof.Machine.execSpFrameReceived ct f s
  | .spReassemblyTimeout ct => Sys2Proof.Machine.execSpReassemblyTimeout ct s
  | .spSessionClose ct linkDown => Sys2Proof.Machine.execSpSessionClose ct linkDown s
  | .redFreeze req => Sys2Proof.Machine.execRedFreeze req s
  | .capsuleEnd storesH1 storesH2 failed => Sys2Proof.Machine.execCapsuleEnd storesH1 storesH2 failed s
  -- Further rows at the table's end
  | .plcLineClassChange ch m => Sys2Proof.Machine.execPlcLineClassChange ch m s
  | .forcedOrderWaitExpiry => Sys2Proof.Machine.execForcedOrderWaitExpiry s
  | .configSpaceWrite ep w => Sys2Proof.Machine.execConfigSpaceWrite ep w s
  | .pmeTurnOff ep => Sys2Proof.Machine.execPmeTurnOff ep s

end Sys2Proof.Machine
end

