-- ==== Sys2Proof/WellFormed.lean ====
section
/-! DEFINITION. What a well-formed command is: the bounds its operands have and Lean's types do not show. Every command has a
meaning all the same; an ill-formed one is none that the outside of a TN-880 can send. -/
namespace Sys2Proof

/-- A management request body has at most 4,088 bytes (Table 9.10). -/
def reqOk (r : Req) : Bool := r.body.length ≤ 4088

/-- The addresses of a host's stores have 64 bits (R10, Table 9.4). -/
def cellsOk (l : List Host.Cell) : Bool := l.all fun c => c.1 < 2 ^ 64

/-- A register offset is a multiple of 4 (R9). -/
def aligned (off : Offset) : Bool := off.toNat % 4 == 0

/-- An access that R9 discards: not 32 bits wide or not aligned to 4 bytes. -/
def badAccess (off : Offset) (width : Nat) : Bool := width != 4 || off.toNat % 4 != 0

/-- A payload or read request size of PCIe: a power of two from 128 to 4,096 bytes (R384). -/
def pciSize (n : Nat) : Bool := [128, 256, 512, 1024, 2048, 4096].contains n

/-- Data bytes that a DLC stands for on CAN FD; classic CAN stops at 8 (Table 8.2). -/
def dlcBytes (fdf : Bool) (dlc : BitVec 4) : Nat :=
  if dlc.toNat ≤ 8 then dlc.toNat
  else if fdf then [12, 16, 20, 24, 32, 48, 64].getD (dlc.toNat - 9) 64 else 8

/-- A CAN frame: its data is as long as its DLC says, a remote frame has none and is not FD, BRS and ESI belong to CAN FD, a base
identifier has 11 bits. -/
def canOk (f : CanRx) : Bool :=
  (f.fdf || (!f.brs && !f.esi)) && (if f.rtr then f.data.isEmpty && !f.fdf else f.data.length == dlcBytes f.fdf f.dlc) && (f.ide || f.id.toNat < 2048)

/-- What a port receives: a whole frame has a MAC header; a fragment has bytes. -/
def rxOk : RxItem → Bool
  | .frame b _ _ _ => 14 ≤ b.length
  | .fragment _ _ _ b _ => !b.isEmpty
  | .gptpSync b _ _ _ | .gptpAnnounce b _ _ | .hello b | .topology b _ _ _ => 14 ≤ b.length
  | .verify | .respond => true

/-- A codeword carries 223 data bytes and RS corrects at most 16 (R311). -/
def codewordOk (c : CodewordRx) : Bool :=
  c.data.length == 223 && (match c.corrected with | some n => n ≤ 16 | none => true)

/-- What a power-line station receives: whole codewords in a block, a level and an SNR for every tone, whole control messages. -/
def plcOk : PlcRx → Bool
  | .slice (some b) => !b.isEmpty && b.all codewordOk
  | .slice none => true
  | .sounding lvl snr => lvl.length == 256 && snr.length == 256
  | .tmRsp b => b.length == 100
  | .tmReq => true
  | .report b => b.length % 4 == 0

/-- An SR-1 that is usable: seven detail segments and a current one among them (R671). -/
def srOk : Option Sr1 → Bool
  | none => true
  | some x => x.detail.length == 7 && x.cur < 7

/-- A well-formed command. -/
def Instr.wf : Instr → Bool
  | .writeLo _ off _ | .writeHi _ off _ | .readLo _ off | .readHi _ off => aligned off
  | .misalignedAccess _ _ off width => badAccess off width
  | .registerWrite _ off _ => aligned off
  | .makerRangeAccess _ _ _ | .locateWrite _ _ | .locateExpiry | .bypassDrivePulse _ | .bypassHoldExpiry _
  | .bypassMonitorFault _ _ | .cartridgeSeated _ _ | .cartridgeUnseated _ | .strapReread _ | .foreignVoltageDetected _ _
  | .foreignVoltageCleared _ | .reversedBattery _ | .spanSweepSend _ | .neighbourAccept _ | .spanInputDisagree _
  | .neighbourLoss _ | .lossDecision _ | .holdExpiry _ | .corroborationCheck _ | .plcOnlyJoin _
  | .deferredSweepOriginate | .renumberBackoffExpiry | .epochSwitch | .cycleLengthChange | .gatherTimeout
  | .pendingTimeout | .staleGraceEnd | .foreignHelloConfirm _ | .interopExit => true
  | .rlvQuery req | .rlvPinReference req => reqOk req
  | .portFrameReceived _ item => rxOk item
  | .reorderHoldExpiry _ | .rxFlowAgeOut _ | .txFlowAgeOut _ | .classUOriginate _ | .classURelease _ _ | .lossOfSignal _
  | .spanUp _ _ | .syncLoss => true
  | .bbnTimeSet req => reqOk req
  | .timeSetStep | .timeSetSettleTimeout _ | .timeSetRequestTimeout => true
  | .linkUp _ speed _ _ _ => speed != .down
  | .linkDown _ | .speedChangeAbort _ | .speedChangeRetry _ | .speedChangeOverdue _ => true
  | .lpSpeedRestore req => reqOk req
  | .speedRestoreCycle _ | .wakePatternMatch _ _ _ => true
  | .lpCableTest req => reqOk req
  | .cableTestDone _ _ l => decide (l.length ≤ 3)
  | .egressStart _ | .gateEntryChange _ | .verifyWaitExpiry _ | .laneVerifyRetry _
  | .pauseExpiry _ | .xoffRepeat _ | .pauseStorm _ | .pauseStormEnd _ | .plcSenseEnd _ _ | .plcRampPull _
  | .plcAttachRetry _ | .plcRampEnd _ | .plcRelayClosed _ | .plcLockEnd _ | .plcListenEnd _ | .plcLineLost _
  | .plcNothingDecoded _ => true
  | .plcDetach req | .plcAttachAgain req => reqOk req
  | .zeroCrossing _ _ m => decide (0 < m.freq)
  | .plcCalZc c => reqOk c.req
  | .calZcDone _ _ _ _ | .plcWindowStart _ _ => true
  | .urgentFrameReceived _ _ | .beaconReceived _ _ _ | .beaconLossWait _ => true
  | .dataFrameReceived _ f => plcOk f.payload
  | .soundingSend _ | .stationSilenceExpiry _ _ | .pollReceived _ _ _ => true
  | .joinReceived _ _ _ _ => true
  | .canDescriptorLoad _ stores => cellsOk stores
  | .canFrameSent _ _ | .canTxTimeout _ _ => true
  | .canFrameReceived _ f stores => canOk f && cellsOk stores
  | .canBusError _ _ _ | .canBusoffRecovered _ => true
  | .vxCanRecover req => reqOk req
  | .canBusDominant _ | .canBusFaultClear _ | .debounceChange _ _ _ | .pairUnknown _ | .pairAgreeAgain _
  | .out0DrivePulse | .out0HoldExpiry | .healthCondition _ | .out1PulseEnd => true
  | .vxContactTest req => reqOk req
  | .contactTestEnd _ => true
  | .urgentPoll _ stores | .generalPoll _ stores | .scanPoll _ _ stores | .descriptorFetch _ _ stores
  | .receiveDescriptorFetch _ _ stores => cellsOk stores
  | .receiveDelivery _ _ | .rxwaitExpiry _ _ => true
  | .completionWrite _ stores | .cqFullRecheck _ stores => cellsOk stores
  | .moderationTimer _ | .linkReset _ _ => true
  | .linkL0Reached _ w _ => w.gen.val ≠ 0 && w.width.val ≠ 0
  | .cqEnable _ _ _ | .mgmtEnable _ _ | .mgmtItemDelivery _ => true
  | .ringStart req | .ringStop req => reqOk req
  | .ringStopDone _ _ => true
  | .ringReset req => reqOk req
  | .hostReadFail _ _ _ _ | .summaryReadFail _ | .arbiterDecision _ _ _ | .arbSettingsWrite _ _ _ => true
  | .rrwRead req | .rrwWrite req | .rrwLock req | .rrwUnlock req => reqOk req
  | .rrwTimeout _ | .leaseExpiry | .mainsLost _ | .batteryLost _ _ | .battOvClear _ | .mainsInvalid _ | .handoverDone _
  | .inputQualified _ _ _ | .handbackSpacingEnd _ | .handbackDone _ => true
  | .loadShareUnequal _ share => decide (share ≤ 100)
  | .bankEmpty | .rideSUpdate _ _ _ | .bankFull _ _ => true
  | .pwrBankTest req => reqOk req
  | .bankTestDone _ _ | .outputFault _ | .railUp | .cellarStepEnd _ | .railFall | .crystalFault _ _ | .wakeCauseRaised _
  | .riseEnergyOk | .riseStepEnd _ _ | .fallStepEnd | .stepFail | .riseRetry => true
  | .powerRequestRun req | .powerRequestCellar req => reqOk req
  | .cellarTimerExpiry | .lastGaspStepEnd | .budgetEvaluate _ _ _ | .budgetRiseHoldEnd | .loadOverrun | .heatOff => true
  | .budgetLimitSet req | .budgetLimitClear req => reqOk req
  | .hostCapExpiry | .keepaliveSend | .kaSilence | .sleepNoticeCompute | .sleepInstant => true
  | .sleepCommandHold req | .sleepCommandRelease req | .sleepCommandSleep req | .sleepCommandAwake req
  | .sleepCommandWake req => reqOk req
  | .wakeSendEnd | .plcWakeHeard _ _ | .localWakeTimeout | .heartbeatSend | .heartbeatReceived _ | .activeFaultDetected
  | .tokenSilence => true
  | .takeoverStepEnd storesH1 storesH2 => cellsOk storesH1 && cellsOk storesH2
  | .heartbeatLoss | .standbyJoinStepEnd | .standbyFail | .standbyRejoinRetry => true
  | .redSwitchover req => reqOk req
  | .leverFirstDetent _ | .leverPushedBack _ => true
  | .redReleaseRequest req | .redReleaseCancel req => reqOk req
  | .removalPrepEnd _ | .viewDisagree _ | .viewAgree _ => true
  | .configStage req | .configCommit req | .configCommitForce req | .configDiscard req => reqOk req
  | .configSetApply | .forcedItemApply | .forcedItemTimeout => true
  | .profileSelect req | .idsRead req | .idsErase req | .idsProgram req | .fwErase req | .fwProgram req => reqOk req
  | .flashOpDone _ _ => true
  | .fwActivateTrial req | .fwActivateCommit req | .fwActivateRevert req => reqOk req
  | .trialStartFail _ | .recordCommit | .tokenRefill _ | .timeMarkPeriod => true
  | .sr1Ready content => srOk content
  | .srRead req => reqOk req
  | .ledgerBoundary | .ldgCfgWrite _ _ | .intervalCopy => true
  | .spFrameReceived _ f => decide (f.payload.length ≤ 1500)
  | .spReassemblyTimeout _ | .spSessionClose _ _ => true
  | .redFreeze req => reqOk req
  | .capsuleEnd storesH1 storesH2 _ => cellsOk storesH1 && cellsOk storesH2
  | .plcLineClassChange _ _ | .forcedOrderWaitExpiry => true
  | .configSpaceWrite _ w => pciSize w.maxPayload && pciSize w.maxReadRequest
  | .pmeTurnOff _ => true

end Sys2Proof
end

