-- ==== Sys2Proof/Safety.lean ====
section
/-! DEFINITION. What counts as a safe state and a safe run, in the terms claims use: the canonical form of every memory, which parts
of the state a command leaves alone, the forms of messages an encoder writes. -/
namespace Sys2Proof.Machine

/-! ### Safe states and runs -/

/-- Every memory of the node and its hosts is in canonical form: host memory behind each link, the identity store, the firmware
banks of both controllers. -/
def State.memOk (s : State) : Bool :=
  memWf hostFill s.hif.h1.hmem && memWf hostFill s.hif.h2.hmem && memWf flashFill s.ids.flash
  && memWf flashFill s.ids.fwA.bank0 && memWf flashFill s.ids.fwA.bank1
  && memWf flashFill s.ids.fwB.bank0 && memWf flashFill s.ids.fwB.bank1

/-- A step is safe: it answers a next state, no fault and no refusal. -/
def safeStep (s : State) : Prop := ∃ t, step s = .next t

/-! ### Frames -/

/-- The parts of the state, by unit. -/
inductive Part
  | sys | rlv | bbn | lp | tc | restore | plc | vx | hif | arb | rrw | pwr | cel | bgt | slp | red | sec | ids | srm | ldg | svc
  | out | free
  deriving DecidableEq, Repr

/-- A part is the same in two states. -/
def samePart : Part → State → State → Prop
  | .sys, s, t => t.sys = s.sys
  | .rlv, s, t => t.rlv = s.rlv
  | .bbn, s, t => t.bbn = s.bbn
  | .lp, s, t => t.lp = s.lp
  | .tc, s, t => t.tc = s.tc
  | .restore, s, t => t.restores = s.restores
  | .plc, s, t => t.plc = s.plc
  | .vx, s, t => t.vx = s.vx
  | .hif, s, t => t.hif = s.hif
  | .arb, s, t => t.arb = s.arb
  | .rrw, s, t => t.rrw = s.rrw
  | .pwr, s, t => t.pwr = s.pwr
  | .cel, s, t => t.cel = s.cel
  | .bgt, s, t => t.bgt = s.bgt
  | .slp, s, t => t.slp = s.slp
  | .red, s, t => t.red = s.red
  | .sec, s, t => t.sec = s.sec
  | .ids, s, t => t.ids = s.ids
  | .srm, s, t => t.srm = s.srm
  | .ldg, s, t => t.ldg = s.ldg
  | .svc, s, t => t.svc = s.svc
  | .out, s, t => t.out = s.out
  | .free, s, t => t.freeCtr = s.freeCtr

/-- Nothing differs between two states but the parts named; the queue and the clock are the same too. -/
def onlyChanges (ps : List Part) (s t : State) : Prop :=
  t.pending = s.pending ∧ t.now = s.now ∧ t.quantum = s.quantum ∧ ∀ p, p ∉ ps → samePart p s t

/-- Every byte of host memory behind both links reads as before. -/
def hostSame (s t : State) : Prop := ∀ l a, memGet hostFill (hlink l t).hmem a = memGet hostFill (hlink l s).hmem a

/-- Every byte of the identity store and of the firmware banks reads as before. -/
def flashSame (s t : State) : Prop :=
  ∀ a, memGet flashFill t.ids.flash a = memGet flashFill s.ids.flash a
    ∧ memGet flashFill t.ids.fwA.bank0 a = memGet flashFill s.ids.fwA.bank0 a
    ∧ memGet flashFill t.ids.fwA.bank1 a = memGet flashFill s.ids.fwA.bank1 a
    ∧ memGet flashFill t.ids.fwB.bank0 a = memGet flashFill s.ids.fwB.bank0 a
    ∧ memGet flashFill t.ids.fwB.bank1 a = memGet flashFill s.ids.fwB.bank1 a

/-- The parts an event can change where it is raised: what waits on CQP 0 of each link, the store-room writer, what waits for or
leaves by a service port (R422). -/
def eventParts : List Part := [.hif, .srm, .svc, .out]

/-! ### Messages an encoder writes -/

/-- A native frame that Table 4.2 admits: no key 0, PAY_LEN in its 16 bits. -/
def NatFrame.wf (f : NatFrame) : Bool := f.src != 0 && f.dst != 0 && decide (f.payload.length < 65536)

/-- A polyline entry that Table 3.3 admits. -/
def PolyEntry.wf (e : PolyEntry) : Bool := e.endF != 0 && decide (e.speedB.toNat ≤ 2) && decide (e.speedA.toNat ≤ 2)

/-- A Rolavo body that Tables 3.4 to 3.6 admit. -/
def RlvBody.wf : RlvBody → Bool
  | .sweep w => w.scope != 3 && decide (w.entries.length ≤ 63) && (w.scope == 2 || w.entries.isEmpty) && w.entries.all PolyEntry.wf
  | .tally t => decide (1 ≤ t.entries.length) && decide (t.entries.length ≤ 63) && decide (t.nakReason.toNat ≤ 4)
      && t.entries.all PolyEntry.wf
  | .commit _ => true
  | .holdOpen h => h.action != 3

end Sys2Proof.Machine
end

