-- ==== Sys2Proof/Certificates/Slice0/Obligations.lean ====
section
/-! DEFINITION. The statements for the provers, in the order of the spec's families. -/
open Sys2Proof Sys2Proof.Machine

/-- A step runs the command at the front of the queue on the state with the rest of the queue (What each step holds, Log entry
3). -/
def Obligations.StepRunsTheFrontCommand : Prop :=
  (∀ (c : Instr) (s : State), step { s with pending := c :: s.pending } = exec c s)
  ∧ ∀ s : State, s.pending = [] → step s = .next { s with now := s.now + s.quantum }

/-- No command stops the block: every step of every state answers a next state (What each step holds, Log entry 5). -/
def Obligations.EveryStepAnswersANextState : Prop :=
  (∀ (c : Instr) (s : State), ∃ t, exec c s = .next t) ∧ ∀ s : State, safeStep s

/-- No command touches the queue, the clock or the idle quantum (What each step holds, Log entry 3). -/
def Obligations.CommandsLeaveQueueAndClock : Prop :=
  ∀ (c : Instr) (s t : State), exec c s = .next t → t.pending = s.pending ∧ t.now = s.now ∧ t.quantum = s.quantum

/-- Every step keeps every memory in its canonical form (Host Interface, Rings and Doorbells, Port Authority, Profiles and the
Identity Store). -/
def Obligations.EveryStepKeepsMemoryCanonical : Prop :=
  ∀ s t : State, s.memOk = true → step s = .next t → t.memOk = true

/-- At reset every memory is in its canonical form and lists nothing, and nothing waits (Host Interface, Rings and Doorbells,
Port Authority, Profiles and the Identity Store). -/
def Obligations.ResetMemoryIsCanonical : Prop :=
  State.reset.memOk = true ∧ State.reset.pending = [] ∧ State.reset.hif.h1.hmem = [] ∧ State.reset.hif.h2.hmem = []
  ∧ State.reset.ids.flash = []

/-- What the node writes to host memory reads back, and every other byte reads as before (Host Interface, Rings and Doorbells).
-/
def Obligations.HostMemoryReadsBackWhatIsWritten : Prop :=
  ∀ (l : Link) (addr : Dword) (bs : List Byte) (s : State), memWf hostFill (hlink l s).hmem = true →
    (∀ i, i < bs.length → memGet hostFill (hlink l (writeHost l addr bs s)).hmem (addr.toNat + i) = bs.getD i 0)
    ∧ (∀ a, a < addr.toNat ∨ addr.toNat + bs.length ≤ a →
        memGet hostFill (hlink l (writeHost l addr bs s)).hmem a = memGet hostFill (hlink l s).hmem a)
    ∧ ∀ x, x ≠ l → hlink x (writeHost l addr bs s) = hlink x s

/-- An event is offered on CQP 0 of each link and recorded, and changes nothing else (R422, R420, R710). -/
def Obligations.EventsReachLinksAndStoreRoom : Prop :=
  ∀ (code : Half) (data : List Byte) (s : State), s.cel.pstate ≠ .off →
    (∀ l, (hlink l s).items.length < 256) →
    onlyChanges eventParts s (raise code data s) ∧ hostSame s (raise code data s)
    ∧ (∀ l, (hlink l (raise code data s)).items.length = (hlink l s).items.length + 1
        ∧ ∃ it ∈ (hlink l (raise code data s)).items, it.event = true ∧ it.opcode = 0 ∧ it.status = 0
            ∧ it.body = eventBody code data s)
    ∧ (s.srm.writerOn = false → (raise code data s).srm.deferred.map (fun d => (d.code, d.data))
        = s.srm.deferred.map (fun d => (d.code, d.data)) ++ [(code, data)])

/-- A write of a wrong width or alignment is discarded, a read of one returns 0xFFFF_FFFF (R9). Concludes `exec … = next …`,
with the effect, for: misalignedAccess. -/
def Obligations.WrongWidthOrAlignmentIsDiscarded : Prop :=
  ∀ (ep : Endpoint) (off : Offset) (width : Nat) (s : State), badAccess off width = true → inL0 ep s = true →
    exec (.misalignedAccess ep true off width) s = .next s
    ∧ exec (.misalignedAccess ep false off width) s = .next (emit (.readReply ep off 0xFFFFFFFF) s)

/-- A read of _LO latches _HI for the next read of it; a write takes effect with _HI, the pending _LO with it (R11, R717, R10,
R393, R635). Concludes `exec … = next …`, with the effect, for: writeLo, writeHi, readLo, readHi. -/
def Obligations.HalvesOfAPairLatchAndTakeEffect : Prop :=
  (∀ (ep : Endpoint) (off : Offset) (s : State), inL0 ep s = true → readLo off.toNat = true →
    ∃ t, exec (.readLo ep off) s = .next t
      ∧ t.out = s.out ++ [.readReply ep off (readWord ep off.toNat s)]
      ∧ onlyChanges [.hif, .out] s t ∧ hostSame s t
      ∧ ∀ u, inL0 ep u = true → (endpoint ep u).latchHi = (endpoint ep t).latchHi →
          ∃ v, exec (.readHi ep (off + 4)) u = .next v
            ∧ v.out = u.out ++ [.readReply ep (off + 4) (readWord ep (off.toNat + 4) s)]
            ∧ onlyChanges [.hif, .out] u v ∧ hostSame u v)
  ∧ (∀ (ep : Endpoint) (lo lo2 hi : Word) (s : State), inL0 ep s = true → epActive ep s = true →
    (hlink ep.link s).mgmtEn = false → s.rrw.locked = false →
    (∃ t u, exec (.writeLo ep 0x1008 lo) s = .next t ∧ hlink ep.link t = hlink ep.link s
      ∧ exec (.writeHi ep 0x100C hi) t = .next u ∧ (hlink ep.link u).db = join64 hi lo &&& ~~~0x1FFF
      ∧ onlyChanges [.hif] s u ∧ hostSame s u)
    ∧ (Tab.find 0x1008 (endpoint ep s).pendingLo = none →
        ∃ u, exec (.writeHi ep 0x100C hi) s = .next u
          ∧ (hlink ep.link u).db = join64 hi (lo32 (hlink ep.link s).db) &&& ~~~0x1FFF)
    ∧ ∃ t t2 u, exec (.writeLo ep 0x1008 lo) s = .next t ∧ exec (.writeLo ep 0x1008 lo2) t = .next t2
        ∧ exec (.writeHi ep 0x100C hi) t2 = .next u ∧ (hlink ep.link u).db = join64 hi lo2 &&& ~~~0x1FFF)

/-- A register write follows the register's access type, waits under a lock, and is denied to H2 (R12, R14, R477, R635, R707).
Concludes `exec … = next …`, with the effect, for: registerWrite. -/
def Obligations.RegisterWritesFollowTheirAccessType : Prop :=
  ∀ (ct : Ct) (v : Word) (s : State), epActive ⟨.h1, ct⟩ s = true →
    (inL0 ⟨.h1, ct⟩ s = true → s.rrw.locked = false →
      exec (.registerWrite ⟨.h1, ct⟩ 0x2C v) s
        = .next { s with sys.fvSeen := s.sys.fvSeen &&& ~~~(BitVec.ofNat 8 (fieldOf v 8 8)),
                         sys.battARev := s.sys.battARev && !flagOf v 4, sys.battBRev := s.sys.battBRev && !flagOf v 5 }
      ∧ exec (.registerWrite ⟨.h1, ct⟩ 0x1000 v) s = .next s)
    ∧ (inL0 ⟨.h1, ct⟩ s = true → s.rrw.locked = true →
        exec (.registerWrite ⟨.h1, ct⟩ 0x2C v) s = .next { s with rrw.held := s.rrw.held ++ [⟨⟨.h1, ct⟩, 0x2C, v, none⟩] })
    ∧ (inL0 ⟨.h2, ct⟩ s = true → ∃ t, exec (.registerWrite ⟨.h2, ct⟩ 0x2C v) s = .next t
        ∧ t.sec.cntDeniedWr = s.sec.cntDeniedWr + 1 ∧ t.sec.lastDenied = word (0x2C * 4096 + 1)
        ∧ onlyChanges (.sec :: eventParts) s t ∧ hostSame s t)

/-- The maker range reads 0 and is recorded; SYS_LOCATE runs 60 s from the last write of 1 (R707, R727, R65, R635). Concludes
`exec … = next …`, with the effect, for: makerRangeAccess, locateWrite, locateExpiry. -/
def Obligations.MakerRangeIsRecordedAndLocateRuns : Prop :=
  (∀ (ep : Endpoint) (low : Half) (s : State), inL0 ep s = true → low.toNat % 4 = 0 →
    (∃ t, exec (.makerRangeAccess ep false low) s = .next t
      ∧ t.out.getLast? = some (.readReply ep (BitVec.ofNat 20 (0xF0000 + low.toNat)) 0)
      ∧ onlyChanges (.sec :: eventParts) s t ∧ hostSame s t
      ∧ (if spaced (Tab.find (Link.num ep.link) s.sec.makerAt) (ticksNs 1024) s = true then
          Tab.find (Link.num ep.link) t.sec.makerAt = some s.now
         else Tab.find (Link.num ep.link) t.sec.makerHeld = some (Tab.getD 0 (Link.num ep.link) s.sec.makerHeld + 1)))
    ∧ (ep.link = .h1 → ∃ t, exec (.makerRangeAccess ep true low) s = .next t
      ∧ onlyChanges (.sec :: eventParts) s t ∧ hostSame s t))
  ∧ ((∀ (ep : Endpoint) (v : Word) (s : State), inL0 ep s = true → epActive ep s = true → s.rrw.locked = false →
    (flagOf v 0 = true → exec (.locateWrite ep v) s = .next { s with sys.locateUntil := some (s.now + 60000000000) })
    ∧ (flagOf v 0 = false → exec (.locateWrite ep v) s = .next s))
  ∧ ∀ (s : State) (d : Ns), s.sys.locateUntil = some d →
      (d ≤ s.now → exec .locateExpiry s = .next { s with sys.locateUntil := none })
      ∧ (s.now < d → exec .locateExpiry s = .next s))

/-- A drive pulse opens a relay set for its hold; without one the set closes; a monitor that disagrees is a fault (R50, R51,
R52, R56). Concludes `exec … = next …`, with the effect, for: bypassDrivePulse, bypassHoldExpiry, bypassMonitorFault. -/
def Obligations.BypassRelaysFollowTheirPulses : Prop :=
  ∀ (l : Lane) (s : State),
    (drives s = true → guarded l s = true → (slot (laneLoop l) s).st ≠ 0 →
      ∃ t, exec (.bypassDrivePulse l) s = .next t
        ∧ bypOf l t = moveContacts false { bypOf l s with holdUntil := some (s.now + 40000000) }
        ∧ bypOf (Lane.other l) t = bypOf (Lane.other l) s ∧ t.out = s.out ++ [.bypassPulse l] ∧ onlyChanges [.sys, .out] s t)
    ∧ (∀ d, (bypOf l s).holdUntil = some d → d ≤ s.now →
        ∃ t, exec (.bypassHoldExpiry l) s = .next t ∧ bypOf l t = moveContacts true { bypOf l s with holdUntil := none }
          ∧ bypOf (Lane.other l) t = bypOf (Lane.other l) s)
    ∧ (s.cel.pstate ≠ .off → ∀ b, b = (bypOf l s).holdUntil.isSome →
        ∃ t, exec (.bypassMonitorFault l b) s = .next t ∧ bypOf l t = { bypOf l s with bridged := b, stuck := true, fault := true }
          ∧ bypOf (Lane.other l) t = bypOf (Lane.other l) s)
    ∧ (∀ b : BypassState, b.stuck = false → ∀ c, (moveContacts c b).bridged = c)
    ∧ ∀ b : BypassState, b.stuck = true → ∀ c, moveContacts c b = b

/-- A cartridge that is seated or unseated changes its slot, writes its event and the swap history, and then acts by its type
(R57, R613, R614, R657, Log entry 7). Concludes `exec … = next …`, with the effect, for: cartridgeSeated, cartridgeUnseated. -/
def Obligations.SeatingAndUnseatingAreRecorded : Prop :=
  ∀ (n : Slot) (s : State), s.cel.pstate ≠ .off →
    (∀ c : CartInfo, (slot n s).st = 0 →
      ∃ x : SlotState, x.st ≠ 0 ∧ x.serial = c.serial ∧ x.build = c.build
        ∧ exec (.cartridgeSeated n c) s
            = .next (cartHere n c (appendSwap n 1 (cartType n x.lp2f) x.build x.serial
                (raise 0x0020 (d1 n.val ++ d1 (cartType n x.lp2f) ++ d6 x.serial)
                  (setLever n .none (modSlot n (fun _ => x) s))))))
    ∧ ((slot n s).st ≠ 0 → leverSafe n s = false →
      let u := setLever n .none (answerLever n (d1 3 ++ d1 0) (modSlot n (fun _ => SlotState.empty) s))
      let w := raise 0x0021 (d1 n.val ++ d1 (cartType n (slot n s).lp2f) ++ d6 (slot n s).serial) u
      exec (.cartridgeUnseated n) s
        = .next (refreshOut1 (cartGone n true (appendSwap n 3 (cartType n (slot n s).lp2f) (slot n s).build (slot n s).serial
            (raise 0xC014 (d1 n.val) { w with red.cntUnannounced := w.red.cntUnannounced + 1 })))))

/-- A strap re-read, foreign voltage on a port and a reversed battery set their flags and write their events (R62, R75, R76).
Concludes `exec … = next …`, with the effect, for: strapReread, foreignVoltageDetected, foreignVoltageCleared, reversedBattery.
-/
def Obligations.StrapsForeignVoltageAndReversedBattery : Prop :=
  ∀ s : State, s.cel.pstate ≠ .off →
    (∀ (r : StrapReading) (d : Ns), s.sys.strapDue = some d → d ≤ s.now →
      ∃ t, exec (.strapReread r) s = .next t
        ∧ t.sys.pselLive = pselOf (strapBit (some r.psel0)).1 (strapBit (some r.psel1)).1
        ∧ t.sys.plockLive = (strapBit (some r.plock)).1 ∧ t.sys.psel = s.sys.psel ∧ t.sys.plock = s.sys.plock
        ∧ t.sys.strapDue = some (s.now + 1000000000) ∧ onlyChanges (.sys :: eventParts) s t ∧ hostSame s t)
    ∧ (∀ (n : PortNo) (m : BitVec 4), connected n s = true → (slot (portSlot n) s).st ≠ 0 → ∃ t, exec (.foreignVoltageDetected n m) s = .next t
        ∧ t.sys.fvLive = s.sys.fvLive ||| BitVec.ofNat 8 (2 ^ n.val) ∧ t.sys.fvSeen = s.sys.fvSeen ||| BitVec.ofNat 8 (2 ^ n.val)
        ∧ (port n t).phyOn = false ∧ (port n t).link = false)
    ∧ (∀ n : PortNo, s.sys.fvLive.getLsbD n.val = true → ∃ t, exec (.foreignVoltageCleared n) s = .next t
        ∧ t.sys.fvLive = s.sys.fvLive &&& ~~~(BitVec.ofNat 8 (2 ^ n.val)) ∧ t.sys.fvSeen = s.sys.fvSeen)
    ∧ ∀ m : PwNo, (pw m s).st ≠ .absent → (pw m s).battRev = false → ∃ t, exec (.reversedBattery m) s = .next t
        ∧ t.sys.battARev = (s.sys.battARev || m == 0) ∧ t.sys.battBRev = (s.sys.battBRev || m == 1)
        ∧ (pw m t).battRev = true ∧ ((pw m s).battPres = true → (pw m t).battPres = false)

/-- An end accepts a key after 50 ms, loses it without sweeps, decides 100 ms later, and holds the range beyond for 10 s (R85,
R88, R89, R90, R96, R100). Concludes `exec … = next …`, with the effect, for: neighbourAccept, spanInputDisagree, neighbourLoss,
lossDecision, holdExpiry, corroborationCheck. -/
def Obligations.NeighboursAreAcceptedLostAndHeld : Prop :=
  ∀ (e : End) (s : State),
    (∀ (k : Key) (t0 : Ns), shownKey e (refreshEnd e s) = some k → (endOf e (refreshEnd e s)).condSince = some t0 →
      (endOf e s).accepted = none → (endOf e s).lost = none → isNative (refreshEnd e s) = true →
      lanesRun (refreshEnd e s) = true →
      ∃ t, exec (.neighbourAccept e) s = .next t
        ∧ (t0 + 50000000 ≤ s.now → (endOf e t).accepted = some k ∧ t.rlv.plcOnly = false
            ∧ (heardOnPlc k s = true → (endOf e t).corr = true ∧ (endOf e t).corrDue = none)
            ∧ (heardOnPlc k s = false → (endOf e t).corr = false ∧ (endOf e t).corrDue = some (s.now + 2000000000)))
        ∧ (s.now < t0 + 50000000 → (endOf e t).accepted = none))
    ∧ (∀ k, (endOf e s).accepted = some k →
        (neighbourGone e s = true → ∃ t, exec (.neighbourLoss e) s = .next t ∧ (endOf e t).accepted = none
          ∧ (endOf e t).lost = some (k, s.now + 100000000))
        ∧ (neighbourGone e s = false → exec (.neighbourLoss e) s = .next s)
        ∧ ∀ d, (endOf e s).corrDue = some d →
            (heardOnPlc k s = true →
              exec (.corroborationCheck e) s = .next (modEnd e (fun y => { y with corr := true, corrDue := none }) s))
            ∧ (heardOnPlc k s = false → d ≤ s.now → exec (.corroborationCheck e) s
                = .next (raise 0x5006 (d1 (End.num e) ++ d6 k) (modEnd e (fun y => { y with corrDue := none }) s)))
            ∧ (heardOnPlc k s = false → s.now < d → exec (.corroborationCheck e) s = .next s))
    ∧ (∀ (k : Key) (d : Ns), (endOf e s).lost = some (k, d) →
        (s.now < d → exec (.lossDecision e) s = .next s)
        ∧ (d ≤ s.now → ∃ t, exec (.lossDecision e) s = .next t ∧ (endOf e t).lost = none
            ∧ ∀ first last, isNative s = true → lostRange e k s = some (first, last) →
                (anyInactive e s = false → (endOf e t).hold = some ⟨first, last, s.now + ticksNs 10240, false⟩)
                ∧ (anyInactive e s = true → (endOf e t).hold = none)))
    ∧ (∀ h, (endOf e s).hold = some h →
        (h.expireAt ≤ s.now → ∃ t, exec (.holdExpiry e) s = .next t ∧ (endOf e t).hold = none)
        ∧ (s.now < h.expireAt → exec (.holdExpiry e) s = .next s))
    ∧ ∀ t0, (endOf e (refreshEnd e s)).disagreeSince = some t0 → t0 + 5000000000 ≤ s.now →
        (endOf e (refreshEnd e s)).disagree = false →
        ∃ t, exec (.spanInputDisagree e) s = .next t ∧ (endOf e t).disagree = true

/-- A renumbering is abandoned on time, begins again after the back-off, and at the commit cycle the pending tally is in force
(R109, R119, R120, R124, R127, R131, R137, R158). Concludes `exec … = next …`, with the effect, for: deferredSweepOriginate,
renumberBackoffExpiry, epochSwitch, cycleLengthChange, gatherTimeout, pendingTimeout, staleGraceEnd. -/
def Obligations.RenumberingTimersAndTheSwitch : Prop :=
  ∀ s : State,
    (∀ d, s.rlv.gatherDue = some d → s.rlv.st = .gather →
      (d ≤ s.now → ∃ t, exec .gatherTimeout s = .next t ∧ t.rlv.st = .gather ∧ t.rlv.gatherDue = none
        ∧ t.rlv.cntAbandon = s.rlv.cntAbandon + 1 ∧ t.rlv.backoffAt = some (s.now + (5 + (vkey s).toNat % 16) * 1000000)
        ∧ onlyChanges (.rlv :: eventParts) s t ∧ hostSame s t)
      ∧ (s.now < d → exec .gatherTimeout s = .next s))
    ∧ (∀ d, s.rlv.pendingDue = some d → s.rlv.st = .pending → d ≤ s.now →
        ∃ t, exec .pendingTimeout s = .next t ∧ t.rlv.st = .gather ∧ t.rlv.pending = none ∧ t.rlv.commitAt = none
          ∧ t.rlv.cntAbandon = s.rlv.cntAbandon + 1 ∧ t.rlv.backoffAt = some (s.now + (5 + (vkey s).toNat % 16) * 1000000)
          ∧ onlyChanges (.rlv :: eventParts) s t ∧ hostSame s t)
    ∧ (∀ d, s.rlv.backoffAt = some d → d ≤ s.now → isNative s = true → noOne s = false →
        ∃ t, exec .renumberBackoffExpiry s = .next t
          ∧ (s.rlv.st = .pending → t.rlv.st = .pending ∧ t.rlv.gatherAtSwitch = true)
          ∧ (s.rlv.st ≠ .pending → t.rlv.st = .gather
              ∧ t.rlv.gatherDue = some (s.now + (if slowTrain s then 400 else 200) * 1000000)))
    ∧ (∀ (d : Ns) (e : End), s.rlv.deferredSweepAt = some d → d ≤ s.now → sweepEnd s = some e →
        ∃ t, exec .deferredSweepOriginate s = .next t ∧ t.rlv.deferredSweepAt = none ∧ t.rlv.lastSweepAt = some s.now
          ∧ t.rlv.msgNum = s.rlv.msgNum + 1)
    ∧ (∀ (c : Nat) (x : Tally), s.rlv.commitAt = some c → s.rlv.pending = some x → s.rlv.end1.barredHere = false →
        s.rlv.end2.barredHere = false → (s.rlv.gatherAtSwitch = false ∨ ∃ e, hasNbr e s = true) →
        (cycleIdx s < c → exec .epochSwitch s = .next s)
        ∧ (c ≤ cycleIdx s → ∃ t, exec .epochSwitch s = .next t ∧ t.rlv.epoch = x.newEpoch ∧ t.rlv.digest = x.newDigest
            ∧ t.rlv.refKey = x.refKey ∧ t.rlv.poly = x.entries ∧ t.rlv.pending = none ∧ t.rlv.commitAt = none
            ∧ t.rlv.graceUntil = some (s.now + 100000000) ∧ t.rlv.cntCommit = s.rlv.cntCommit + 1
            ∧ t.rlv.st = (if s.rlv.gatherAtSwitch then .gather else .settled)))
    ∧ (∀ d, s.rlv.graceUntil = some d →
        (d ≤ s.now → exec .staleGraceEnd s = .next { s with rlv.graceUntil := none })
        ∧ (s.now < d → exec .staleGraceEnd s = .next s))
    ∧ ∀ d, s.bbn.cycleChangeAt = some d →
        (d ≤ ttime s → exec .cycleLengthChange s = .next { s with bbn.cycle1ms := true, bbn.cycleChangeAt := none })
        ∧ (ttime s < d → exec .cycleLengthChange s = .next s)

/-- A span sweep leaves every 10 ms; a lone vertex joins over the power line; interop begins and ends; the query and the pin
answer (R82, R101, R108, R141, R142, R147, R737). Concludes `exec … = next …`, with the effect, for: spanSweepSend, plcOnlyJoin,
foreignHelloConfirm, interopExit, rlvQuery, rlvPinReference. -/
def Obligations.SweepsJoinsInteropAndThePin : Prop :=
  ∀ s : State,
    (∀ (n : PortNo) (l : Lane) (e : End) (d : Ns), portLane n s = some (l, e) → s.rlv.sweepDue[n] = some d → d ≤ s.now →
      (port n s).link = true → isNative s = true →
      let r := refreshDist s
      let u : State := { r with rlv.sweepDue := s.rlv.sweepDue.set n (some (d + 10000000)), rlv.msgNum := s.rlv.msgNum + 1 }
      let w : Sweep := { sweepBody 0 e r with barred := (endOf e s).barredHere, foreignDist := BitVec.ofNat 6 (sentDist l e r) }
      exec (.spanSweepSend n) s
        = .next (preemptAll
            (sendOnLane l e (nodeFrame spanKey nodeLabel (encodeRlv ⟨vkey s, s.rlv.msgNum, 0, .sweep w⟩) u) none none u)))
    ∧ (∀ c : Chan, (plc c s).att = .associated → (plc c s).role = 0 → noNeighbour s = true → s.rlv.plcOnly = false →
        isNative s = true →
        (heardLong c s = true → ∃ t, exec (.plcOnlyJoin c) s = .next t ∧ t.rlv.plcOnly = true
          ∧ (s.rlv.st ≠ .pending → t.rlv.st = .gather))
        ∧ (heardLong c s = false → exec (.plcOnlyJoin c) s = .next s))
    ∧ (∀ (n : PortNo) (l : Lane) (e : End) (d : Ns), portLane n s = some (l, e) → (spanOf l e s).hello = some d →
        d + 30000000 ≤ s.now → ∃ t, exec (.foreignHelloConfirm n) s = .next t ∧ (spanOf l e t).foreign = true
          ∧ (s.rlv.interopAllow = true → t.rlv.st = .interop ∧ (carriesHello l e s = true → t.rlv.foreignDist = 0))
          ∧ (s.rlv.interopAllow = false → t.rlv.st = s.rlv.st))
    ∧ (isNative s = false → ∀ d, (refreshDist s).rlv.foreignQuietSince = some d →
        (d + 10000000000 ≤ s.now → ∃ t, exec .interopExit s = .next t ∧ (t.rlv.st = .gather ∨ t.rlv.st = .alone))
        ∧ (s.now < d + 10000000000 → exec .interopExit s = .next (refreshDist s)))
    ∧ (∀ r : Req, allowedAt 0x0501 (authorityOf r.port s) = some true → r.body = [] →
        exec (.rlvQuery r) s = .next (answer r 0x0501 stOk (encodeTally (committedTally s)) s))
    ∧ ∀ r : Req, allowedAt 0x0502 (authorityOf r.port s) = some true →
        (r.body.length = 6 → ∃ t, exec (.rlvPinReference r) s = .next t ∧ t.rlv.ownPin = some (mkKey (ofLE r.body)))
        ∧ (r.body.length ≠ 6 → exec (.rlvPinReference r) s = .next (answer r 0x0502 stMalformed [] s))

/-- Every well-formed Rolavo message is decoded from its bytes as it was (R112, R113, R114, R116). -/
def Obligations.RolavoMessagesRoundTrip : Prop :=
  ∀ m : RlvMsg, m.body.wf = true → decodeRlv (encodeRlv m) = some m

/-- A line port classifies what it receives by length, FCS, port role and kind, and counts it (R220, R201, R270, R275, R187,
R141, R80). Concludes `exec … = next …`, with the effect, for: portFrameReceived. -/
def Obligations.PortFramesAreClassified : Prop :=
  ∀ (n : PortNo) (s : State), (port n s).link = true → ((port n s).role = 1 → watchQuiet s = false) →
    let fin := fun t => preemptAll (flowCheck n (leavingNative s t))
    (∀ b : List Byte,
      let u := modPort n (fun x => { x with los := false }) s
      (wireLen b < 64 → exec (.portFrameReceived n (.frame b true true false)) s = .next (fin (bump n 0x45C u)))
      ∧ (64 ≤ wireLen b → wireLen b ≤ effMaxLen n s → macControl b = none →
          ((portLane n s = none ∧ (port n s).role = 1 ∧ (port n s).watch = false) →
            exec (.portFrameReceived n (.frame b true true false)) s
              = .next (fin (consistFrame n b (countFrame n 0x400 b u))))
          ∧ (∀ l e, portLane n s = some (l, e) → exec (.portFrameReceived n (.frame b true true false)) s
              = .next (fin (laneFrame n l e b true (countFrame n 0x400 b u)))))
      ∧ (64 ≤ wireLen b → wireLen b ≤ effMaxLen n s → portLane n s = none →
          exec (.portFrameReceived n (.frame b false true false)) s
            = .next (fin (bump n (0x42C + 4 * sizeBin (wireLen b)) (bump n 0x450 u))))
      ∧ (∀ k j : BitVec 2, (port n s).assembly = none → exec (.portFrameReceived n (.fragment true k j b (mcrc b))) s
          = .next (fin (modPort n (fun p => { p with assembly := some ⟨b, k, 0, false⟩ }) (bump n 0x478 s))))
      ∧ (∀ l e, portLane n s = some (l, e) → exec (.portFrameReceived n (.hello b)) s
          = .next (fin (helloIn n (countFrame n 0x400 b u))))
      ∧ ∀ l e (d : Int) (v g : Bool), portLane n s = some (l, e) → exec (.portFrameReceived n (.gptpSync b d v g)) s
          = .next (fin (takeSync n d v g (frameIn n b true true false s))))
    ∧ ((port n s).verify = .verifying → ∃ t, exec (.portFrameReceived n .respond) s = .next t
        ∧ (port n t).verify = .succeeded ∧ (port n t).preemptActive = true)
    ∧ (preemptOn n s = true → exec (.portFrameReceived n .verify) s = .next (fin (emit (.verify n false) s)))

/-- The receiver holds only numbers 1 to 63 ahead, in order, and accounts for every number it passes exactly once (R174, R175).
-/
def Obligations.AnArrivingFrameKeepsItsFlowInOrder : Prop :=
  ∀ (h : HeldFrame) (r : RxFlow),
    let inOrder := fun (x : RxFlow) =>
      x.held.Pairwise (fun a b => ahead x.next a.frame.fseq < ahead x.next b.frame.fseq)
      ∧ ∀ y ∈ x.held, 1 ≤ ahead x.next y.frame.fseq ∧ ahead x.next y.frame.fseq ≤ 63
    inOrder r →
      inOrder (placeFrame h r).1
      ∧ ((placeFrame h r).2.1.map fun o => match o with | .deliver _ => 1 | .gap _ k => k).sum
          = ahead r.next (placeFrame h r).1.next
      ∧ (32768 ≤ ahead r.next h.frame.fseq → (placeFrame h r).1 = r ∧ (placeFrame h r).2.1 = [])

/-- A frame held 2 ms is given up to, and flow state ages out after 10 s without a frame (R173, R174, R177). Concludes `exec … =
next …`, with the effect, for: reorderHoldExpiry, rxFlowAgeOut, txFlowAgeOut. -/
def Obligations.FlowStateIsGivenUpAndAgesOut : Prop :=
  ∀ (id : FlowId) (s : State),
    (∀ (r : RxFlow) (h : HeldFrame) (rest : List HeldFrame), findRx id s.bbn.rxFlows = some r → r.held = h :: rest →
      h.at_ + 2000000 ≤ s.now → ∃ t, exec (.reorderHoldExpiry id) s = .next t
        ∧ findRx id t.bbn.rxFlows = some (giveUp (ahead r.next h.frame.fseq) r).1)
    ∧ (∀ r : RxFlow, findRx id s.bbn.rxFlows = some r → r.held = [] →
        (r.last + 10000000000 ≤ s.now → exec (.rxFlowAgeOut id) s
          = .next { s with bbn.rxFlows := s.bbn.rxFlows.filter fun x => x.id != id })
        ∧ (s.now < r.last + 10000000000 → exec (.rxFlowAgeOut id) s = .next s))
    ∧ ∀ f : TxFlow, findTx id s.bbn.txFlows = some f →
        (f.last + 10000000000 ≤ s.now → exec (.txFlowAgeOut id) s
          = .next { s with bbn.txFlows := s.bbn.txFlows.filter fun x => x.id != id })
        ∧ (s.now < f.last + 10000000000 → exec (.txFlowAgeOut id) s = .next s)

/-- Class U leaves once per lane and cycle in this vertex's own slot; a transit frame at its instant; a span comes up after 1 s
(R42, R162, R164, R165, R180, R128). Concludes `exec … = next …`, with the effect, for: classUOriginate, classURelease, spanUp.
-/
def Obligations.ClassULeavesInItsSlotOnly : Prop :=
  ∀ (l : Lane) (s : State), nativeRun s = true → 2 ≤ s.rlv.poly.length →
    (∀ (o : OutFrame) (rest : List OutFrame) (f : NatFrame) (k : Nat) (e : End) (n : PortNo),
      slotW l s * (s.rlv.ord - 1) ≤ cyclePos s → cyclePos s < slotW l s * s.rlv.ord → quietNow s = false →
      heldOrd s.rlv.ord s = false → lastUrgent l s ≠ some (cycleIdx s) → urgentRuns s = true → noticesOn l s = [] →
      uQueue l s = o :: rest → o.nat = some f → ordOf f.dst s = some k → endTowards k s = some e → lanePort l e s = some n →
      spanIsUp l e s = true → (nbrOrd e s).isSome = true →
      ∃ t, exec (.classUOriginate l) s = .next t ∧ uQueue l t = rest ∧ lastUrgent l t = some (cycleIdx s)
        ∧ t.out = s.out ++ [.frame n o.bytes false])
    ∧ (lastUrgent l s = some (cycleIdx s) → exec (.classUOriginate l) s = .next s)
    ∧ (∀ (out : Bool) (x : Transit) (n : PortNo),
        (s.bbn.transit.find? fun y => y.lane == l && y.outbound == out && decide (y.instant ≤ s.now)) = some x →
        lanePort l (egressEnd out s) s = some n → spanIsUp l (egressEnd out s) s = true →
        (nbrOrd (egressEnd out s) s).isSome = true → lanesRun s = true →
        ∃ t, exec (.classURelease l out) s = .next t ∧ t.bbn.transit = s.bbn.transit.erase x
          ∧ t.out = s.out ++ [.frame n x.bytes (!x.fcsOk)]
          ∧ t.bbn.cntStomp = s.bbn.cntStomp + (if x.fcsOk then 0 else 1))
    ∧ ∀ (e : End) (n : PortNo) (t0 : Ns), lanePort l e s = some n → (port n s).link = true → (port n s).los = false →
        viewsOk n.val s = true → leverBusy (portSlot n) s = false → sweepsOn l e s = true →
        (port n s).sweepSince = some t0 → slowSpan l e s = false → verifyBad (port n s) = false → barredAt e s = false →
        (t0 + 1000000000 ≤ s.now → exec (.spanUp l e) s = .next (declareUp l e s))
        ∧ (s.now < t0 + 1000000000 → exec (.spanUp l e) s = .next s)

/-- Three seconds without Sync clear SYNC_OK; bbn_time_set is rounded, stepped and answered, or times out after 15 s (R5, R188,
R189, R190, R191). Concludes `exec … = next …`, with the effect, for: syncLoss, bbnTimeSet, timeSetStep, timeSetSettleTimeout,
timeSetRequestTimeout. -/
def Obligations.TrainTimeIsLostSetAndSettled : Prop :=
  ∀ s : State,
    (∀ d, s.bbn.gm = false → s.bbn.lastSync = some d →
      (d + 3000000000 ≤ s.now → ∃ t, exec .syncLoss s = .next t ∧ t.bbn.syncOk = false ∧ t.bbn.firstSync = true
        ∧ trainTime t = trainTime s)
      ∧ (s.now < d + 3000000000 → exec .syncLoss s = .next s))
    ∧ (∀ r : Req, allowedAt 0x0401 (authorityOf r.port s) = some true → r.body.length = 8 → (r.port = .h1 ∨ r.port = .h2) →
        isReference s = true → beaconSource s = none →
        exec (.bbnTimeSet r) s = .next { s with
          bbn.setOpen := s.bbn.setOpen ++ [⟨r.port, r.tag, s.now + 15000000000⟩],
          bbn.setRef := s.bbn.setRef
            ++ [⟨vkey s, r.tag, some r.port, wholeMs ((leAt r.body 0 8 : Int) - (ttime s : Int)), nextCycle s, none⟩] })
    ∧ (∀ x : TimeSetRef, s.bbn.stepDue = none → s.rlv.pending = none → isReference s = true → asksCoordinator s = false →
        (s.bbn.setRef.find? fun y => y.settleBy.isNone && decide (y.at_ ≤ ttime s)) = some x →
        ∃ t, exec .timeSetStep s = .next t ∧ t.bbn.timeValid = true ∧ trainTime t = trainTime s + BitVec.ofInt 64 x.step
          ∧ { x with settleBy := some (s.now + 10000000000) } ∈ t.bbn.setRef)
    ∧ (∀ (x : TimeSetRef) (p : MgmtPort) (o : TimeSetOpen) (d : Ns), (s.bbn.setRef.find? fun y => y.settleBy.isSome) = some x →
        x.port = some p → x.settleBy = some d → (s.bbn.setOpen.find? fun y => y.tag == x.tag) = some o →
        let u : State := { s with bbn.setRef := s.bbn.setRef.erase x, bbn.setOpen := s.bbn.setOpen.erase o }
        exec (.timeSetSettleTimeout true) s = .next (respond o.port x.tag 0x0401 stOk [] u)
        ∧ (d ≤ s.now → exec (.timeSetSettleTimeout false) s = .next (respond o.port x.tag 0x0401 stTimeout [] u))
        ∧ (s.now < d → exec (.timeSetSettleTimeout false) s = .next s))
    ∧ ∀ o : TimeSetOpen, (s.bbn.setOpen.find? fun y => decide (y.deadline ≤ s.now)) = some o →
        exec .timeSetRequestTimeout s
          = .next (respond o.port o.tag 0x0401 stTimeout [] { s with bbn.setOpen := s.bbn.setOpen.erase o })

/-- Every well-formed native frame is decoded from its lane bytes as it was, its header check included (R150, R152, R153). -/
def Obligations.NativeFramesRoundTrip : Prop :=
  ∀ f : NatFrame, f.wf = true → decodeNative (encodeNative f) = some f ∧ decodeNatBytes (natBytes f) = some f

/-- A link that comes up shows its speed and clears loss of signal; one that goes down shows no link (R216, R217, R207, R208).
Concludes `exec … = next …`, with the effect, for: lossOfSignal, linkUp, linkDown. -/
def Obligations.LinkUpAndDown : Prop :=
  ∀ (n : PortNo) (s : State),
    (∀ (v : LinkSpeed) (mdix master par : Bool), mayLink n v s = true →
      ∃ t, exec (.linkUp n v mdix master par) s = .next t ∧ (port n t).link = true ∧ (port n t).speed = v
        ∧ (port n t).los = false ∧ (port n t).changing = false ∧ (port n t).mdix = mdix)
    ∧ ((port n s).link = true → ∃ t, exec (.linkDown n) s = .next t ∧ (port n t).link = false ∧ (port n t).speed = .down
        ∧ (port n t).rxPauseUntil = none ∧ (port n t).rxPfcUntil = Vector.replicate 8 none
        ∧ portCount n 0x4E0 t = portCount n 0x4E0 s + 1)
    ∧ ((port n s).link = true → (port n s).los = false → ∃ t, exec (.lossOfSignal n) s = .next t
        ∧ (port n t).los = true ∧ (port n t).link = true)
    ∧ ((port n s).los = true → exec (.lossOfSignal n) s = .next s)

/-- A speed change without a partner is aborted and tried again after 2 s of silence; an overdue one writes event 0x3042 once
(R208, R210, R212). Concludes `exec … = next …`, with the effect, for: speedChangeAbort, speedChangeRetry, speedChangeOverdue.
-/
def Obligations.SpeedChangesAbortRetryAndEnd : Prop :=
  ∀ (n : PortNo) (s : State), (port n s).changing = true →
    ((port n s).phyOn = true → (port n s).link = false →
      (∃ t, exec (.speedChangeAbort n) s = .next t ∧ (port n t).phyOn = false ∧ (port n t).speedAborted = true
        ∧ (port n t).retryAt = some (s.now + 2000000000) ∧ (port n t).changing = true
        ∧ onlyChanges (.lp :: eventParts) s t ∧ hostSame s t)
      ∧ ∀ d, (port n s).overdueAt = some d → d ≤ s.now →
          exec (.speedChangeOverdue n) s
            = .next (raise 0x3042 (d1 n.val) (modPort n (fun x => { x with overdueAt := none }) s)))
    ∧ ∀ d, (port n s).retryAt = some d → d ≤ s.now → phyWanted n s = true → (port n s).link = false →
        ∃ t, exec (.speedChangeRetry n) s = .next t ∧ (port n t).phyOn = true ∧ (port n t).changing = true
          ∧ (port n t).target = (targetOf n s).1 ∧ (port n t).forced = (targetOf n s).2 ∧ (port n t).retryAt = none
          ∧ (port n t).overdueAt = some (s.now + linkUpMax (targetOf n s).1 (targetOf n s).2) ∧ onlyChanges [.lp] s t

/-- lp_speed_restore clears RESTRICTED 100 cycles ahead, a wake pattern is a hit, a cable test takes the port down and ends
(R214, Log entry 17, R233, R235, R239, R240, R242). Concludes `exec … = next …`, with the effect, for: lpSpeedRestore,
speedRestoreCycle, wakePatternMatch, lpCableTest, cableTestDone. -/
def Obligations.SpeedRestoreWakePatternsAndCableTests : Prop :=
  ((∀ (r : Req) (s : State), allowedAt 0x0302 (authorityOf r.port s) = some true →
    (∀ l : Lane, r.body = [BitVec.ofNat 8 (Lane.num l), 0, 0, 0] → nativeRun s = true →
        (spansUp (Lane.other l) s = true →
          ∃ t, exec (.lpSpeedRestore r) s = .next t
            ∧ t.restores = s.restores ++ [⟨l, cycleIdx s + 100, false, some (r.port, r.tag)⟩])
        ∧ (spansUp (Lane.other l) s = false → exec (.lpSpeedRestore r) s = .next (answer r 0x0302 stBusy [] s)))
    ∧ (r.body.length ≠ 4 → exec (.lpSpeedRestore r) s = .next (answer r 0x0302 stMalformed [] s)))
  ∧ ∀ (s : State) (x : RestoreState), x ∈ s.restores → x.applied = false → x.cycle ≤ cycleIdx s →
      ∃ t, exec (.speedRestoreCycle x.lane) s = .next t
        ∧ ∀ (n : PortNo) (e : End), portLane n s = some (x.lane, e) → (port n t).restricted = false)
  ∧ ((∀ (n : PortNo) (b : List Byte) (k : Fin 4) (s : State), (port n s).watch = true → (port n s).role = 1 →
      (port n s).link = true → s.cel.pstate = .cellar → patternOf (port n s) b = some k →
      ∃ t, exec (.wakePatternMatch n b true) s = .next t ∧ (port n t).wakeHit = word (2 ^ 31 + k.val))
  ∧ (∀ (r : Req) (n : PortNo) (s : State), allowedAt 0x0301 (authorityOf r.port s) = some true →
      r.body = [BitVec.ofNat 8 n.val, 0, 0, 0] → ((portLane n s).isSome = true → (port n s).link = false) → (port n s).test = none → (port n s).changing = false →
      s.bgt.level.val < 3 → fvLiveAt n s = false → slotReady (portSlot n) s = true →
      ∃ t, exec (.lpCableTest r) s = .next t ∧ (port n t).test = some ⟨r.port, r.tag, []⟩ ∧ (port n t).link = false)
  ∧ ∀ (n : PortNo) (x : CableTest) (s : State), (port n s).test = some x →
      (∀ r : PairResult, x.done.length < 3 → exec (.cableTestDone n r []) s
        = .next (modPort n (fun p => { p with test := some { x with done := x.done ++ [pairFound n x.done.length r s] } }) s))
      ∧ ∀ r0 r1 r2 r3 : PairResult, x.done = [] → ∃ t, exec (.cableTestDone n r0 [r1, r2, r3]) s = .next t
          ∧ (port n t).test = none
          ∧ (port n t).cableRes0 = word ((pairFound n 0 r0 s).toNat + 65536 * (pairFound n 1 r1 s).toNat)
          ∧ (port n t).cableRes1 = word ((pairFound n 2 r2 s).toNat + 65536 * (pairFound n 3 r3 s).toNat))

/-- A free port starts the frame the rules choose, whole or up to its split point, and takes the gate entry in force (R253,
R258, R262, R263, R271). Concludes `exec … = next …`, with the effect, for: egressStart, gateEntryChange. -/
def Obligations.APortStartsTheChosenFrame : Prop :=
  ∀ (n : PortNo) (s : State),
    ((port n s).sending = none → mayTransmit n s = true →
      (∀ (q : Fin 8) (f : OutFrame) (k : Nat) (pre : Bool), choose n (readyPort n s) = some (.head q f k pre) → f.sent = 0 →
        ∃ t x, exec (.egressStart n) s = .next t ∧ (port n t).sending = some x ∧ x.frame.bytes = f.bytes ∧ x.startAt = s.now
          ∧ x.endAt = s.now + wireNs (port n s).speed (k + 4) ∧ x.upTo = k ∧ x.from_ = 0 ∧ x.preemptable = pre
          ∧ x.queue = q.val ∧ (port n t).queues[q] = dropFree n (readyPort n s) (port n (readyPort n s)).queues[q])
      ∧ (choose n (readyPort n s) = none → ∃ t, exec (.egressStart n) s = .next t ∧ (port n t).sending = none))
    ∧ (∀ (i : Nat) (left : Ns), (port n s).gateEn = true → gateNow (port n s) s = some (i, left) →
        let w := (listEntries (activeList (port n s))).getD i 0
        ∃ t, exec (.gateEntryChange n) s = .next t ∧ (port n t).gateEntry = BitVec.ofNat 6 i ∧ (port n t).gates = entryGates w
          ∧ ((port n s).preemptActive = false → (port n t).hold = false)
          ∧ (entryOp w = 2 → (port n t).hold = false)
          ∧ ((port n s).preemptActive = true → entryOp w = 1 → (port n t).hold = true))
    ∧ ((port n s).gateEn = false → exec (.gateEntryChange n) s = .next s)

/-- Verify is tried three times and then fails, stops end with their quanta, XOFF repeats, a storm lasts 10 s (R270, R273, R279,
R280, R283). Concludes `exec … = next …`, with the effect, for: verifyWaitExpiry, laneVerifyRetry, pauseExpiry, xoffRepeat,
pauseStorm, pauseStormEnd. -/
def Obligations.VerifyAndPauseTimers : Prop :=
  ∀ (n : PortNo) (s : State),
    (∀ d, (port n s).verify = .verifying → (port n s).verifyDue = some d → d ≤ s.now →
      ((port n s).verifyTries % 3 ≠ 0 → ∃ t, exec (.verifyWaitExpiry n) s = .next t
        ∧ t.out = s.out ++ [.verify n true] ∧ (port n t).verifyTries = (port n s).verifyTries + 1
        ∧ (port n t).verifyDue = some (s.now + verifyTime n s))
      ∧ ((port n s).verifyTries % 3 = 0 → ∃ t, exec (.verifyWaitExpiry n) s = .next t ∧ (port n t).verify = .failed
        ∧ portCount n 0x4F4 t = portCount n 0x4F4 s + 1))
    ∧ (∀ d, (port n s).link = true → (port n s).verify = .failed → laneMode n s = true →
        (port n s).verifyDue = some d → d ≤ s.now → ∃ t, exec (.laneVerifyRetry n) s = .next t
          ∧ t.out = s.out ++ [.verify n true] ∧ (port n t).verify = .verifying)
    ∧ (∀ d, (port n s).rxPauseUntil = some d → ∃ t, exec (.pauseExpiry n) s = .next t ∧ onlyChanges (.lp :: eventParts) s t ∧ hostSame s t
        ∧ (d ≤ s.now → (port n t).rxPauseUntil = none) ∧ (s.now < d → (port n t).rxPauseUntil = some d))
    ∧ (let u := port n (flowCheck n s)
       let next := some (s.now + bitTimes (port n s).speed (256 * (port n s).quanta.toNat))
       (∀ (p : Fin 8) (d : Ns), u.txXoff.getLsbD p.val = true → u.xoffRepeatAt[p] = some d → d ≤ s.now →
          ∃ t, exec (.xoffRepeat n) s = .next t ∧ (port n t).xoffRepeatAt[p] = next ∧ onlyChanges [.lp] s t ∧ hostSame s t
            ∧ (port n s).ctl.length < (port n t).ctl.length)
       ∧ ∀ d, u.txPauseXoff = true → u.pauseRepeatAt = some d → d ≤ s.now →
          ∃ t, exec (.xoffRepeat n) s = .next t ∧ (port n t).pauseRepeatAt = next ∧ onlyChanges [.lp] s t ∧ hostSame s t
            ∧ (port n s).ctl.length < (port n t).ctl.length)
    ∧ (∀ (q : Fin 8) (d : Ns), queueStopped n q.val s = true → (port n s).stoppedSince[q] = some d → d + 500000000 ≤ s.now →
        ∃ t, exec (.pauseStorm n) s = .next t ∧ (port n t).storm = true ∧ (port n t).stormUntil = some (s.now + 10000000000)
          ∧ (port n t).rxPauseUntil = none ∧ (port n t).rxPfcUntil = Vector.replicate 8 none)
    ∧ ∀ d, (port n s).stormUntil = some d →
        (d ≤ s.now → exec (.pauseStormEnd n) s = .next (modPort n (fun p => { p with stormUntil := none }) s))
        ∧ (s.now < d → exec (.pauseStormEnd n) s = .next s)

/-- A power-line channel attaches step by step, aborts where its line is pulled or changes class, and tries again after 2 s
(R289, R291, R292, R325). Concludes `exec … = next …`, with the effect, for: plcSenseEnd, plcRampPull, plcAttachRetry,
plcRampEnd, plcRelayClosed, plcLockEnd, plcListenEnd, plcLineClassChange. -/
def Obligations.APowerLineChannelAttachesInSteps : Prop :=
  ∀ (c : Chan) (s : State),
    ((plc c s).att = .sensing → ∀ m : LineMeas, ∃ t, exec (.plcSenseEnd c m) s = .next t
      ∧ (plc c t).line = classifyLine (plc c s) m
      ∧ (classifyLine (plc c s) m = .ac ∨ classifyLine (plc c s) m = .dc → (plc c t).att = .ramp
          ∧ (plc c t).stepAt = s.now + 200000000 ∧ (plc c t).synth = (classifyLine (plc c s) m == .dc))
      ∧ (classifyLine (plc c s) m ≠ .ac → classifyLine (plc c s) m ≠ .dc →
          (plc c t).att = .detached ∧ (plc c t).retryAt = some (s.now + 2000000000)))
    ∧ ((plc c s).att = .ramp → ∃ t, exec (.plcRampPull c) s = .next t ∧ (plc c t).att = .detached
        ∧ (plc c t).retryAt = some (s.now + 2000000000) ∧ (plc c t).cntAttachAbort = (plc c s).cntAttachAbort + 1)
    ∧ ((plc c s).att = .ramp ∨ (plc c s).att = .closing → ∀ m : LineMeas, classifyLine (plc c s) m ≠ (plc c s).line →
        ∃ t, exec (.plcLineClassChange c m) s = .next t ∧ (plc c t).att = .detached
          ∧ (plc c t).retryAt = some (s.now + 2000000000) ∧ (plc c t).cntAttachAbort = (plc c s).cntAttachAbort + 1)
    ∧ (∀ d, (plc c s).att = .detached → (plc c s).retryAt = some d → d ≤ s.now → plcWanted c s = true →
        exec (.plcAttachRetry c) s
          = .next (modPlc c (fun p => { p with att := .sensing, stepAt := s.now + 100000000, retryAt := none }) s))
    ∧ ((plc c s).att = .ramp → (plc c s).stepAt ≤ s.now → exec (.plcRampEnd c) s
        = .next (modPlc c (fun p => { p with att := .closing, stepAt := s.now + 35000000 }) s))
    ∧ ((plc c s).att = .closing → ∃ t, exec (.plcRelayClosed c) s = .next t
        ∧ (plc c t).att = .locking ∧ (plc c t).winAt = s.now ∧ (plc c t).winIdx = 0 ∧ onlyChanges [.plc, .slp] s t)
    ∧ ((plc c s).att = .locking → ∃ t, exec (.plcLockEnd c) s = .next t
        ∧ (plc c t).att = (if (plc c s).stn = 0 then .listening else .associated)
        ∧ (plc c t).stepAt = s.now + 2 * superframe (plc c s) ∧ onlyChanges [.plc] s t)
    ∧ ((plc c s).att = .listening → (plc c s).role = 0 → (plc c s).stepAt ≤ s.now → (plc c s).coord = 0 →
        ∃ t, exec (.plcListenEnd c) s = .next t ∧ (plc c t).att = .listening ∧ (plc c t).stn = 0
        ∧ (coordOkCfg (plc c s) = true → (plc c t).coord = vkey s ∧ (plc c t).role.toNat = plcAccess (plc c s)
            ∧ (plc c t).winIdx = 31 ∧ ∃ k, (plc c t).joinIn = some k ∧ k < 8)
        ∧ (coordOkCfg (plc c s) = false → (plc c t).coord = 0 ∧ (plc c t).stepAt = s.now + 2 * superframe (plc c s)))

/-- A closed relay outlasts its line, silence opens it; plc_attach holds off and releases; crossings slew 20 µs; a calibration
stores its delay (R294, R295, R297, R298, R299, Log entry 17). Concludes `exec … = next …`, with the effect, for: plcLineLost,
plcNothingDecoded, plcDetach, plcAttachAgain, zeroCrossing, plcCalZc, calZcDone. -/
def Obligations.LineLossHoldOffCrossingsAndCalibration : Prop :=
  ∀ (c : Chan) (s : State),
    (relayClosed (plc c s) = true →
      ((plc c s).line ≠ .absent → ∃ t, exec (.plcLineLost c) s = .next t ∧ (plc c t).att = (plc c s).att
        ∧ (plc c t).line = .absent ∧ (plc c t).synth = true ∧ (plc c t).halfCycle = 10000000)
      ∧ ((plc c s).lastFrame + 3 * superframe (plc c s) ≤ s.now → ∃ t, exec (.plcNothingDecoded c) s = .next t
        ∧ (plc c t).att = .detached ∧ (plc c t).retryAt = some (s.now + 2000000000))
      ∧ (s.now < (plc c s).lastFrame + 3 * superframe (plc c s) → exec (.plcNothingDecoded c) s = .next s)
      ∧ ∀ (i : Ns) (m : LineMeas), slotReady pcSlot s = true → classifyLine (plc c s) m = .ac → (plc c s).cal = none →
        ∃ t, exec (.zeroCrossing c i m) s = .next t ∧ (plc c t).line = .ac ∧ (plc c t).synth = false
        ∧ (plc c t).missing = 0 ∧ onlyChanges [.plc, .out] s t
        ∧ ((plc c s).att ≠ .locking → (plc c t).winAt ≤ (plc c s).winAt + 20000 ∧ (plc c s).winAt ≤ (plc c t).winAt + 20000))
    ∧ (∀ r : Req, allowedAt 0x0602 (authorityOf r.port s) = some true → r.body = [BitVec.ofNat 8 c.val, 0, 0] →
        (∃ t, exec (.plcDetach r) s = .next t ∧ (plc c t).heldOff = true ∧ (plc c t).att = .detached)
        ∧ (∃ t, exec (.plcAttachAgain r) s = .next t ∧ (plc c t).heldOff = false))
    ∧ (∀ (r : Req) (m : LineMeas), allowedAt 0x0601 (authorityOf r.port s) = some true →
        r.body = [BitVec.ofNat 8 c.val, 0, 0, 0] → (plc c s).cal = none →
        let refused := fun k => raise 0x6012 (d1 c.val ++ d1 k) (answer r 0x0601 stCalRefused (d1 k) s)
        (slotReady pcSlot s = false → exec (.plcCalZc ⟨r, m⟩) s = .next (refused 1))
        ∧ (slotReady pcSlot s = true → exec (.plcCalZc ⟨r, m⟩) s = .next (match classifyLine (plc c s) m with
            | .ac => if m.thd < 80 then modPlc c (fun p => { p with cal := some ⟨r.port, r.tag, 0⟩ }) s else refused 3
            | .absent => refused 1
            | .dc => refused 2
            | .invalid => refused 5
            | .heating => refused 1)))
    ∧ ∀ (k : CalRun) (d : BitVec 20), (plc c s).cal = some k →
        (∃ t, exec (.calZcDone c d false false) s = .next t ∧ (plc c t).cal = none ∧ (plc c t).zcOffset = d
          ∧ (plc c t).calValid = true ∧ (plc c t).stale = false ∧ (plc c t).calSerial = (slot pcSlot s).serial)
        ∧ (∃ t, exec (.calZcDone c d true false) s = .next t ∧ (plc c t).cal = none ∧ (plc c t).zcOffset = (plc c s).zcOffset
          ∧ flashSame s t)

/-- A window begins on time with its winners; beacons, joins, polls, silences and soundings change what a station knows (R306,
R309, R317, R320, R323, R324, R325, R326, Log entry 20). Concludes `exec … = next …`, with the effect, for: plcWindowStart,
beaconReceived, beaconLossWait, soundingSend, stationSilenceExpiry, joinReceived, pollReceived. -/
def Obligations.PowerLineWindowsStationsAndSoundings : Prop :=
  ∀ (c : Chan) (s : State), plcRuns c s = true → (plc c s).att ≠ .locking →
    (∀ others : List (BitVec 7), (plc c s).winAt ≤ s.now →
      ∃ t, exec (.plcWindowStart c others) s = .next t ∧ (plc c t).winIdx = (plc c s).winIdx + 1
        ∧ (plc c t).winCount = (plc c s).winCount + 1 ∧ (plc c t).winStart = (plc c s).winAt
        ∧ ((plc c s).winIdx ≠ 31 → (plc c t).winAt = (plc c s).winAt + (plc c s).halfCycle)
        ∧ ((plc c s).urgents = [] → s.now < (plc c s).winAt + 180000 * (plc c t).w.toNat →
            ∀ w, (winnersOf others (plc c s).rotation (uMaxOf (plc c t).w)).getLast? = some w →
            (plc c t).rotation = if w = 126 then 1 else w + 1))
    ∧ (∀ (fc : BitVec 121) (x : BitVec 105) (body : List Byte) (b : Beacon) (at_ : Ns), fcRead fc = some x →
        fcGet x 18 87 = 0 → readBeacon body = some b → (plc c s).role = 0 → (plc c s).gotBeacon = false →
        (fcGet x 0 4 = 3 ∧ b.access ≠ 2) ∨ (fcGet x 0 4 = 4 ∧ b.access = 2 ∧ b.allocs = [] ∧ b.chords = []) →
        ∃ t, exec (.beaconReceived c ⟨fc, at_⟩ body) s = .next t ∧ (plc c t).coord = b.coord ∧ (plc c t).sfNum = b.sf
          ∧ (plc c t).allocs = b.allocs ∧ (plc c t).chords = b.chords ∧ (plc c t).lastBeacon = s.now
          ∧ (if (plc c t).winIdx = 0 then (plc c t).nextW = some b.w else (plc c t).w = b.w)
          ∧ (plc c t).winIdx.toNat = b.relay % 32 ∧ (plc c t).cntFramesRx = (plc c s).cntFramesRx + 1
          ∧ ∀ me, (b.stations.find? fun y => y.key == vkey s) = some me → b.access.toNat = plcAccess (plc c s) →
              nearestCopy c (fcTx x) s = true → (plc c t).att = .associated ∧ (plc c t).stn = me.stn)
    ∧ ((plc c s).role = 0 → (plc c s).att = .associated ∨ (plc c s).att = .listening →
        (plc c s).lastBeacon + (5 + (vkey s).toNat % 32) * superframe (plc c s) ≤ s.now →
        ∃ t, exec (.beaconLossWait c) s = .next t ∧ (plc c t).att = .listening ∧ (plc c t).stn = 0
          ∧ (plc c t).coord = (if coordOkCfg (plc c s) then vkey s else 0)
          ∧ (plc c t).role.toNat = (if coordOkCfg (plc c s) then plcAccess (plc c s) else 0))
    ∧ (∀ (fc : BitVec 121) (x : BitVec 105) (k : Key) (flags : Byte) (n : BitVec 7), fcRead fc = some x → fcGet x 0 4 = 8 →
        fcGet x 18 87 = 0 → (plc c s).role ≠ 0 → flags.toNat % 64 = 0 →
        k ≠ 0 → k ≠ vkey s → ((plc c s).stations.find? fun y => y.key == k) = none → freeStn (plc c s) = some n →
        (liveStns (plc c s)).length < mostStations (plc c s) →
        ∃ t, exec (.joinReceived c fc k flags) s = .next t
          ∧ (plc c t).stations = (plc c (heardStn c (fcTx x) s)).stations ++ [⟨n, k, flags.getLsbD 6, false, s.now, none⟩])
    ∧ (∀ (n : BitVec 7) (x : Station), (plc c s).role ≠ 0 →
        ((plc c s).stations.find? fun y => y.stn == n && y.reservedUntil.isNone) = some x →
        (x.lastHeard + 3 * superframe (plc c s) ≤ s.now → ∃ t, exec (.stationSilenceExpiry c n) s = .next t
          ∧ ∀ y ∈ (plc c t).stations, y.stn = n → y.reservedUntil = some (s.now + 10000000000))
        ∧ (s.now < x.lastHeard + 3 * superframe (plc c s) → exec (.stationSilenceExpiry c n) s = .next s))
    ∧ (∀ (fc : BitVec 121) (x : BitVec 105) (at_ : Ns), fcRead fc = some x → fcGet x 0 4 = 6 → fcGet x 40 65 = 0 →
        fcGet x 18 16 = 0 → (plc c s).access = 2 → (plc c s).role = 0 → (plc c s).stn ≠ 0 → fcDst x = (plc c s).stn →
        (plc c s).ctlQ = [] → (plc c s).reported = false → coordStn (plc c s) ≠ 0 → (plc c s).winStart ≤ at_ →
        let i := (at_ + 90000 - (plc c s).winStart) / 180000 + 3
        s.now ≤ symbolAt (plc c s) i →
        exec (.pollReceived c fc at_) s = .next (useAlloc c i (min (fcGet x 34 6) ((plc c s).w.toNat - i)) 0
          (coordStn (plc c s)) (queueReport c (coordStn (plc c s)) (heardStn c (fcTx x) (decodedSome c s)))))
    ∧ ∀ (a : Alloc) (d : Ns), (plc c s).att = .associated → (plc c s).soundDue = some d → d ≤ s.now →
        ((plc c s).freeAllocs.find? fun y => decide (s.now ≤ symbolAt (plc c s) (dataStart (plc c s) + y.start.toNat))
          && decide (4 ≤ min y.len.toNat ((plc c s).w.toNat - (dataStart (plc c s) + y.start.toNat)))) = some a →
        ∃ t, exec (.soundingSend c) s = .next t ∧ (plc c t).soundDue = some (s.now + tmRefresh (plc c s) * 1000000000)
          ∧ (plc c t).cntFramesTx = (plc c s).cntFramesTx + 1 ∧ t.freeCtr = s.freeCtr + 1
          ∧ (plc c t).freeAllocs = (plc c s).freeAllocs.erase a ∧ onlyChanges [.plc, .out, .free] s t

/-- An Urgent frame for this station is delivered, one to repeat waits two windows; soundings, tone maps and reports are taken
(R307, R308, R311, R315, R316, R317, R324, R330, R331). Concludes `exec … = next …`, with the effect, for: urgentFrameReceived,
dataFrameReceived. -/
def Obligations.UrgentAndDataFramesOfThePowerLine : Prop :=
  ∀ (c : Chan) (s : State), plcRuns c s = true → ∀ fc : BitVec 121,
    (∀ (pay : BitVec 249) (y : PlcRx), fcRead fc = none →
      exec (.urgentFrameReceived c ⟨fc, pay⟩) s = .next s ∧ exec (.dataFrameReceived c ⟨fc, y⟩) s = .next (preemptAll s))
    ∧ ∀ x : BitVec 105, fcRead fc = some x →
      let u := heardStn c (fcTx x) (decodedSome c s)
      let orig : BitVec 7 := BitVec.ofNat 7 (fcGet x 18 7)
      let data := fcGet x 0 4 = 2 ∧ fcGet x 40 65 = 0
      let mine := fcDst x = (plc c s).stn ∨ fcDst x = 127
      (∀ pay : BitVec 249, fcGet x 0 4 = 1 → fcGet x 100 5 = 0 →
        (urgentBytes pay = none → exec (.urgentFrameReceived c ⟨fc, pay⟩) s = .next u)
        ∧ ∀ (b : List Byte) (f : NatFrame), urgentBytes pay = some b → urgentNative c x b u = some f →
          (fcDst x = (plc c s).stn → exec (.urgentFrameReceived c ⟨fc, pay⟩) s = .next (deliverPlc c f u))
          ∧ (fcDst x ≠ (plc c s).stn → repeats c orig (fcDst x) (fcTx x) (fcGet x 25 4) u = true →
              exec (.urgentFrameReceived c ⟨fc, pay⟩) s = .next (modPlc c (fun p => { p with
                urgents := p.urgents ++ [⟨f, fcGet x 25 4 + 1, orig, fcDst x, p.winCount + 2, none⟩] }) u)))
      ∧ (∀ level snr : List Nat, fcGet x 0 4 = 5 → fcGet x 48 57 = 0 → ∃ t,
          exec (.dataFrameReceived c ⟨fc, .sounding level snr⟩) s = .next t
            ∧ (if (nbrOf c (fcTx x) s).rxTmi then (nbrOf c (fcTx x) t).rx0 else (nbrOf c (fcTx x) t).rx1)
              = ((List.range 256).map fun k => toneCode (tmMargin (plc c s)) (snr.getD k 0))
            ∧ (nbrOf c (fcTx x) t).loss = toneLoss (fcGet x 40 8) level
            ∧ (plc c t).ctlQ.length = (plc c s).ctlQ.length + 1
            ∧ (plc c t).cntFramesRx = (plc c s).cntFramesRx + 1 ∧ onlyChanges [.plc, .lp] s t)
      ∧ (∀ b : List Byte, data → mine → b.length = 100 → ∃ t, exec (.dataFrameReceived c ⟨fc, .tmRsp b⟩) s = .next t
            ∧ txMap (nbrOf c (fcTx x) t) = (List.range 256).map fun k =>
                BitVec.ofNat 3 (natOfBits (((bitsOfBytes (b.drop 4)).drop (3 * k)).take 3)))
      ∧ (data → mine → ∃ t, exec (.dataFrameReceived c ⟨fc, .tmReq⟩) s = .next t ∧ (plc c t).soundDue = some s.now)
      ∧ (∀ b : List Byte, data → mine → (plc c s).role ≠ 0 → ∃ t, exec (.dataFrameReceived c ⟨fc, .report b⟩) s = .next t
            ∧ (plc c t).links = (cutItems (b.length / 4) 4 b).foldl (fun m y =>
                putLink m (BitVec.ofNat 7 (byteAt y 0)) (fcTx x) (BitVec.ofNat 8 (byteAt y 1)) (beAt y 2 2)) (plc c s).links)
      ∧ (data → exec (.dataFrameReceived c ⟨fc, .slice none⟩) s = .next (preemptAll u))
      ∧ ∀ words : List CodewordRx, data → fcDst x = 127 →
          let k : PlcStream := ⟨fcTx x, 127, fcGet x 20 1 == 1⟩
          exec (.dataFrameReceived c ⟨fc, .slice (some words)⟩) s = .next (preemptAll (takeBlock c k words
            (askEarly c (fcTx x) words (noteBsn c k (BitVec.ofNat 8 (fcGet x 25 8)) u))))

/-- Scrambling a block twice gives it back, every segment reads back with its flags and bytes, and so do the fields of a frame
control (R307, R311, R312). -/
def Obligations.ScramblingAndSegmentsRoundTrip : Prop :=
  (∀ b : List Byte, scramble (scramble b) = b)
  ∧ (∀ (first last : Bool) (pre b rest : List Byte) (bad : List Bool) (k : Nat), 0 < b.length → b.length < 2048 →
      (∀ x ∈ bad, x = false) → pre.length + 2 + b.length ≤ 223 * bad.length →
      let all := pre ++ segmentBytes first last b ++ rest
      readSegments bad all (k + 1) pre.length
        = some (first, last, b) :: readSegments bad all k (pre.length + 2 + b.length))
  ∧ ∀ f : BitVec 105, fcRead (BitVec.ofNat 121 (natOfBits (fcBits f.toNat))) = some f

/-- A CAN descriptor is loaded into a free buffer unless its identifier waits there; it leaves OK at its end, or TIMEOUT (R346,
R348, R349, R351, R352, R362). Concludes `exec … = next …`, with the effect, for: canDescriptorLoad, canFrameSent, canTxTimeout.
-/
def Obligations.CanFramesLoadAndLeave : Prop :=
  ∀ (ch : Chan) (s : State),
    (∀ (stores : List Host.Cell) (b : TxBuffer) (i : Fin 3),
      let n := (can ch s).cqp.toNat
      let l := ownerOf n s
      let u := hostStores l stores s
      let x := ctx l n u
      let d := sendDesc (ringEntry l n .tx x.txFetch u)
      n ≠ 0 → canOf n u = some ch → fetchAllowed l n u = true →
      canRecord (canFd (can ch u)) (readHost l d.buf d.len u) ⟨l, n, x.txFetch⟩ u = some b → d.bareOk = true →
      canEn (can ch u) = true → canListen (can ch u) = false → canFetches ch u = true → canFree (can ch u) = some i →
      (canSameId (can ch u) b = false → ∃ t, exec (.canDescriptorLoad ch stores) s = .next t
        ∧ (can ch t).bufs[i] = some b ∧ (ctx l n t).txFetch = x.txFetch + 1
        ∧ (ctx l n t).txPend.length = x.txPend.length + 1 ∧ hostSame u t)
      ∧ (canSameId (can ch u) b = true → exec (.canDescriptorLoad ch stores) s = .next u))
    ∧ (∀ (ago : Ns) (i : Fin 3) (b : TxBuffer), canSends ch s = true → canOffered (can ch s) (s.now - ago) = some (i, b) →
        ∃ t, exec (.canFrameSent ch ago) s = .next t ∧ (can ch t).bufs[i] = none
          ∧ (can ch t).cntTx = (can ch s).cntTx + 1 ∧ (can ch t).tec = (can ch s).tec - 1
          ∧ Emission.can ch b.id b.ide b.remote b.fd b.brs b.dlc b.data ∈ t.out)
    ∧ ∀ (i : Fin 3) (b : TxBuffer), (can ch s).bufs[i] = some b →
        ((can ch s).txto ≠ 0 → b.loadedAt + (can ch s).txto.toNat * 1000000 ≤ s.now →
          ∃ t, exec (.canTxTimeout ch i) s = .next t ∧ (can ch t).bufs[i] = none ∧ (can ch t).cntTxto = (can ch s).cntTxto + 1)
        ∧ ((can ch s).txto = 0 ∨ s.now < b.loadedAt + (can ch s).txto.toNat * 1000000 →
          exec (.canTxTimeout ch i) s = .next s)

/-- A CAN frame is filtered, counted, and written to the mailbox where its filter says so; errors lead to passive and bus-off
and back (R354, R355, R356, R357, R361, R362, R363). Concludes `exec … = next …`, with the effect, for: canFrameReceived,
canBusError, canBusoffRecovered, vxCanRecover, canBusDominant, canBusFaultClear. -/
def Obligations.CanReceptionErrorsAndBusOff : Prop :=
  ∀ (ch : Chan) (s : State),
    (∀ (r : CanRx) (stores : List Host.Cell), canState ch s = .errActive → (can ch s).busFault = false →
      (r.fdf = true → canFd (can ch s) = true) →
      let l := ownerOf (can ch s).cqp.toNat s
      let u := hostStores l stores s
      ∃ t, exec (.canFrameReceived ch r stores) s = .next t ∧ (can ch t).lastRx = some s.now
        ∧ (can ch t).cntRx = (can ch s).cntRx + (if (canFilterOf (can ch s) r).isSome then 1 else 0)
        ∧ ∀ k, canFilterOf (can ch s) r = some (k, true) → flagOf (can ch s).mbxCtrl 31 = true → dmaOk l u = true →
            readHost32 l (mbxAddr (can ch s) (can ch s).mbxPos + 124) u = 0 →
            let rec_ := canRxRecord r k false (trainTime s - BitVec.ofNat 64 r.sofAgo).toNat
            (can ch t).mbxPos = ((can ch s).mbxPos + 1) % 16 ∧ (can ch t).mbxSeq = (can ch s).mbxSeq + 1
              ∧ (hlink l t).hmem = memStore hostFill (hlink l u).hmem (mbxAddr (can ch s) (can ch s).mbxPos).toNat
                  (rec_ ++ List.replicate (80 - rec_.length) 0 ++ toLE 4 (can ch s).mbxSeq.toNat ++ List.replicate 40 0 ++ toLE 4 1))
    ∧ (∀ a b : Nat, canState ch s = .errActive → ∃ t, exec (.canBusError ch a b) s = .next t
        ∧ (can ch t).cntBusErr = (can ch s).cntBusErr + 1
        ∧ ((can ch s).tec + a ≤ 255 → (can ch t).tec = (can ch s).tec + a ∧ (can ch t).recCnt = min 255 ((can ch s).recCnt + b)
            ∧ (can ch t).st = (if 128 ≤ (can ch s).tec + a ∨ 128 ≤ min 255 ((can ch s).recCnt + b) then .errPassive else .errActive))
        ∧ (255 < (can ch s).tec + a → (can ch t).st = .busOff ∧ (can ch t).cntBusoff = (can ch s).cntBusoff + 1
            ∧ ∀ i : Fin 3, (can ch t).bufs[i] = none))
    ∧ (canState ch s = .busOff →
        ((can ch s).recovering = true → ∃ t, exec (.canBusoffRecovered ch) s = .next t ∧ (can ch t).st = .errActive
          ∧ (can ch t).tec = 0 ∧ (can ch t).recCnt = 0 ∧ (can ch t).recovering = false)
        ∧ ((can ch s).recovering = false → exec (.canBusoffRecovered ch) s = .next s)
        ∧ ∀ r : Req, allowedAt 0x0701 (authorityOf r.port s) = some true → r.body = [BitVec.ofNat 8 ch.val, 0, 0, 0] →
            exec (.vxCanRecover r) s
              = .next (answer r 0x0701 stOk [] (modCan ch (fun c => { c with recovering := true }) s)))
    ∧ (canState ch s ≠ .stopped → (can ch s).busFault = false →
        exec (.canBusDominant ch) s = .next (raise 0x7004 (d1 ch.val) (modCan ch (fun c => { c with busFault := true }) s)))
    ∧ exec (.canBusFaultClear ch) s = .next (modCan ch (fun c => { c with busFault := false }) s)

/-- Coupling pairs settle, follow and report their channels; the contacts follow their drives, tests and holds (R369, R370,
R371, R372, R373, R374, R375, R378, R379, R380, Log entry 17). Concludes `exec … = next …`, with the effect, for:
debounceChange, pairUnknown, pairAgreeAgain, out0DrivePulse, out0HoldExpiry, healthCondition, out1PulseEnd, vxContactTest,
contactTestEnd. -/
def Obligations.CouplingPairsAndContacts : Prop :=
  (∀ (p : PairNo) (s : State), monitorsRun s = true →
    let x := s.vx.pairs[p]
    (x.hasA = true → x.hasB = true →
      (∀ (volts : List Int) (chB : Bool), (readings x.onLevel.toNat (if chB then x.debB else x.debA) volts).2 < x.debounce.toNat →
        exec (.debounceChange p chB volts) s = .next s)
      ∧ (∀ (volts : List Int) (k t0 : Nat), x.st ≠ .unknown → x.debA ≠ x.debB → x.sinceTick = some t0 →
        mono s - t0 < discTicks x + 2 → readings x.onLevel.toNat x.debA volts = (x.debB, k) → x.debounce.toNat ≤ k →
        ∃ t, exec (.debounceChange p false volts) s = .next t ∧ t.vx.pairs[p].st = .agreed
          ∧ t.vx.pairs[p].value = x.debB ∧ t.vx.pairs[p].debA = x.debB)
      ∧ (∀ (volts : List Int) (k : Nat), x.st = .agreed → x.debA = x.debB → x.sinceTick = none →
        readings x.onLevel.toNat x.debB volts = (!x.debB, k) → x.debounce.toNat ≤ k →
        ∃ t, exec (.debounceChange p true volts) s = .next t ∧ t.vx.pairs[p].st = .discrepant
          ∧ t.vx.pairs[p].sinceTick = some (mono s) ∧ t.vx.pairs[p].value = x.value ∧ onlyChanges [.vx] s t))
    ∧ ∀ t0, x.sinceTick = some t0 →
        (x.st ≠ .unknown →
          (discTicks x ≤ mono s - t0 + 1 → ∃ t, exec (.pairUnknown p) s = .next t ∧ t.vx.pairs[p].st = .unknown
            ∧ t.vx.pairs[p].fault = true ∧ t.vx.pairs[p].value = x.value)
          ∧ (mono s - t0 + 1 < discTicks x → exec (.pairUnknown p) s = .next s))
        ∧ (x.st = .unknown → x.debA = x.debB →
          (discTicks x ≤ mono s - t0 + 1 → ∃ t, exec (.pairAgreeAgain p) s = .next t ∧ t.vx.pairs[p].st = .agreed
            ∧ t.vx.pairs[p].value = x.debA ∧ t.vx.pairs[p].fault = x.fault)
          ∧ (mono s - t0 + 1 < discTicks x → exec (.pairAgreeAgain p) s = .next s)))
  ∧ (∀ s : State,
    (s.cel.pstate = .run → slotReady vxSlot s = true → leverSafe vxSlot s = false → handingOver 2 s = false →
      maskedHealth s = false → ∃ t, exec .out0DrivePulse s = .next t ∧ t.vx.out0Closed = true
        ∧ t.vx.out0HoldUntil = some (s.now + 40000000) ∧ Emission.out0Pulse ∈ t.out ∧ onlyChanges (.vx :: eventParts) s t)
    ∧ (∀ d, s.vx.out0HoldUntil = some d →
        (d ≤ s.now → ∃ t, exec .out0HoldExpiry s = .next t ∧ t.vx.out0Closed = false ∧ t.vx.out0HoldUntil = none
          ∧ onlyChanges (.vx :: eventParts) s t)
        ∧ (s.now < d → exec .out0HoldExpiry s = .next s))
    ∧ (∀ k : Fin 8, (healthNow s).getLsbD k.val = true → s.vx.healthMask.getLsbD k.val = true →
        ∃ t, exec (.healthCondition k) s = .next t ∧ t.vx.out0Closed = false ∧ t.vx.out0HoldUntil = none)
    ∧ (∀ d, s.vx.out1Until = some d →
        (d ≤ s.now → ∃ t, exec .out1PulseEnd s = .next t ∧ t.vx.out1Closed = false ∧ t.vx.out1Until = none)
        ∧ (s.now < d → exec .out1PulseEnd s = .next s))
    ∧ (∀ (r : Req) (a b : Byte), allowedAt 0x0702 (authorityOf r.port s) = some true → 100 ≤ ofLE [a, b] → ofLE [a, b] ≤ 10000 →
        (r.body = [0, 0, a, b] → ∃ t, exec (.vxContactTest r) s = .next t
          ∧ t.vx.out0Test = some (s.now + ofLE [a, b] * 1000000, !s.vx.out0Closed) ∧ t.vx.out0Closed = s.vx.out0Closed)
        ∧ (r.body = [1, 0, a, b] → ∃ t, exec (.vxContactTest r) s = .next t
          ∧ t.vx.out1Test = some (s.now + ofLE [a, b] * 1000000, !s.vx.out1Closed) ∧ t.vx.out1Closed = s.vx.out1Closed))
    ∧ (∀ d v, s.vx.out0Test = some (d, v) → (d ≤ s.now → ∃ t, exec (.contactTestEnd false) s = .next t ∧ t.vx.out0Test = none)
        ∧ (s.now < d → exec (.contactTestEnd false) s = .next s))
    ∧ ∀ d v, s.vx.out1Test = some (d, v) → d ≤ s.now → ∃ t, exec (.contactTestEnd true) s = .next t ∧ t.vx.out1Test = none)

/-- A poll swaps each summary word with 0 and reads the producers its bits name; scan mode leaves the summaries alone (R396,
R397, R398, R418). Concludes `exec … = next …`, with the effect, for: urgentPoll, generalPoll, scanPoll. -/
def Obligations.PollsSwapTheSummaryAndReadProducers : Prop :=
  ∀ (l : Link) (stores : List Host.Cell) (s : State),
    let v := hostStores l stores s
    (polls l v = false → ∀ u, exec (.urgentPoll l stores) s = .next v ∧ exec (.generalPoll l stores) s = .next v
      ∧ exec (.scanPoll l u stores) s = .next v)
    ∧ (scanMode l v = true → exec (.urgentPoll l stores) s = .next v ∧ exec (.generalPoll l stores) s = .next v)
    ∧ (scanMode l v = false → ∀ u, exec (.scanPoll l u stores) s = .next v)
    ∧ (polls l v = true → scanMode l v = false → memWf hostFill (hlink l v).hmem = true →
        ∀ (off : Nat) (c : Instr), (off = 0x1000 ∧ c = .urgentPoll l stores) ∨ (off = 0x1080 ∧ c = .generalPoll l stores) →
          ((∀ j, j < 32 → readHost32 l (dbAddr l (off + 4 * j) v) v = 0) → exec c s = .next v)
          ∧ ∀ i b : Fin 32, readHost32 l (dbAddr l (off + 4 * i.val) v) v = BitVec.ofNat 32 (2 ^ b.val) →
              (∀ j, j < 32 → j ≠ i.val → readHost32 l (dbAddr l (off + 4 * j) v) v = 0) →
              exec c s = .next (readProd l (32 * i.val + b.val) (writeHost l (dbAddr l (off + 4 * i.val) v) [0, 0, 0, 0] v)))
    ∧ (polls l v = true → scanMode l v = true → (∀ c ∈ liveCqps v, cqpRunning l c v = true → ctxUrg (ctx l c v) = false) →
        exec (.scanPoll l true stores) s = .next (if (hlink l v).scanNoted then v
          else raise 0x8032 (d1 (Link.num l)) (modLink l (fun h => { h with scanNoted := true }) v)))
    ∧ ∀ c, ownsCqp l c v = true →
        let x := ctx l c v
        let w := readHost32 l (dbAddr l (4 * c) v) v
        let y := ctx l c (readProd l c v)
        let tx : Half := BitVec.ofNat 16 (fieldOf w 0 16)
        let rx : Half := BitVec.ofNat 16 (fieldOf w 16 16)
        (x.txState = .running →
          (overruns x.txDone x.txProd tx (ctxSize .tx x) = false → y.txProd = tx ∧ y.txState = .running)
          ∧ (overruns x.txDone x.txProd tx (ctxSize .tx x) = true → y.txState = .halted ∧ y.haltWhy = .overrun
              ∧ y.haltTx = true ∧ y.txProd = x.txProd ∧ (x.rxWait = [] → y.txPend = x.txPend)))
        ∧ (x.rxState = .running →
          (overruns x.rxDone x.rxProd rx (ctxSize .rx x) = false → y.rxProd = rx ∧ y.rxState = .running)
          ∧ (overruns x.rxDone x.rxProd rx (ctxSize .rx x) = true → y.rxState = .halted ∧ y.haltWhy = .overrun
              ∧ y.haltRx = true ∧ y.rxProd = x.rxProd ∧ y.rxFree = x.rxFree))
        ∧ (x.rxWait = [] → (readProd l c v).hif.cqs = v.hif.cqs)

/-- Fetched descriptors are judged, malformed ones and failed reads halt their ring alone, items go to buffers in turn (R401,
R404, R405, R406, R412, R427, R448). Concludes `exec … = next …`, with the effect, for: descriptorFetch, receiveDescriptorFetch,
receiveDelivery, rxwaitExpiry, hostReadFail. -/
def Obligations.DescriptorsAreFetchedJudgedAndDelivered : Prop :=
  ∀ (l : Link) (q : Cqp) (stores : List Host.Cell) (s : State),
    let c := q.val
    let v := hostStores l stores s
    let x := ctx l c v
    let k := ctxCq .rx (ctx l c s)
    ((ownsCqp l c v && fetchAllowed l c v) = false → exec (.descriptorFetch l q stores) s = .next (preemptAll v))
    ∧ (ownsCqp l c v = true → fetchAllowed l c v = true → c ≠ 0 → canOf c v = none → bindOf c v = none →
        let d := sendDesc (ringEntry l c .tx x.txFetch v)
        let redo := (x.redo.find? fun r => r.idx == x.txFetch).isSome
        ∃ t, exec (.descriptorFetch l q stores) s = .next t
          ∧ (sendMalformed d (ctxUrg x) v = true → (ctx l c t).txState = .halted ∧ (ctx l c t).haltIdx = x.txFetch
              ∧ (ctx l c t).haltWhy = .malformed ∧ (ctx l c t).rxState = x.rxState ∧ (ctx l c t).txFetch = x.txFetch + 1
              ∧ ∀ e, e ≠ c → ctx l e t = ctx l e v)
          ∧ (sendMalformed d (ctxUrg x) v = false →
              (∀ st, (routeDesc d v).2 = some st → (ctx l c t).txFetch = x.txFetch + 1 ∧ (ctx l c t).txState = x.txState
                ∧ (x.txPend = [] → ∃ u : TxPend, u.cookie = d.cookie ∧ u.idx = x.txFetch
                    ∧ (cq (ctxCq .tx x) t).pend = (cq (ctxCq .tx x) v).pend ++ [txCompletion l c u (BitVec.ofNat 8 st)]))
              ∧ ((routeDesc d v).2 = none →
                  let a := admission l c d.cls d.raw (routeLane (routeDesc d v).1) (42 + d.len) redo v
                  (a = .wait → t = preemptAll v) ∧ (a ≠ .wait → (ctx l c t).txFetch = x.txFetch + 1))))
    ∧ (rxFetchAllowed l c v = false → exec (.receiveDescriptorFetch l q stores) s = .next v)
    ∧ (rxFetchAllowed l c v = true → ∃ t, exec (.receiveDescriptorFetch l q stores) s = .next t
        ∧ (∀ d, recvDesc (ringEntry l c .rx x.rxFetch v) = some d → (ctx l c t).rxFetch = x.rxFetch + 1
            ∧ (ctx l c t).rxFree = x.rxFree ++ [⟨x.rxFetch, d.1, d.2⟩])
        ∧ (recvDesc (ringEntry l c .rx x.rxFetch v) = none → x.rxFree = [] → (ctx l c t).rxState = .halted
            ∧ (ctx l c t).haltIdx = x.rxFetch ∧ (ctx l c t).haltWhy = .malformed ∧ (ctx l c t).txState = x.txState))
    ∧ (∀ desc, (fetchAllowed l c s = true → ownsCqp l c s = true → ∃ t, exec (.hostReadFail l q .tx desc) s = .next t
          ∧ (ctx l c t).txState = .halted ∧ (ctx l c t).haltWhy = .hostRead ∧ (ctx l c t).haltIdx = (ctx l c s).txFetch
          ∧ (ctx l c t).rxState = (ctx l c s).rxState ∧ ∀ e, e ≠ c → ctx l e t = ctx l e s)
        ∧ (rxFetchAllowed l c s = true → ∃ t, exec (.hostReadFail l q .rx desc) s = .next t
          ∧ (ctx l c t).rxState = .halted ∧ (ctx l c t).haltWhy = .hostRead ∧ (ctx l c t).haltIdx = (ctx l c s).rxFetch
          ∧ (ctx l c t).txState = (ctx l c s).txState ∧ ∀ e, e ≠ c → (ctx l e t).txState = (ctx l e s).txState
              ∧ (ctx l e t).rxState = (ctx l e s).rxState ∧ (ctx l e t).txFetch = (ctx l e s).txFetch
              ∧ (ctx l e t).rxFetch = (ctx l e s).rxFetch ∧ (ctx l e t).rxWait = (ctx l e s).rxWait))
    ∧ (∀ it rest, (ctx l c s).rxWait = it :: rest → (ownsCqp l c s && dmaOk l s && ringsRun s) = true → (cq k s).full = false →
        (it.gapCount ≠ 0 → ∃ t, exec (.receiveDelivery l q) s = .next t ∧ (ctx l c t).rxWait = rest
          ∧ (ctx l c t).rxFree = (ctx l c s).rxFree ∧ hostSame s t
          ∧ (cq k t).pend = (cq k s).pend ++ [rxCompletion l c it 0x0A (nextRxIdx (ctx l c s)) true 0])
        ∧ (it.gapCount = 0 → ∀ d free, (ctx l c s).rxFree = d :: free →
            let n := min it.data.length d.len
            ∃ t, exec (.receiveDelivery l q) s = .next t ∧ (ctx l c t).rxWait = rest ∧ (ctx l c t).rxFree = free
              ∧ (cq k t).pend = (cq k s).pend
                  ++ [rxCompletion l c it (if it.truncated || decide (d.len < it.data.length) then 0x0B else 0) d.idx false n]
              ∧ (memWf hostFill (hlink l s).hmem = true →
                  (∀ i, i < n → memGet hostFill (hlink l t).hmem (d.buf.toNat + i) = it.data.getD i 0)
                  ∧ ∀ a, a < d.buf.toNat ∨ d.buf.toNat + n ≤ a →
                      memGet hostFill (hlink l t).hmem a = memGet hostFill (hlink l s).hmem a)))
    ∧ ((ctx l c s).rxFree ≠ [] → exec (.rxwaitExpiry l q) s = .next s)
    ∧ ((ctx l c s).rxFree = [] → ∃ t, exec (.rxwaitExpiry l q) s = .next t ∧ hostSame s t
        ∧ ((∀ i ∈ (ctx l c s).rxWait, s.now < i.waitUntil) → (ctx l c t).rxWait = (ctx l c s).rxWait
            ∧ (ctx l c t).cntRxNobuf = (ctx l c s).cntRxNobuf)
        ∧ ((∀ i ∈ (ctx l c s).rxWait, i.waitUntil ≤ s.now ∧ i.gapCount = 0) →
            (ctx l c t).cntRxNobuf = (ctx l c s).cntRxNobuf + BitVec.ofNat 32 (ctx l c s).rxWait.length
            ∧ ∀ i ∈ (ctx l c t).rxWait, i.gapCount ≠ 0))

/-- Completions go to free entries, vectors follow their moderation, rings start, stop and reset, items reach CQP 0 (R411, R412,
R414, R417, R422, R424, R425, R426, R541). Concludes `exec … = next …`, with the effect, for: completionWrite, cqFullRecheck,
moderationTimer, mgmtItemDelivery, ringStart, ringStop, ringStopDone, ringReset. -/
def Obligations.CompletionsRingsAndTheManagementRing : Prop :=
  (∀ (n : CqNo) (stores : List Host.Cell) (s : State),
    let v := hostStores (cq n s).link stores s
    let q := cq n v
    let l := q.link
    (q.pend = [] → exec (.completionWrite n stores) s = .next v)
    ∧ (∀ p rest, q.pend = p :: rest → (q.en && dmaOk l v && ringsWrite v) = true →
        (cqIsFull n v = true → ∃ t, exec (.completionWrite n stores) s = .next t ∧ (cq n t).full = true ∧ (cq n t).pend = q.pend
          ∧ hostSame v t)
        ∧ (cqIsFull n v = false → ∃ t, exec (.completionWrite n stores) s = .next t
            ∧ (cq n t).pos = (if cqSize q ≤ q.pos.toNat + 1 then 0 else q.pos + 1)
            ∧ (cq n t).pass = (if cqSize q ≤ q.pos.toNat + 1 then !q.pass else q.pass)
            ∧ (p.localTx = none → (cq n t).pend = rest)
            ∧ (memWf hostFill (hlink l v).hmem = true → ∀ a,
                (a < (entryAddr q.base q.pos.toNat).toNat ∨ (entryAddr q.base q.pos.toNat).toNat + 32 ≤ a) →
                (a < (shAddr l (4 * p.cqp) v).toNat ∨ (shAddr l (4 * p.cqp) v).toNat + 4 ≤ a) →
                (a < (shAddr l (0x1000 + 4 * n.val) v).toNat ∨ (shAddr l (0x1000 + 4 * n.val) v).toNat + 4 ≤ a) →
                memGet hostFill (hlink l t).hmem a = memGet hostFill (hlink l v).hmem a)))
    ∧ exec (.cqFullRecheck n stores) s = .next (if (q.full && dmaOk l v && !cqIsFull n v) = true
        then modCq n (fun y => { y with full := false }) v else v)
    ∧ (cqModerated (cq n s) s = false → exec (.moderationTimer n) s = .next s)
    ∧ (cqModerated (cq n s) s = true → inL0 (activeEp (cq n s).link s) s = true → ∃ t, exec (.moderationTimer n) s = .next t
        ∧ (cq n t).since = 0 ∧ (cq n t).firstAt = none
        ∧ (flagOf (msixWord (endpoint (activeEp (cq n s).link s) s) (4 * (cq n s).vec.toNat + 3)) 0 = false →
            t.out = s.out ++ [.msix (activeEp (cq n s).link s) (cq n s).vec.toNat])
        ∧ (flagOf (msixWord (endpoint (activeEp (cq n s).link s) s) (4 * (cq n s).vec.toNat + 3)) 0 = true →
            t.out = s.out ∧ (endpoint (activeEp (cq n s).link s) t).pba.getLsbD (cq n s).vec.toNat = true)))
  ∧ (∀ (r : Req) (c m : Nat) (s : State), ringBody r.body = some (c, m) → ownsCqp (reqLink r.port) c s = true →
      let l := reqLink r.port
      let x := ctx l c s
      (allowedAt 0x0801 (authorityOf r.port s) = some true →
        (ringBusy l c m s = true → exec (.ringStart r) s = .next (answer r 0x0801 0x0F [] s))
        ∧ (∀ why, ringBusy l c m s = false → ringUnusable l c m s = some why →
            exec (.ringStart r) s = .next (answer r 0x0801 0x06 (d1 why) s))
        ∧ (ringBusy l c m s = false → ringUnusable l c m s = none → ∃ t, exec (.ringStart r) s = .next (answer r 0x0801 0 [] t)
            ∧ (named .tx m = true → dmaOk l s = false → (ctx l c t).txState = .running)
            ∧ (named .rx m = true → dmaOk l s = false → (ctx l c t).rxState = .running)
            ∧ (named .tx m = true → x.txState = .halted → x.haltTx = true → x.haltWhy ≠ .overrun →
                (ctx l c t).txFetch = x.haltIdx + 1)
            ∧ (named .tx m = true → x.txState = .stopped →
                (ctx l c t).txFetch = BitVec.ofNat 16 (fieldOf (readHost32 l (shAddr l (4 * c) s) s) 0 16))
            ∧ (named .rx m = true → x.rxState = .stopped →
                (ctx l c t).rxFetch = BitVec.ofNat 16 (fieldOf (readHost32 l (shAddr l (4 * c) s) s) 16 16))))
      ∧ (allowedAt 0x0802 (authorityOf r.port s) = some true → ∃ t, exec (.ringStop r) s = .next t
          ∧ (named .tx m = true → (ctx l c t).txState ≠ .running ∧ (x.txState = .halted → (ctx l c t).txState = .stopped)
              ∧ (ringIdle l c .tx s = true → x.rxWait = [] → (ctx l c t).txState = .stopped))
          ∧ (named .rx m = true → (ctx l c t).rxState ≠ .running ∧ (x.rxState = .halted → (ctx l c t).rxState = .stopped)
              ∧ (ringIdle l c .rx s = true → x.rxWait = [] → (ctx l c t).rxState = .stopped)))
      ∧ (allowedAt 0x0803 (authorityOf r.port s) = some true → ∃ t, exec (.ringReset r) s = .next t
          ∧ (named .tx m = true → (ctx l c t).txState ≠ .running
              ∧ ∀ f ∈ t.bbn.txFlows, ¬(f.id.key = vkey s ∧ f.id.cqp.toNat = c))
          ∧ (named .rx m = true → (ctx l c t).rxState ≠ .running ∧ (ctx l c t).rxFree = [])))
  ∧ (∀ (l : Link) (c : Cqp) (s : State), ∃ t, exec (.ringStopDone l c) s = .next t
      ∧ ((ctx l c.val s).txState = .stopping → ringIdle l c.val .tx s = true → (ctx l c.val t).txState = .stopped)
      ∧ ((ctx l c.val s).txState = .stopping → ringIdle l c.val .tx s = false → (ctx l c.val t).txState = .stopping)
      ∧ ((ctx l c.val s).txState = .running → (ctx l c.val t).txState = .running))
  ∧ ∀ (l : Link) (s : State) (d : RxDesc) (free : List RxDesc), (dmaOk l s && ringsRun s) = true →
      (ctx l 0 s).rxState = .running → (cq (ctxCq .rx (ctx l 0 s)) s).full = false → (ctx l 0 s).rxFree = d :: free →
      ∃ t, exec (.mgmtItemDelivery l) s = .next t
        ∧ (∀ it rest, (hlink l s).items = it :: rest → (it.event && (hlink l s).wakeDue) = false → (hlink l s).dropped = 0 →
            (hlink l t).items = rest ∧ (ctx l 0 t).rxFree = free ∧ (memWf hostFill (hlink l s).hmem = true →
              (∀ i, i < min (encodeMgmt it).length d.len →
                memGet hostFill (hlink l t).hmem (d.buf.toNat + i) = (encodeMgmt it).getD i 0)))
        ∧ ((hlink l s).wakeDue = true → ((hlink l s).items = [] ∨ ∃ it rest, (hlink l s).items = it :: rest ∧ it.event = true) →
            (hlink l t).wakeDue = false ∧ (hlink l t).wakeLatch = 0 ∧ (hlink l t).items = (hlink l s).items
              ∧ (ctx l 0 t).rxFree = free)

/-- A failed read of a summary or producer word is skipped and written as event 0x8020 at most once per second (R428). Concludes
`exec … = next …`, with the effect, for: summaryReadFail. -/
def Obligations.AFailedSummaryReadIsSkipped : Prop :=
  ∀ (l : Link) (s : State), ∃ t, exec (.summaryReadFail l) s = .next t
    ∧ (∀ x c, ctx x c t = ctx x c s) ∧ t.hif.cqs = s.hif.cqs ∧ hostSame s t ∧ onlyChanges eventParts s t
    ∧ ((∃ d, (hlink l s).readFailAt = some d ∧ s.now < d + 1000000000) → t = s)
    ∧ ((∀ d, (hlink l s).readFailAt = some d → d + 1000000000 ≤ s.now) →
        t = raise 0x8020 (d1 (Link.num l)) (modLink l (fun h => { h with readFailAt := some s.now }) s)
        ∧ (hlink l t).readFailAt = some s.now)

/-- A link reset stops rings and returns set-up to reset, L0 comes with its event, enables start queues and CQP 0 (R385, R386,
R388, R392, R417, R422, R540). Concludes `exec … = next …`, with the effect, for: linkReset, linkL0Reached, cqEnable,
mgmtEnable, configSpaceWrite, pmeTurnOff. -/
def Obligations.LinkResetsConfigSpaceAndEnables : Prop :=
  (∀ (ep : Endpoint) (cause : ResetCause) (s : State),
    ((endpoint ep s).power = .down → exec (.linkReset ep cause) s = .next s)
    ∧ ((endpoint ep s).power ≠ .down → ∃ t, exec (.linkReset ep cause) s = .next t
        ∧ (cause = .perst ∨ cause = .dlDown → (endpoint ep t).power = .down)
        ∧ (endpoint ep t).busMaster = false
        ∧ (epActive ep s = false → (∀ l c, ctx l c t = ctx l c s) ∧ t.hif.cqs = s.hif.cqs)
        ∧ (epActive ep s = true →
            (∀ c, ownsCqp ep.link c s = true → (ctx ep.link c t).txState = .stopped ∧ (ctx ep.link c t).rxState = .stopped
              ∧ (ctx ep.link c t).txPend = [])
            ∧ (∀ n, (cq n s).link = ep.link → (cq n t).en = false)
            ∧ (∀ n, (cq n s).link ≠ ep.link → (cq n t).en = (cq n s).en)
            ∧ (hlink ep.link t).db = 0 ∧ (hlink ep.link t).shadow = 0 ∧ (hlink ep.link t).mgmtEn = false)))
  ∧ (∀ (ep : Endpoint) (g : Fin 4) (w : Fin 3) (p : Bool) (s : State), g ≠ 0 → w ≠ 0 →
      (linksPowered s = false ∨ p = false → exec (.linkL0Reached ep ⟨g, w⟩ p) s = .next (setPrsnt ep.ct p s))
      ∧ (linksPowered s = true → (endpoint ep s).power ≠ .l0 → ∃ t, exec (.linkL0Reached ep ⟨g, w⟩ true) s = .next t
          ∧ (endpoint ep t).power = .l0 ∧ (endpoint ep t).gen = g.val ∧ (endpoint ep t).width = w.val ∧ hostSame s t))
  ∧ (∀ (ep : Endpoint) (w : CfgWrite) (s : State),
      (inL0 ep s = true → configServed s = true → ((endpoint ep s).busMaster = true → w.busMaster = true) →
        ∃ t, exec (.configSpaceWrite ep w) s = .next t ∧ (endpoint ep t).busMaster = w.busMaster ∧ (endpoint ep t).d3hot = w.d3hot
          ∧ (endpoint ep t).atomicOp = w.atomicOpRequester ∧ (endpoint ep t).aspmL1 = w.aspmL1
          ∧ (endpoint ep t).power = (if w.d3hot || w.aspmL1 then .l1 else .l0) ∧ hostSame s t ∧ onlyChanges [.hif] s t)
      ∧ (configServed s = false → exec (.configSpaceWrite ep w) s = .next s)
      ∧ (inL0 ep s = true → configServed s = true → (endpoint ep s).busMaster = true → w.busMaster = false →
        ∃ t, exec (.configSpaceWrite ep w) s = .next t ∧ (endpoint ep t).busMaster = false
          ∧ (epActive ep s = true → ∀ n, (cq n s).link = ep.link → (cq n t).en = false))
      ∧ (inL0 ep s = true → ∃ t, exec (.pmeTurnOff ep) s = .next t ∧ (endpoint ep t).power = .l2
          ∧ t.out = s.out ++ [.linkL2 ep] ∧ onlyChanges [.hif, .out] s t ∧ hostSame s t)
      ∧ ((endpoint ep s).power = .down → exec (.configSpaceWrite ep w) s = .next s ∧ exec (.pmeTurnOff ep) s = .next s))
  ∧ ∀ (ep : Endpoint) (n : CqNo) (v : Word) (s : State), inL0 ep s = true → epActive ep s = true → s.rrw.locked = false →
      ((cq n s).link = ep.link → (cq n s).en = false → flagOf v 31 = true → (ep.link = .h1 → flagOf v 30 = false) →
        let w := readHost32 ep.link (shAddr ep.link (0x1000 + 4 * n.val) s) s
        ∃ t, exec (.cqEnable ep n v) s = .next t ∧ (cq n t).en = true ∧ (cq n t).vec.toNat = fieldOf v 8 6
          ∧ (cq n t).pos.toNat = fieldOf w 0 16 ∧ (cq n t).pass = flagOf w 16 ∧ onlyChanges [.hif] s t ∧ hostSame s t)
      ∧ ∃ t, exec (.mgmtEnable ep v) s = .next t ∧ (hlink ep.link t).mgmtEn = flagOf v 0

/-- The arbiter grants by class and round robin, by number in fixed mode, by age in its turn; settings act on the next decision
(R433, R435, R436, R437, R438, R439, R635). Concludes `exec … = next …`, with the effect, for: arbiterDecision,
arbSettingsWrite. -/
def Obligations.ArbiterGrantsFollowClassModeAndAge : Prop :=
  (∀ (raised : List (BitVec 16)) (req acc : BitVec 16) (w : Bool) (s : State),
    let part := fun (i : Fin 16) => req.getLsbD i.val && acc.getLsbD i.val
    let v := noteRequests raised req s
    let since := fun (i : Fin 16) => v.arb.waitSince[i].getD v.arb.decisions
    (∀ (i : Fin 16) (k : Nat), req.getLsbD i.val = true → s.arb.waitSince[i] = some k → since i = k)
    ∧ (∀ (m : BitVec 16) (i j : Fin 16), raised = [m] → req.getLsbD i.val = true → req.getLsbD j.val = true →
        m.getLsbD i.val = true → m.getLsbD j.val = false → s.arb.waitSince[i] = none → s.arb.waitSince[j] = none → since i < since j)
    ∧ ((∀ i, part i = false) → ∃ t, exec (.arbiterDecision ⟨raised, req⟩ acc w) s = .next t ∧ t.arb.grantValid = false
      ∧ t.arb.pointers = s.arb.pointers ∧ t.arb.ageCount = s.arb.ageCount)
    ∧ ((∃ i, part i = true) → ∃ t, exec (.arbiterDecision ⟨raised, req⟩ acc w) s = .next t ∧ onlyChanges [.arb] s t ∧ hostSame s t
        ∧ (w = true → t.arb.grantValid = false ∧ t.arb.pointers = s.arb.pointers ∧ t.arb.ageCount = s.arb.ageCount)
        ∧ (w = false → t.arb.grantValid = true ∧ ∃ i : Fin 16, part i = true ∧ t.arb.grant.toNat = i.val
            ∧ (s.arb.fixed = true → (∀ j, part j = true → j ≤ i) ∧ t.arb.pointers = s.arb.pointers ∧ t.arb.ageCount = s.arb.ageCount)
            ∧ (s.arb.fixed = false → ageGrant s = false → (∀ j, part j = true → inputClass j s ≤ inputClass i s)
                ∧ (∀ j, part j = true → inputClass j s = inputClass i s → ∀ c : Fin 4, c.val = inputClass i s →
                    ((s.arb.pointers[c]).toNat + 15 + 16 - i.val) % 16 ≤ ((s.arb.pointers[c]).toNat + 15 + 16 - j.val) % 16)
                ∧ (∀ c : Fin 4, t.arb.pointers[c] = if c.val = inputClass i s then BitVec.ofNat 4 i.val else s.arb.pointers[c])
                ∧ t.arb.ageCount = s.arb.ageCount + 1)
            ∧ (s.arb.fixed = false → ageGrant s = true → (∀ j, part j = true → since i ≤ since j)
                ∧ (∀ j, part j = true → since j = since i → j ≤ i) ∧ t.arb.pointers = s.arb.pointers ∧ t.arb.ageCount = 0)
            ∧ ∀ j, j ≠ i → req.getLsbD j.val = true → t.arb.waitSince[j] = some (since j))))
  ∧ ∀ (ep : Endpoint) (v : Word) (s : State), ep.link = .h1 → inL0 ep s = true → epActive ep s = true → s.rrw.locked = false →
      (arbCfgBad v = false → ∃ t, exec (.arbSettingsWrite ep false v) s = .next t ∧ t.arb.ageN.toNat = fieldOf v 0 7
        ∧ t.arb.fixed = flagOf v 8 ∧ t.arb.burst.toNat = fieldOf v 9 2 ∧ t.arb.cls = s.arb.cls ∧ t.arb.pointers = s.arb.pointers
        ∧ t.arb.waitSince = s.arb.waitSince ∧ onlyChanges (.arb :: eventParts) s t ∧ hostSame s t)
      ∧ (v = s.arb.cls → exec (.arbSettingsWrite ep true v) s = .next s)
      ∧ ∃ t, exec (.arbSettingsWrite ep true v) s = .next t ∧ t.arb.cls = v ∧ t.arb.ageCount = s.arb.ageCount

/-- A remote-window request is checked, sent to its far node and awaited for its time; a lock ends with its lease (R457, R460,
R461, R468, R469, R471, R477, R481, R483). Concludes `exec … = next …`, with the effect, for: rrwRead, rrwWrite, rrwLock,
rrwUnlock, rrwTimeout, leaseExpiry. -/
def Obligations.RemoteWindowRequestsLeaseAndTimeout : Prop :=
  (∀ (c : Req → Instr) (op : Half) (type : Nat) (r : Req) (s : State),
    (c = Instr.rrwRead ∧ op = 0x0A01 ∧ type = 1) ∨ (c = Instr.rrwWrite ∧ op = 0x0A02 ∧ type = 2)
      ∨ (c = Instr.rrwLock ∧ op = 0x0A03 ∧ type = 3) ∨ (c = Instr.rrwUnlock ∧ op = 0x0A04 ∧ type = 4) →
    allowedAt op.toNat (authorityOf r.port s) = some true →
    let h := rrwHost r.body
    (rrwRequestOf type r.body s = none → exec (c r) s = .next (preemptAll (answer r op 0x06 [0, 0, 0, 0] s)))
    ∧ ∀ m, rrwRequestOf type r.body s = some m →
        (m.region = 15 → exec (c r) s = .next (preemptAll (makerAttempt (portCode r.port) op.toNat (answer r op 0x05 [1, 0, 0, 0] s))))
        ∧ (m.region ≠ 15 → ordOf h.far s = none → exec (c r) s = .next (preemptAll (answer r op 0x04 [0, 0, 0, 0] s)))
        ∧ (m.region ≠ 15 → ∀ o, ordOf h.far s = some o → beyondForeign o s = true →
            exec (c r) s = .next (preemptAll (answer r op 0x04 [0, 0, 0, 0] s)))
        ∧ (m.region ≠ 15 → ∀ o, ordOf h.far s = some o → beyondForeign o s = false → ∃ t, exec (c r) s = .next t
            ∧ t.rrw.nextReqId = s.rrw.nextReqId + 1 ∧ t.rrw.cntSent = s.rrw.cntSent + 1
            ∧ t.rrw.open_ = s.rrw.open_ ++ [⟨s.rrw.nextReqId, r.port, r.tag, op, h.far,
                s.now + (if h.timeout = 0 then s.rrw.defTimeout.toNat else h.timeout) * 1000000⟩]))
  ∧ (∀ (id : Half) (s : State),
      (∀ o, (s.rrw.open_.find? fun o => o.reqId == id) = some o →
        (s.now < o.deadline → exec (.rrwTimeout id) s = .next s)
        ∧ (o.deadline ≤ s.now → ∃ t, exec (.rrwTimeout id) s = .next t ∧ t.rrw.cntTimeout = s.rrw.cntTimeout + 1
            ∧ ∀ p ∈ t.rrw.open_, p.reqId ≠ id))
      ∧ ((s.rrw.open_.find? fun o => o.reqId == id) = none → exec (.rrwTimeout id) s = .next s))
  ∧ ∀ s : State, s.rrw.locked = true →
      (s.rrw.leaseEnd ≤ s.now → ∃ t, exec .leaseExpiry s = .next t ∧ t.rrw.locked = false ∧ t.rrw.broken = true
        ∧ t.rrw.held = [] ∧ t.rrw.cntBroken = s.rrw.cntBroken + 1)
      ∧ (s.now < s.rrw.leaseEnd → exec .leaseExpiry s = .next s)

/-- A PW-2 that loses the source it carries from goes to the best source still qualified, the bank at worst (R488, R490, R493,
R517). Concludes `exec … = next …`, with the effect, for: mainsLost, batteryLost, battOvClear. -/
def Obligations.SourceLossHandsOver : Prop :=
  ∀ (m : PwNo) (s : State),
    ((pw m s).moving = none →
      (∀ d : Ns, (pw m s).st = .mains → (pw m s).mainsPres = true → (if (pw m s).slowLine then 36000000 else 12000000) ≤ d →
        ∃ t, exec (.mainsLost ⟨m, d⟩) s = .next t ∧ (pw m t).mainsPres = false ∧ (pw m t).mainsQual = false
          ∧ (pw m t).st = .bank ∧ (pw m t).moving = (if (pw m s).battQual then some (.battery, true) else none))
      ∧ (∀ volts : Int, (pw m s).st = .battery → (pw m s).battPres = true → volts < 160 ∨ 1600 < volts →
        ∃ t, exec (.batteryLost m volts) s = .next t ∧ (pw m t).battPres = false ∧ (pw m t).battQual = false
          ∧ (pw m t).st = .bank ∧ (pw m t).moving = (if (pw m s).mainsQual then some (.mains, true) else none)
          ∧ (1600 < volts → (pw m t).battOv = true) ∧ (volts < 0 → (pw m t).battRev = true)))
    ∧ (∀ d : Ns, (pw m s).mainsPres = false ∨ d < 12000000 → exec (.mainsLost ⟨m, d⟩) s = .next s)
    ∧ (∀ volts : Int, 160 ≤ volts → volts ≤ 1600 → exec (.batteryLost m volts) s = .next s)
    ∧ exec (.battOvClear m) s = .next (modPw m (fun x => { x with battOv := false }) s)

/-- Inputs qualify after 120 ms without a break; hand-overs and hand-backs end as Table 12.5 has them (R489, R493, R494, R495).
Concludes `exec … = next …`, with the effect, for: mainsInvalid, handoverDone, inputQualified, handbackSpacingEnd, handbackDone.
-/
def Obligations.QualificationHandoverAndHandback : Prop :=
  ∀ (m : PwNo) (s : State), (pw m s).st ≠ .absent →
    (∀ (batt : Bool) (volts : Int) (half d : Ns), (if batt then (pw m s).battSince else (pw m s).mainsSince) = some d →
      let present := if batt then decide (168 ≤ volts ∧ volts ≤ 1540)
        else decide (800 ≤ volts ∧ volts ≤ 2750) && bandAllowed s.pwr.mainsBand (halfBand half)
      (present = true → d + 120000000 ≤ s.now → ∃ t, exec (.inputQualified m batt ⟨volts, half⟩) s = .next t
        ∧ (if batt then (pw m t).battQual else (pw m t).mainsQual) = true)
      ∧ (present = true → s.now < d + 120000000 → ∃ t, exec (.inputQualified m batt ⟨volts, half⟩) s = .next t
        ∧ (pw m t).battQual = (pw m s).battQual ∧ (pw m t).mainsQual = (pw m s).mainsQual ∧ (pw m t).st = (pw m s).st)
      ∧ (present = false → ∃ t, exec (.inputQualified m batt ⟨volts, half⟩) s = .next t
        ∧ (if batt then (pw m t).battQual else (pw m t).mainsQual) = false
        ∧ (if batt then (pw m t).battSince else (pw m t).mainsSince) = none
        ∧ (pw m t).cntQualRestart = (pw m s).cntQualRestart + 1))
    ∧ (∀ b, (pw m s).moving = some (b, true) → ∃ t, exec (.handoverDone m) s = .next t
        ∧ (pw m t).cntHandover = (pw m s).cntHandover + 1 ∧ (pw m t).st = b)
    ∧ (∀ b, (pw m s).moving = some (b, false) → ∃ t, exec (.handbackDone m) s = .next t
        ∧ (pw m t).st = b ∧ (pw m t).lastHandback = some s.now ∧ (pw m t).cntHandback = (pw m s).cntHandback + 1)
    ∧ ((pw m s).hbWait = true → (pw m s).moving = none → (pw m s).outFault = false →
        ranksBelow (pw m s).st (bestSource (pw m s)) = true → spaced (pw m s).lastHandback (sec 1) s = true →
        exec (.handbackSpacingEnd m) s
          = .next (modPw m (fun x => { x with hbWait := false, moving := some (bestSource (pw m s), false) }) s))
    ∧ ((pw m s).mainsInvalid = false → exec (.mainsInvalid m) s
        = .next (raise 0x1011 (d1 m.val) (modPw m (fun x => { x with mainsInvalid := true }) s)))

/-- RIDE_S, a full bank, the bank test, an unequal share and an output fault leave what Chapter 12 says (R498, R504, R505, R508,
R509, R515, Log entry 17). Concludes `exec … = next …`, with the effect, for: loadShareUnequal, rideSUpdate, bankFull,
pwrBankTest, bankTestDone, outputFault. -/
def Obligations.LoadBanksAndOutputFault : Prop :=
  (∀ (a b : PwMeas) (load : Nat) (s : State), ∃ t, exec (.rideSUpdate a b load) s = .next t
      ∧ t.pwr.load = min 1023 load
      ∧ t.pwr.rideS = (if t.pwr.load = 0 then 4095 else min 4095 (bankEnergy t * 10 / t.pwr.load))
      ∧ ((pw 0 s).st ≠ .absent → (pw 0 t).energy = a.energy) ∧ ((pw 1 s).st ≠ .absent → (pw 1 t).energy = b.energy)
      ∧ onlyChanges (.pwr :: .ldg :: eventParts) s t)
  ∧ ∀ (m : PwNo) (s : State),
    (charging m s = true → ∀ cap : Option Nat, ∃ t, exec (.bankFull m cap) s = .next t ∧ (pw m t).bankFull = true
      ∧ (∀ c, cap = some c → (pw m t).cap = min 1023 c ∧ (pw m t).bankLow = decide (c < 300)))
    ∧ (∀ r : Req, allowedAt 0x0110 (authorityOf r.port s) = some true → r.body = [BitVec.ofNat 8 m.val, 0, 0, 0] →
        s.cel.pstate = .run → pwReady m s = true → pwFed m s = true → (pw m s).bankFull = true → pwReady (pwOther m) s = true →
        pwFed (pwOther m) s = true → (pw m s).test = none → (pw (pwOther m) s).test = none →
        exec (.pwrBankTest r) s = .next (modPw m (fun x => { x with test := some (r.port, r.tag) }) s))
    ∧ (∀ x (cap : Nat), (pw m s).test = some x → ∃ t, exec (.bankTestDone m cap) s = .next t ∧ (pw m t).test = none
        ∧ (pw m t).cap = min 1023 cap ∧ (pw m t).bankFull = false)
    ∧ (∀ share, pwCarries 0 s = true → pwCarries 1 s = true →
        exec (.loadShareUnequal m share) s = .next (if 70 < share then raise 0x1030 (d1 m.val ++ d1 share) s else s))
    ∧ ((pw m s).st ≠ .absent → (pw m s).outFault = false → ∃ t, exec (.outputFault m) s = .next t
        ∧ (pw m t).st = .down ∧ (pw m t).outFault = true ∧ (slot (pwSlot m) t).st = 3)

/-- The rail brings the node from OFF to CELLAR step by step, and its fall brings OFF from every state (R512, R519, R521, R523,
R525, R58, R59, Log entry 3). Concludes `exec … = next …`, with the effect, for: railUp, cellarStepEnd, railFall, crystalFault.
-/
def Obligations.OffAndCellar : Prop :=
  (∀ s : State, s.cel.pstate = .off → s.cel.step = 0 → railFed s = true → ctSeated s = true →
      spaced s.cel.offSince (ms 200) s = true →
      exec .railUp s = .next { s with cel.step := 1, cel.stepAt := s.now, cel.offSince := none })
  ∧ (∀ (m : CellarMeas) (s : State), s.cel.pstate = .off →
      (s.cel.step = 1 → exec (.cellarStepEnd m) s = .next { s with cel.step := 2, cel.stepAt := s.now })
      ∧ (s.cel.step = 2 → (m.crystals = true ∨ s.cel.stepAt + ms 800 ≤ s.now) → exec (.cellarStepEnd m) s = .next { s with
          cel.step := 3, cel.stepAt := s.now, cel.xtalFault := !m.crystals, cel.xtalOk := m.crystals })
      ∧ (s.cel.step = 3 → s.cel.stepAt + ticksNs 16 ≤ s.now → ∃ t, exec (.cellarStepEnd m) s = .next t ∧ t.cel.monoBase = 0 ∧ t.cel.monoAt = s.now
          ∧ t.sys.psel = pselOf (strapBit m.psel0).1 (strapBit m.psel1).1 ∧ t.sys.plock = (strapBit m.plock).1
          ∧ (t.cel.pstate = .cellar ∨ t.cel.pstate = .rising)))
  ∧ (∀ s : State, (s.cel.pstate ≠ .off ∨ s.cel.step ≠ 0) → ∃ t, exec .railFall s = .next t ∧ t.cel.pstate = .off
      ∧ t.srm.sr1 = s.srm.sr1 ∧ hostSame s t
      ∧ ∀ l c, (ctx l c t).txState = .stopped ∧ (ctx l c t).rxState = .stopped)
  ∧ ∀ (ppm : Half) (s : State), s.cel.pstate ≠ .off →
      (s.cel.xtalFault = false → exec (.crystalFault ppm true) s
        = .next (raise 0x2020 (d2 s.cel.xtalPpm.toNat) { s with cel.xtalFault := true, cel.xtalOk := false }))
      ∧ (atticRuns s = true → ppm.toInt.natAbs ≤ 500 →
          exec (.crystalFault ppm false) s = .next { s with cel.xtalPpm := ppm })

/-- A wake cause is gathered and starts a rise from CELLAR, or is latched in a fall; energy and the retry start a held rise
(R523, R529, R531, R532, R537, R538). Concludes `exec … = next …`, with the effect, for: wakeCauseRaised, riseEnergyOk,
riseRetry, cellarTimerExpiry. -/
def Obligations.WakeCausesStartARise : Prop :=
  ∀ s : State,
    (∀ ep : Endpoint, prsnt ep.ct s = true →
      (s.cel.pstate = .cellar ∨ s.cel.pstate = .falling) →
      ∃ t, exec (.wakeCauseRaised (.host ep)) s = .next t ∧ flagOf t.cel.wakeCause (1 + Link.num ep.link) = true
        ∧ (s.cel.pstate = .falling → t.cel.latch = .onReq)
        ∧ (s.cel.pstate = .cellar → flagOf s.cel.wakeCause (1 + Link.num ep.link) = false → riseAllowed s = true →
            t.cel.pstate = .rising ∧ t.cel.step = 1))
    ∧ (s.cel.pstate = .cellar → riseAllowed s = true →
        (s.cel.energyHold = true ∨ s.cel.heatHold = true → ∃ t, exec .riseEnergyOk s = .next t ∧ t.cel.pstate = .rising ∧ t.cel.step = 1
          ∧ t.cel.energyHold = false ∧ t.cel.heatHold = false ∧ t.cel.cntRise = s.cel.cntRise + 1)
        ∧ (∀ d, s.cel.retryAt = some d → d ≤ s.now → ∃ t, exec .riseRetry s = .next t ∧ t.cel.pstate = .rising
          ∧ t.cel.step = 1 ∧ t.cel.retryAt = none))
    ∧ ∀ d, s.cel.timerAt = some d → d ≤ s.now → s.cel.pstate = .cellar →
        ∃ t, exec .cellarTimerExpiry s = .next t ∧ flagOf t.cel.wakeCause 10 = true ∧ t.cel.timerAt = none

/-- A rise runs S1 to S7 into RUN, a fall F7 to F1 into CELLAR, and a latched request turns the sequence at a step boundary
(R526, R528, R529, R530, R532). Concludes `exec … = next …`, with the effect, for: riseStepEnd, fallStepEnd, stepFail. -/
def Obligations.RisesAndFallsRunStepByStep : Prop :=
  ∀ s : State,
    (∀ a b : Bool, s.cel.pstate = .rising → 1 ≤ s.cel.step → s.cel.step ≤ 7 → riseDone s.cel.step s = true →
        heldForRemoval s = false →
        ∃ t, exec (.riseStepEnd a b) s = .next t
          ∧ (s.cel.latch = .offReq → t.cel.pstate = .falling ∧ t.cel.step = s.cel.step
              ∧ t.cel.cntReverse = s.cel.cntReverse + 1)
          ∧ (s.cel.latch ≠ .offReq → s.cel.step = 7 → t.cel.pstate = .run)
          ∧ (s.cel.latch ≠ .offReq → s.cel.step < 7 → t.cel.pstate = .rising ∧ t.cel.step = s.cel.step + 1))
    ∧ (s.cel.pstate = .falling → 1 ≤ s.cel.step → s.cel.step ≤ 7 → (s.cel.step = 7 → fetchedLeft s = true) →
        heldForRemoval s = false →
        ∃ t, exec .fallStepEnd s = .next t
          ∧ (s.cel.latch = .onReq → t.cel.pstate = .rising ∧ t.cel.step = s.cel.step)
          ∧ (s.cel.latch ≠ .onReq → s.cel.step = 1 → t.cel.pstate = .cellar)
          ∧ (s.cel.latch ≠ .onReq → 1 < s.cel.step → t.cel.pstate = .falling ∧ t.cel.step = s.cel.step - 1))
    ∧ (s.cel.pstate = .rising → 1 ≤ s.cel.step → s.cel.step ≤ 4 →
        s.cel.stepAt + 2 * riseLasts s.cel.step s.cel.warm ≤ s.now →
        ∃ t, exec .stepFail s = .next t ∧ t.cel.pstate = .falling ∧ t.cel.step = s.cel.step
          ∧ t.cel.cntStepFail = s.cel.cntStepFail + 1)

/-- power_request moves the node and answers its outcome; empty banks take it through LAST_GASP to OFF (R503, R523, R533, R534).
Concludes `exec … = next …`, with the effect, for: bankEmpty, powerRequestRun, powerRequestCellar, lastGaspStepEnd. -/
def Obligations.PowerRequestAndLastGasp : Prop :=
  (∀ (r : Req) (s : State), allowedAt 0x0101 (authorityOf r.port s) = some true →
      (r.body = List.replicate 7 0 →
        (s.cel.pstate = .run → exec (.powerRequestRun r) s = .next (answer r 0x0101 stOk [0] s))
        ∧ (s.cel.pstate = .cellar → riseAllowed s = true → ∃ t, exec (.powerRequestRun r) s = .next t
            ∧ t.cel.pstate = .rising ∧ t.cel.step = 1)
        ∧ (s.cel.pstate = .falling → ∃ t, exec (.powerRequestRun r) s = .next t ∧ t.cel.latch = .onReq))
      ∧ (∀ a b c d : Byte, authorityOf r.port s ≠ .peer → r.body = [0, 0, 0, a, b, c, d] →
        (s.cel.pstate = .cellar → exec (.powerRequestCellar r) s
          = .next (answer r 0x0101 stOk [0] (armTimer (ofLE [a, b, c, d]) s)))
        ∧ (s.cel.pstate = .run → ∃ t, exec (.powerRequestCellar r) s = .next t ∧ t.cel.pstate = .falling ∧ t.cel.step = 7)))
  ∧ ∀ s : State,
    (s.cel.pstate ≠ .off → s.cel.pstate ≠ .lastGasp → onBanks s = true → ∃ t, exec .bankEmpty s = .next t
      ∧ t.cel.pstate = .lastGasp ∧ t.cel.step = (if s.cel.pstate = .cellar then 0 else 1) ∧ t.pwr.bankEmpty = true
      ∧ t.bgt.level = 5)
    ∧ (s.cel.pstate = .lastGasp → ∃ t, exec .lastGaspStepEnd s = .next t
        ∧ (s.cel.step ≤ 2 → t.cel.pstate = .lastGasp ∧ t.cel.step = s.cel.step + 1)
        ∧ (s.cel.step = 3 → t.cel.pstate = .off ∧ t.cel.offSince = some s.now))

/-- The budget level goes deeper at once and shallower after its hold; heat takes the node off; the host cap ends with its time
(R545, R546, R552, R553, R554, R565, R549, R551, R15). Concludes `exec … = next …`, with the effect, for: budgetEvaluate,
budgetRiseHoldEnd, loadOverrun, heatOff, budgetLimitSet, budgetLimitClear, hostCapExpiry. -/
def Obligations.BudgetLevelCapsAndHeatOff : Prop :=
  ((∀ (ch die : Byte) (load : Nat) (s : State), levelsAct s = false → s.cel.pstate ≠ .off → s.cel.pstate ≠ .lastGasp →
    s.bgt.hotOff = false →
    let u := takeCaps { s with bgt.tChassis := ch, bgt.tCx2 := die, pwr.load := sat 1023 load }
    exec (.budgetEvaluate ch die load) s = .next (noteLevel (capLevel u) u))
  ∧ ∀ s : State, levelsAct s = true →
    (∀ (ch die : Byte) (load : Nat),
      let u := takeCaps { s with bgt.tChassis := ch, bgt.tCx2 := die, pwr.load := sat 1023 load }
      ∃ t, exec (.budgetEvaluate ch die load) s = .next t ∧ t.bgt.tCx2 = die ∧ t.pwr.load = min 1023 load
        ∧ t.bgt.srcCap = (if sourceCode s = 1 then s.bgt.battLevel.toNat else 0)
        ∧ (s.bgt.level.val < capLevel u → t.bgt.level.val = capLevel u ∧ t.bgt.cntDeeper = s.bgt.cntDeeper + 1
            ∧ t.bgt.holdUntil = none)
        ∧ (s.bgt.level.val = capLevel u → t.bgt.level = s.bgt.level ∧ t.bgt.holdUntil = none)
        ∧ (capLevel u < s.bgt.level.val → t.bgt.level = s.bgt.level
            ∧ t.bgt.holdUntil = some (s.bgt.holdUntil.getD (s.now + s.bgt.restoreHold.toNat * 1000000000))))
    ∧ (∀ d, s.bgt.holdUntil = some d → d ≤ s.now → capLevel s < s.bgt.level.val →
        ∃ t, exec .budgetRiseHoldEnd s = .next t ∧ t.bgt.level.val + 1 = s.bgt.level.val
          ∧ t.bgt.cntShallower = s.bgt.cntShallower + 1
          ∧ t.bgt.holdUntil = (if capLevel s < s.bgt.level.val - 1 then some (s.now + 1000000000) else none))
    ∧ ∀ d, s.bgt.overSince = some d → d + 500000000 ≤ s.now → sourceCode s ≠ 0 →
        10 * ceilingW s.bgt.level.val < s.pwr.load →
        ∃ t, exec .loadOverrun s = .next t ∧ t.bgt.loadCap = min 4 (s.bgt.level.val + 1)
          ∧ t.bgt.cntOverrun = s.bgt.cntOverrun + 1 ∧ t.bgt.level = s.bgt.level ∧ onlyChanges (.bgt :: eventParts) s t
          ∧ hostSame s t)
  ∧ ((∀ (s : State) (d : Ns), s.bgt.hotSince = some d → d + 1000000000 ≤ s.now → s.bgt.hotOff = false →
    ∃ t, exec .heatOff s = .next t ∧ t.bgt.hotOff = true
      ∧ (s.cel.pstate = .run → t.cel.pstate = .falling ∧ t.cel.step = 7)
      ∧ (s.cel.pstate = .rising → t.cel.pstate = .rising ∧ t.cel.latch = .offReq))
  ∧ (∀ (r : Req) (k a b c d : Byte) (s : State), allowedAt 0x0120 (authorityOf r.port s) = some true →
      (r.body = [k, 0, 0, 0, a, b, c, d] → ofLE [a, b, c, d] ≤ 86400 → 1 ≤ k.toNat → k.toNat ≤ 4 →
        exec (.budgetLimitSet r) s = .next (answer r 0x0120 stOk (d1 s.bgt.level.val)
          (raise 0x1042 (d1 (portCode r.port) ++ d1 k.toNat ++ d4 (ofLE [a, b, c, d]))
            { s with bgt.hostCap := k.toNat,
                     bgt.hostCapUntil := if ofLE [a, b, c, d] = 0 then none else some (s.now + sec (ofLE [a, b, c, d])) })))
      ∧ (r.body = [k, 0, 0, 0, a, b, c, d] → (k = 0 ∨ 4 < k.toNat) →
        exec (.budgetLimitSet r) s = .next (answer r 0x0120 stMalformed [] s))
      ∧ (r.body = [0, 0, 0, a, b, c, d] → ofLE [a, b, c, d] ≤ 86400 →
        exec (.budgetLimitClear r) s = .next (answer r 0x0120 stOk (d1 s.bgt.level.val)
          (raise 0x1042 (d1 (portCode r.port) ++ d1 0 ++ d4 0) { s with bgt.hostCap := 0, bgt.hostCapUntil := none }))))
  ∧ ∀ (s : State) (d : Ns), s.bgt.hostCapUntil = some d →
      (d ≤ s.now → exec .hostCapExpiry s = .next { s with bgt.hostCap := 0, bgt.hostCapUntil := none })
      ∧ (s.now < d → exec .hostCapExpiry s = .next s))

/-- Demand keeps the train awake each second, 3 s of silence settle it, a notice names the instant, and the node falls there
(R571, R572, R575, R579, R580, R581, R586). Concludes `exec … = next …`, with the effect, for: keepaliveSend, kaSilence,
sleepNoticeCompute, sleepInstant, localWakeTimeout. -/
def Obligations.KeepAlivesNoticesAndTheSleepInstant : Prop :=
  ∀ s : State,
    (sleepRuns s = true → s.slp.st ≠ .asleep → demand s = true →
      (s.slp.localWake = false → (∀ d, s.slp.kaDue = some d → d ≤ s.now) → ∃ t, exec .keepaliveSend s = .next t
        ∧ t.slp.kaDue = some (s.now + 1000000000) ∧ t.slp.msgNum = s.slp.msgNum + 1
        ∧ (s.slp.agree ≠ 2 → t.slp.kaSince = s.now ∧ t.slp.st = .awake
            ∧ (s.slp.st = .settling → t.slp.cntCancel = s.slp.cntCancel + 1 ∧ t.slp.sleepAt = none)))
      ∧ (∀ d, s.slp.localWake = false → s.slp.kaDue = some d → s.now < d → exec .keepaliveSend s = .next s)
      ∧ (s.slp.localWake = true → ∃ t, exec .keepaliveSend s = .next t ∧ t.slp.localWake = false ∧ t.slp.st = .awake
          ∧ t.slp.masterArmed = false))
    ∧ (s.slp.st = .awake → s.cel.pstate = .run → isNative s = true → s.slp.agree ≠ 2 →
        (s.slp.kaSince + 3000000000 ≤ s.now → (s.slp.agree = 3 → s.slp.masterArmed = true) →
          ∃ t, exec .kaSilence s = .next t ∧ t.slp.st = .settling ∧ t.slp.sleepAt = none ∧ t.slp.noticeSeen = false
            ∧ t.slp.noticeMade = false)
        ∧ (s.now < s.slp.kaSince + 3000000000 → exec .kaSilence s = .next s)
        ∧ (s.slp.agree = 3 → s.slp.masterArmed = false → exec .kaSilence s = .next s))
    ∧ (s.slp.st = .settling → s.slp.localWake = false → s.slp.noticeMade = false → s.slp.agree ≠ 2 → sleepRuns s = true →
        (s.slp.agree = 3 → s.slp.masterArmed = true) → s.slp.kaSince + s.slp.sleepDelay.toNat * 1000000000 ≤ s.now →
        ∃ t i, exec .sleepNoticeCompute s = .next t ∧ i % 4096000000 = 0 ∧ ttime s + 2000000000 ≤ i
          ∧ i < ttime s + 2000000000 + 4096000000 ∧ t.slp.noticeMade = true
          ∧ t.slp.msgNum = (if s.slp.noticeSeen then s.slp.msgNum else s.slp.msgNum + 1)
          ∧ (s.slp.sleepAt = none → s.slp.agree = 3 → ∀ a, s.slp.armedAt = some a →
              t.slp.sleepAt = some (BitVec.ofNat 64 (max i a.toNat)))
          ∧ (s.slp.sleepAt = none → s.slp.agree ≠ 3 → t.slp.sleepAt = some (BitVec.ofNat 64 i)))
    ∧ (∀ a, s.slp.sleepAt = some a → s.slp.st = .settling →
        (ttime s < a.toNat → exec .sleepInstant s = .next s)
        ∧ (a.toNat ≤ ttime s → ∃ t, exec .sleepInstant s = .next t ∧ t.slp.st = .asleep ∧ t.slp.sleepAt = none
            ∧ t.slp.cntSleep = s.slp.cntSleep + 1 ∧ (s.cel.pstate = .run → t.cel.pstate = .falling)))
    ∧ ∀ d, s.slp.st = .settling → s.slp.localWake = true → s.slp.localWakeDue = some d →
        (s.now < d → exec .localWakeTimeout s = .next s)
        ∧ (d ≤ s.now → ∃ t, exec .localWakeTimeout s = .next t ∧ t.slp.st = .asleep ∧ t.slp.localWake = false
            ∧ (s.cel.pstate = .run → t.cel.pstate = .falling))

/-- Holds are set and released by their link, SLEEP and AWAKE order the group, WAKE is sent for 2 s and heard in its slot (R570,
R575, R583, R585, R586, R588). Concludes `exec … = next …`, with the effect, for: sleepCommandHold, sleepCommandRelease,
sleepCommandSleep, sleepCommandAwake, sleepCommandWake, wakeSendEnd, plcWakeHeard. -/
def Obligations.SleepCommandsAndWake : Prop :=
  (∀ (r : Req) (s : State), allowedAt 0x0B01 (authorityOf r.port s) = some true →
    (r.body = [0, 0, 0, 0, 0, 0, 0] → (r.port = .h1 ∨ r.port = .h2) →
      (∃ t, exec (.sleepCommandHold r) s = .next t ∧ (r.port = .h1 → t.slp.holdH1 = true ∧ t.slp.holdH2 = s.slp.holdH2)
        ∧ (r.port = .h2 → t.slp.holdH2 = true ∧ t.slp.holdH1 = s.slp.holdH1))
      ∧ ∃ t, exec (.sleepCommandRelease r) s = .next t ∧ (r.port = .h1 → t.slp.holdH1 = false ∧ t.slp.holdH2 = s.slp.holdH2)
        ∧ (r.port = .h2 → t.slp.holdH2 = false ∧ t.slp.holdH1 = s.slp.holdH1))
    ∧ (ownAction (authorityOf r.port s) = true →
      (∀ a b c d : Byte, r.body = [0, 0, 0, a, b, c, d] → (ofLE [a, b, c, d] = 0 ∨ (5 ≤ ofLE [a, b, c, d] ∧ ofLE [a, b, c, d] ≤ 3600)) →
        (isNative s = false → exec (.sleepCommandSleep r) s = .next (answer r 0x0B01 0x0F [] s))
        ∧ (isNative s = true → ∃ t, exec (.sleepCommandSleep r) s = .next t ∧ t.slp.msgNum = s.slp.msgNum + 1
            ∧ (s.slp.agree ≠ 1 → t.slp.masterArmed = true ∧ ∃ i, t.slp.armedAt = some i
                ∧ (s.slp.agree = 2 → s.slp.st = .awake → t.slp.st = .settling ∧ t.slp.sleepAt = some i))))
      ∧ (r.body = [0, 0, 0, 0, 0, 0, 0] →
        (isNative s = false → exec (.sleepCommandAwake r) s = .next (answer r 0x0B01 0x0F [] s))
        ∧ (isNative s = true → ∃ t, exec (.sleepCommandAwake r) s = .next t ∧ t.slp.msgNum = s.slp.msgNum + 1
            ∧ (s.slp.agree ≠ 1 → t.slp.masterArmed = false
                ∧ (s.slp.st = .settling → t.slp.st = .awake ∧ t.slp.cntCancel = s.slp.cntCancel + 1))))
      ∧ ∀ g : Byte, g.toNat ≤ 3 → r.body = [g, 0, 0, 0, 0, 0, 0] → ∃ t, exec (.sleepCommandWake r) s = .next t
          ∧ ∀ c : Chan, (relayClosed (plc c s) = true → t.slp.wakeSend[c] = some (s.now + 2000000000, BitVec.ofNat 2 g.toNat))
              ∧ (relayClosed (plc c s) = false → t.slp.wakeSend[c] = s.slp.wakeSend[c])))
  ∧ (∀ (c : Chan) (s : State), ∃ t, exec .wakeSendEnd s = .next t ∧ ∀ d g, s.slp.wakeSend[c] = some (d, g) →
      (d ≤ s.now → t.slp.wakeSend[c] = none) ∧ (s.now < d → t.slp.wakeSend[c] = some (d, g)))
  ∧ ∀ (c : Chan) (after : Ns) (s : State), wakeListen (plc c s) = true → relayClosed (plc c s) = true →
      (s.cel.pstate = .cellar ∨ s.cel.pstate = .falling) →
      (((plc c s).line ≠ .ac ∨ ((after : Int) - wakeSlotNs (plc c s) s.slp.group).natAbs ≤ 350000) →
        ∃ t, exec (.plcWakeHeard c after) s = .next t ∧ flagOf t.cel.wakeCause (5 + c.val) = true)
      ∧ ((plc c s).line = .ac → 350000 < ((after : Int) - wakeSlotNs (plc c s) s.slp.group).natAbs →
          exec (.plcWakeHeard c after) s = .next s)

/-- The active controller beats and pulses, silence, a fault or a command hands the token over, the standby joins and is lost
(R593, R595, R597, R598, R599, R600, R605, R606, R607, R608, R609, R436). Concludes `exec … = next …`, with the effect, for:
heartbeatSend, heartbeatReceived, activeFaultDetected, tokenSilence, takeoverStepEnd, heartbeatLoss, standbyJoinStepEnd,
standbyFail, standbyRejoinRetry, redSwitchover. -/
def Obligations.ControllersKeepHandOverAndJoin : Prop :=
  (∀ s : State,
    (controls s = true → s.red.yield = false → s.red.hbNextAt ≤ s.now → ∃ t, exec .heartbeatSend s = .next t
      ∧ t.out = s.out ++ [.heartbeat false, .token, .token] ∧ t.red.hbNextAt = s.now + 1000000 ∧ t.red.lastToken = s.now
      ∧ onlyChanges [.red, .out] s t ∧ hostSame s t)
    ∧ ((controls s = false ∨ s.red.yield = true ∨ s.now < s.red.hbNextAt) → exec .heartbeatSend s = .next s)
    ∧ (controls s = true → partnerUp s = true → s.red.toStep ≤ 1 →
        (s.red.lastToken + 3000000 ≤ s.now → ∃ t, exec .tokenSilence s = .next t ∧ t.red.activeB = !s.red.activeB
          ∧ t.red.token = true ∧ t.red.pair = .none ∧ t.red.toStep = 2 ∧ t.red.toCause = 1
          ∧ t.red.cntTakeover = s.red.cntTakeover + 1 ∧ t.arb.pointers = Vector.replicate 4 15 ∧ ∀ l c, (ctx l c t).txPend = [])
        ∧ (s.now < s.red.lastToken + 3000000 → exec .tokenSilence s = .next s)
        ∧ (∃ t, exec (.heartbeatReceived true) s = .next t ∧ t.red.activeB = !s.red.activeB ∧ t.red.token = true ∧ t.red.toStep = 2)
        ∧ exec (.heartbeatReceived false) s = .next (emit (.heartbeat false) s))
    ∧ (controls s = true → s.red.hbLinkFault = true → exec (.heartbeatReceived false) s
        = .next { s with red.hbLinkFault := false, red.joinStep := 2, red.pair := .joining })
    ∧ (controls s = true → s.red.pair = .duplex → (∃ t, exec .activeFaultDetected s = .next t ∧ t.red.yield = true
        ∧ t.red.toStep = 1 ∧ t.red.toCause = 2 ∧ t.red.toAt = s.now ∧ t.out = s.out ++ [.heartbeat true]))
    ∧ (controls s = true → s.red.pair ≠ .duplex → ∃ t, exec .activeFaultDetected s = .next t ∧ t.cel.pstate = .off)
    ∧ (controls s = true → s.red.pair = .duplex → s.red.toStep = 0 → s.now < s.red.lastToken + 3000000 →
        ∃ t, exec .heartbeatLoss s = .next t ∧ t.red.hbLinkFault = true ∧ t.red.pair = .none ∧ t.red.activeB = s.red.activeB)
    ∧ (s.red.pair ≠ .duplex → exec .heartbeatLoss s = .next s))
  ∧ (∀ (h1 h2 : List Host.Cell) (s : State), let v := hostStores .h2 h2 (hostStores .h1 h1 s)
      (s.red.toStep = 0 → exec (.takeoverStepEnd h1 h2) s = .next v)
      ∧ (s.red.toStep = 1 → s.now < s.red.toAt → exec (.takeoverStepEnd h1 h2) s = .next v)
      ∧ (s.red.toStep = 1 → s.red.toAt ≤ s.now → (s.red.toCause = 4 → s.cel.pstate = .run) → partnerUp s = true →
          ∃ t, exec (.takeoverStepEnd h1 h2) s = .next t ∧ t.red.activeB = !s.red.activeB ∧ t.red.toStep = 2
            ∧ t.red.toCause = s.red.toCause ∧ (s.red.toCause = 4 → t.red.cntSwitchover = s.red.cntSwitchover + 1))
      ∧ (s.red.toStep = 1 → s.red.toAt ≤ s.now → s.red.toCause = 4 → (s.cel.pstate ≠ .run ∨ partnerUp s = false) →
          ∃ t, exec (.takeoverStepEnd h1 h2) s = .next t ∧ t.red.toStep = 0 ∧ t.red.switchReq = none ∧ t.red.activeB = s.red.activeB)
      ∧ (s.red.toStep = 1 → s.red.toAt ≤ s.now → s.red.toCause ≠ 4 → partnerUp s = false →
          ∃ t, exec (.takeoverStepEnd h1 h2) s = .next t ∧ t.cel.pstate = .off)
      ∧ (s.red.toStep = 2 → exec (.takeoverStepEnd h1 h2) s = .next { v with red.toStep := 3, red.toAt := v.now })
      ∧ (s.red.toStep = 3 → ∃ t, exec (.takeoverStepEnd h1 h2) s = .next t ∧ t.red.toStep = 4)
      ∧ (s.red.toStep = 4 → ∃ t, exec (.takeoverStepEnd h1 h2) s = .next t ∧ t.red.toStep = if isNative s then 5 else 0)
      ∧ (s.red.toStep = 5 → ∃ t, exec (.takeoverStepEnd h1 h2) s = .next t ∧ t.red.toStep = 0 ∧ t.red.switchReq =
            (if s.red.toCause = 4 then none else s.red.switchReq)
          ∧ t.red.lastFo = word (putBits 28 4 s.red.toCause + s.red.gapUs.getD (urgentGap v))))
  ∧ ∀ s : State,
      (s.red.joinStep = 1 → ∃ t, exec .standbyJoinStepEnd s = .next t ∧ t.red.joinStep = 2)
      ∧ (s.red.joinStep = 2 → ∃ t, exec .standbyJoinStepEnd s = .next t
          ∧ (runMajor (fwOf .a s) ≠ runMajor (fwOf .b s) → t.red.joinStep = 0 ∧ t.red.pair = .unpaired)
          ∧ (runMajor (fwOf .a s) = runMajor (fwOf .b s) → t.red.joinStep = 3
              ∧ t.red.minorDiff = (runMinor (fwOf .a s) != runMinor (fwOf .b s))))
      ∧ (s.red.joinStep = 3 → ∃ t, exec .standbyJoinStepEnd s = .next t ∧ t.red.joinStep = 0 ∧ t.red.pair = .duplex)
      ∧ (s.cel.pstate ≠ .off → s.red.pair = .duplex → s.red.toStep = 0 → ∃ t, exec .standbyFail s = .next t ∧ t.red.pair = .none
          ∧ t.red.activeB = s.red.activeB ∧ t.red.token = s.red.token)
      ∧ (∀ d, s.cel.pstate = .run → s.red.rejoinAt = some d → d ≤ s.now → (slot (ctSlot (otherCt s)) s).st ≠ 0 →
          s.red.pair ≠ .duplex → ∃ t, exec .standbyRejoinRetry s = .next t ∧ t.red.joinStep = 1 ∧ t.red.pair = .joining
            ∧ t.red.joinFails = s.red.joinFails + 1 ∧ t.red.rejoinAt = none)
      ∧ ∀ r : Req, allowedAt 0x0C02 (authorityOf r.port s) = some true → r.body = [] →
          (s.cel.pstate = .run → s.red.pair = .duplex → s.red.toStep = 0 → exec (.redSwitchover r) s = .next { s with
            red.toStep := 1, red.toCause := 4, red.toAt := s.now + (cycleNs s - cyclePos s), red.switchReq := some (r.port, r.tag) })
          ∧ ((s.cel.pstate ≠ .run ∨ s.red.pair ≠ .duplex ∨ s.red.toStep ≠ 0) →
              exec (.redSwitchover r) s = .next (answer r 0x0C02 0x0F [] s))

/-- A lever or red_release prepares a slot, ends safe or not safe, is undone; views that differ take a unit down (R611, R612,
R613, R615, R616, R617). Concludes `exec … = next …`, with the effect, for: leverFirstDetent, leverPushedBack,
redReleaseRequest, redReleaseCancel, removalPrepEnd, viewDisagree, viewAgree. -/
def Obligations.RemovalsArePreparedAndViewsCompared : Prop :=
  (∀ (n : Slot) (s : State),
    (s.cel.pstate ≠ .off → (slot n s).st ≠ 0 → leverBusy n s = false → ∃ t, exec (.leverFirstDetent n) s = .next t
      ∧ t.red.lever[n] = .preparing ∧ t.red.leverReq[n] = none)
    ∧ ((slot n s).st = 0 ∨ leverBusy n s = true → exec (.leverFirstDetent n) s = .next s)
    ∧ (s.red.lever[n] = .none → exec (.leverPushedBack n) s = .next s)
    ∧ (s.red.lever[n] ≠ .none → ∃ t, exec (.leverPushedBack n) s = .next t ∧ t.red.lever[n] = .none ∧ t.red.leverReq[n] = none)
    ∧ (s.red.lever[n] ≠ .preparing → exec (.removalPrepEnd n) s = .next s)
    ∧ (s.red.lever[n] = .preparing → slotCt n = none → ∃ t, exec (.removalPrepEnd n) s = .next t ∧ t.red.leverReq[n] = none
        ∧ t.red.lever[n] = if unsafeReason n s = 0 then .safe else .notSafe)
    ∧ (slotCt n = some (activeCt s) → s.red.lever[n] = .preparing → s.red.pair = .duplex → s.red.toStep = 0 → s.cel.pstate = .run →
        exec (.removalPrepEnd n) s = .next { s with
          red.toStep := 1, red.toCause := 4, red.toAt := s.now + (cycleNs s - cyclePos s), red.switchReq := none })
    ∧ (∀ c, slotCt n = some c → c ≠ activeCt s → s.red.lever[n] = .preparing → s.red.toStep = 0 →
        ∃ t, exec (.removalPrepEnd n) s = .next t ∧ t.red.lever[n] = .safe ∧ t.red.pair ≠ .duplex)
    ∧ ∀ r : Req, allowedAt 0x0C01 (authorityOf r.port s) = some true → releaseBody r.body = some n →
        ((slot n s).st = 0 ∨ s.red.lever[n] = .preparing → exec (.redReleaseRequest r) s = .next (answer r 0x0C01 0x0F [] s))
        ∧ ((slot n s).st ≠ 0 → s.red.lever[n] = .safe → exec (.redReleaseRequest r) s = .next (answer r 0x0C01 0 [2, 0] s))
        ∧ ((slot n s).st ≠ 0 → leverBusy n s = false → ∃ t, exec (.redReleaseRequest r) s = .next t
            ∧ t.red.lever[n] = .preparing ∧ t.red.leverReq[n] = some (r.port, r.tag))
        ∧ ∃ t, exec (.redReleaseCancel r) s = .next t ∧ t.red.lever[n] = .none)
  ∧ ∀ (u : Fin 15) (s : State),
      (s.red.differs.getLsbD u.val = false → s.cel.pstate ≠ .off → ∃ t, exec (.viewDisagree u) s = .next t
        ∧ t.red.differs.getLsbD u.val = true ∧ dataView u t = !mgmtView u s
        ∧ t.red.viewDiff = s.red.viewDiff ||| BitVec.ofNat 15 (2 ^ u.val))
      ∧ (s.red.differs.getLsbD u.val = true → exec (.viewDisagree u) s = .next s ∧ ∃ t, exec (.viewAgree u) s = .next t
          ∧ t.red.differs.getLsbD u.val = false ∧ dataView u t = mgmtView u t ∧ t.red.viewDiff = s.red.viewDiff)
      ∧ (s.red.differs.getLsbD u.val = false → exec (.viewAgree u) s = .next s)

/-- Items are staged for one link, committed for a named cycle, applied together there or item by item under FORCE (R618, R620,
R622, R623, R624, R625, R626, R478). Concludes `exec … = next …`, with the effect, for: configStage, configCommit,
configCommitForce, configDiscard, configSetApply, forcedItemApply, forcedItemTimeout, forcedOrderWaitExpiry. -/
def Obligations.ConfigSetsAreStagedCommittedAndApplied : Prop :=
  (∀ (r : Req) (s : State),
    (allowedAt 0x0C10 (authorityOf r.port s) = some true → 4 ≤ r.body.length → zeros r.body 2 4 = true →
      ∀ new, readItems r.body.length (r.body.drop 4) = some new → new.length = leAt r.body 0 2 →
        (∀ i, new.find? (itemBad false) = some i →
          exec (.configStage r) s = .next (answer r 0x0C10 0x06 (failBody (0x11, i.item.toNat, i.target.toNat)) s))
        ∧ (new.find? (itemBad false) = none →
            ((foreignSet r s || committing s) = true → exec (.configStage r) s = .next (answer r 0x0C10 0x0F [] s))
            ∧ (foreignSet r s = false → committing s = false → itemsBad false (new.foldl stageItem s.red.cfgItems) s = none →
                setBytes (new.foldl stageItem s.red.cfgItems) ≤ 1048576 → new ≠ [] → ∃ t, exec (.configStage r) s = .next t
                  ∧ t.red.cfgState = .staged ∧ t.red.cfgOwner = reqLink r.port ∧ t.red.cfgItems = new.foldl stageItem s.red.cfgItems)))
    ∧ (∀ (c : Req → Instr) (force : Bool), (c = Instr.configCommit ∧ force = false) ∨ (c = Instr.configCommitForce ∧ force = true) →
        allowedAt 0x0C11 (authorityOf r.port s) = some true → r.body = [0, 0, 0, 0, 0, 0, 0, 0] →
        ((foreignSet r s || committing s) = true → exec (c r) s = .next (answer r 0x0C11 0x0F [] s))
        ∧ (foreignSet r s = false → committing s = false →
            (s.red.cfgState = .empty → exec (c r) s = .next (answer r 0x0C11 0 [] s))
            ∧ (s.red.cfgState ≠ .empty → (force = true ∨ ∀ i ∈ s.red.cfgItems, swappable i = true) → ∃ t, exec (c r) s = .next t
                ∧ t.red.cfgState = (if force then .forcing else .committing) ∧ t.red.cfgCycle = cycleIdx s + 4
                ∧ t.red.cfgReq = some (r.port, r.tag)
                ∧ t.red.cfgItems = (if force then forcedOrder s.red.cfgItems s else s.red.cfgItems))
            ∧ (s.red.cfgState ≠ .empty → force = false → (∃ i ∈ s.red.cfgItems, swappable i = false) → ∃ t, exec (c r) s = .next t
                ∧ t.red = s.red ∧ hostSame s t)))
    ∧ (allowedAt 0x0C12 (authorityOf r.port s) = some true → r.body = [] →
        ((foreignSet r s || committing s) = true → exec (.configDiscard r) s = .next (answer r 0x0C12 0x0F [] s))
        ∧ (foreignSet r s = false → s.red.cfgState = .staged → ∃ t, exec (.configDiscard r) s = .next t
            ∧ t.red.cfgState = .empty ∧ t.red.cfgItems = [])))
  ∧ ∀ s : State,
      (committing s = true → cycleIdx s < s.red.cfgCycle → exec .configSetApply s = .next s)
      ∧ (committing s = true → s.red.cfgCycle ≤ cycleIdx s → s.red.itemAt = none → s.red.orderWait = none → s.red.cfgNext = 0 →
          (s.rrw.locked = true → exec .configSetApply s = .next s)
          ∧ (s.rrw.locked = false → s.red.cfgState = .committing →
              let u := groupApplied s.red.cfgItems (s.red.cfgItems.foldl (fun t i => applyItem i t) s)
              (u.red.cfgReq = none → exec .configSetApply s = .next (setDone (raise 0xC021 (d4 s.red.cfgCycle) u)))
              ∧ ∃ t, exec .configSetApply s = .next t ∧ t.red.cfgState = .empty ∧ t.red.cfgItems = [] ∧ t.red.cfgReq = none))
      ∧ ((s.red.cfgState ≠ .forcing ∨ s.rrw.locked = true) → exec .forcedItemApply s = .next s)
      ∧ (∀ (i : CfgItem) (a : Ns), s.red.cfgState = .forcing → s.rrw.locked = false → s.red.orderWait = none → s.red.itemAt = some a →
          s.red.cfgItems[s.red.cfgNext]? = some i →
          let last := s.red.cfgNext + 1 = s.red.cfgItems.length
          (itemReady i (retireAll s) = true → quiet i (retireAll s) = false → exec .forcedItemApply s = .next (retireAll s))
          ∧ (itemReady i (retireAll s) = true → quiet i (retireAll s) = true → last → ∃ t, exec .forcedItemApply s = .next t
              ∧ t.red.cfgState = .empty ∧ t.red.cfgItems = [] ∧ t.tc.fetchHold = none)
          ∧ (s.now < a + 10000000000 → exec .forcedItemTimeout s = .next s)
          ∧ (a + 10000000000 ≤ s.now → ∃ t, exec .forcedItemTimeout s = .next t
              ∧ (last → t.red.cfgState = .empty) ∧ (¬last → t.red.cfgState = .empty ∨ s.red.cfgNext < t.red.cfgNext)))
      ∧ ∀ (k : Nat) (d : Ns) (i : CfgItem), s.red.cfgState = .forcing → s.red.orderWait = some (k, d) →
          s.red.cfgItems[s.red.cfgNext]? = some i → itemReady i s = true →
          (s.now < d → exec .forcedOrderWaitExpiry s = .next s)
          ∧ (d ≤ s.now → ∃ t, exec .forcedOrderWaitExpiry s = .next t ∧ t.red.orderWait = none ∧ t.red.itemAt = some s.now
              ∧ t.red.cfgNext = s.red.cfgNext)

/-- Refused ports change nothing, a profile is selected as a forced set, flash operations and firmware trials follow their rules
(R630, R631, R634, R643, R648, R649, R651, R652, R660, R661, R663). Concludes `exec … = next …`, with the effect, for:
profileSelect, idsRead, idsErase, idsProgram, fwErase, fwProgram, flashOpDone, fwActivateTrial, fwActivateCommit,
fwActivateRevert, trialStartFail. -/
def Obligations.AuthorityProfilesIdentityAndFirmware : Prop :=
  (∀ (r : Req) (s : State),
    (∀ (c : Req → Instr) (op : Half), (c = Instr.profileSelect ∧ op = 0x0D01) ∨ (c = Instr.idsRead ∧ op = 0x0D10)
        ∨ (c = Instr.idsErase ∧ op = 0x0D11) ∨ (c = Instr.idsProgram ∧ op = 0x0D12) ∨ (c = Instr.fwErase ∧ op = 0x0D21)
        ∨ (c = Instr.fwProgram ∧ op = 0x0D22) ∨ (c = Instr.fwActivateTrial ∧ op = 0x0D23) →
        allowedAt op.toNat (authorityOf r.port s) = some false → exec (c r) s = .next (refuse r op 0x01 0xD001 s))
    ∧ (allowedAt 0x0D01 (authorityOf r.port s) = some true → ∀ n : Byte, n.toNat ≤ 3 → r.body = [n, 0, 0, 0] →
        (s.sys.plock = true → exec (.profileSelect r) s = .next (refuse r 0x0D01 0x02 0xD003 s))
        ∧ (s.sys.plock = false → committing s = true → exec (.profileSelect r) s = .next (answer r 0x0D01 0x0F [0x20] s))
        ∧ (s.sys.plock = false → committing s = false →
            (∀ f, readProfile n.toNat s = .inr f → exec (.profileSelect r) s = .next (answer r 0x0D01 0x06 (failBody f) s))
            ∧ (∀ p, readProfile n.toNat s = .inl p → basesMove (profileBase p) s = true →
                exec (.profileSelect r) s = .next (answer r 0x0D01 0x0F [0x21] s))
            ∧ (∀ p, readProfile n.toNat s = .inl p → basesMove (profileBase p) s = false →
                ∃ t, exec (.profileSelect r) s = .next t ∧ t.ids.activeProf.toNat = n.toNat ∧ t.ids.selCmd = true
                  ∧ t.red.cfgState = .forcing ∧ t.red.cfgIsProfile = some (BitVec.ofNat 2 n.toNat)
                  ∧ t.red.cfgCycle = cycleIdx s + 4 ∧ flashSame s t)))
    ∧ (allowedAt 0x0D10 (authorityOf r.port s) = some true → r.body.length = 8 → zeros r.body 6 8 = true →
        1 ≤ leAt r.body 4 2 → leAt r.body 4 2 ≤ 4080 → leAt r.body 0 4 + leAt r.body 4 2 ≤ 0x1000000 →
        exec (.idsRead r) s = .next (if (touched (leAt r.body 0 4) (leAt r.body 4 2)).all mayRead = true
          then answer r 0x0D10 0 (idsLoad (leAt r.body 0 4) (leAt r.body 4 2) s) s else answer r 0x0D10 0x05 [3] s))
    ∧ (∀ (c : Req → Instr) (op : Half) (erase : Bool) (data : List Byte),
        let a := leAt r.body 0 4
        let n := if erase then 4096 * leAt r.body 4 2 else leAt r.body 4 2
        (c = Instr.idsErase ∧ op = 0x0D11 ∧ erase = true ∧ data = [] ∧ r.body.length = 8 ∧ a % 4096 = 0)
          ∨ (c = Instr.idsProgram ∧ op = 0x0D12 ∧ erase = false ∧ data = r.body.drop 8 ∧ r.body.length = 8 + n ∧ a % 256 + n ≤ 256) →
        allowedAt op.toNat (authorityOf r.port s) = some true → zeros r.body 6 8 = true → 1 ≤ leAt r.body 4 2 →
        leAt r.body 4 2 ≤ 256 → a + n ≤ 0x1000000 → (touched a n).all (fun x => mayChange erase (authorityOf r.port s) x s) = true →
        (touched a n).contains (.profile s.ids.activeProf.toNat) = false →
        (s.ids.op.isSome = true → exec (c r) s = .next (answer r op 0x0F [0x23] s))
        ∧ (s.ids.op = none → (erase = false → s.ids.flash = []) → ∃ t, exec (c r) s = .next t
            ∧ t.ids.op = some ⟨r.port, r.tag, op, a, data, if erase then n else 0, 0⟩ ∧ onlyChanges [.ids] s t ∧ flashSame s t))
    ∧ ∀ (c : Ct) (x b : Byte), ctOfSlot x.toNat = some c → b.toNat ≤ 1 → (slot (ctSlot c) s).st ≠ 0 →
        bankInUse (fwOf c s) b.toNat = false → (fwOf c s).op = none →
        (allowedAt 0x0D21 (authorityOf r.port s) = some true → r.body = [x, b, 0, 0] → ∃ t, exec (.fwErase r) s = .next t
          ∧ (fwOf c t).op = some ⟨r.port, r.tag, 0x0D21, 0, [], bankSize, b.toNat⟩ ∧ flashSame s t)
        ∧ (∀ data : List Byte, allowedAt 0x0D22 (authorityOf r.port s) = some true → data ≠ [] → data.length ≤ 255 →
            r.body = [x, b, 0, 0, 0, 0, 0, 0, BitVec.ofNat 8 data.length, 0, 0, 0] ++ data →
            firstUsed 0 data.length (bankCells (fwOf c s) b.toNat) = none → ∃ t, exec (.fwProgram r) s = .next t
              ∧ (fwOf c t).op = some ⟨r.port, r.tag, 0x0D22, 0, data, 0, b.toNat⟩ ∧ flashSame s t))
  ∧ (∀ (o : FlashOp) (c : Ct) (ok : Bool) (s : State), (fwOf c s).op = some o → ∃ t, exec (.flashOpDone (.fw c) ok) s = .next t
      ∧ (fwOf c t).op = none ∧ t.ids.flash = s.ids.flash ∧ hostSame s t)
  ∧ (∀ (o : FlashOp) (s : State), s.ids.op = some o → s.ids.held = [] → memWf flashFill s.ids.flash = true →
      (∃ t, exec (.flashOpDone .ids true) s = .next t ∧ t.ids.op = none
        ∧ (o.data = [] → ∀ a, o.addr ≤ a → a < o.addr + o.eraseLen → memGet flashFill t.ids.flash a = 0xFF)
        ∧ (o.data ≠ [] → ∀ i, i < o.data.length → memGet flashFill t.ids.flash (o.addr + i) = o.data.getD i 0)
        ∧ ∀ a, (a < o.addr ∨ o.addr + opSpan o ≤ a) → memGet flashFill t.ids.flash a = memGet flashFill s.ids.flash a)
      ∧ ∃ t, exec (.flashOpDone .ids false) s = .next t ∧ t.ids.op = none
          ∧ ∀ a, (a < o.addr ∨ o.addr + opSpan o ≤ a) → memGet flashFill t.ids.flash a = memGet flashFill s.ids.flash a)
  ∧ (∀ (r : Req) (x : Byte) (c : Ct) (s : State), allowedAt 0x0D23 (authorityOf r.port s) = some true → ctOfSlot x.toNat = some c →
      r.body = [x, 0, 0] → (slot (ctSlot c) s).st ≠ 0 →
      let f := fwOf c s
      let valid := if f.running then f.valid0 else f.valid1
      let inService := c == activeCt s || s.red.pair == .duplex
      ((!valid || f.op.isSome) = true → exec (.fwActivateTrial r) s = .next (answer r 0x0D23 0x06 [0x26] s))
      ∧ (valid = true → f.op = none → ∃ t, exec (.fwActivateTrial r) s = .next t ∧ (fwOf c t).trial = some (!f.running)
          ∧ (fwOf c t).failedStarts = 0 ∧ (fwOf c t).reverted = false)
      ∧ ((f.trial ≠ some f.running ∨ inService = false) → exec (.fwActivateCommit r) s = .next (answer r 0x0D23 0x0F [0x27] s))
      ∧ (f.trial = some f.running → inService = true → ∃ t, exec (.fwActivateCommit r) s = .next t
          ∧ (fwOf c t).committed = f.running ∧ (fwOf c t).trial = none ∧ (fwOf c t).running = f.running)
      ∧ (f.trial = none → exec (.fwActivateRevert r) s = .next (answer r 0x0D23 0x0F [0x27] s))
      ∧ (∀ b, f.trial = some b → ∃ t, exec (.fwActivateRevert r) s = .next t ∧ (fwOf c t).trial = none
          ∧ (fwOf c t).committed = !b))
  ∧ ∀ (c : Ct) (s : State), let f := fwOf c s
      ((c ≠ activeCt s ∧ s.red.joinStep ≠ 0) ∨ (c = activeCt s ∧ s.cel.pstate = .rising)) → f.trial = some f.running →
      ∃ t, exec (.trialStartFail c) s = .next t ∧ (c ≠ activeCt s → t.red.joinStep = 1) ∧ (c = activeCt s → t.cel.pstate = .off)
        ∧ (f.failedStarts < 2 → (fwOf c t).failedStarts = f.failedStarts + 1 ∧ (fwOf c t).trial = f.trial)
        ∧ (2 ≤ f.failedStarts → (fwOf c t).reverted = true ∧ (fwOf c t).trial = none
            ∧ (fwOf c t).running = !f.running ∧ (fwOf c t).committed = !f.running)

/-- The store room commits with the next SEQ and is read; the ledger turns at its boundaries and settings and is copied each
second (R669, R670, R676, R677, R681, R684, R691, R692, R693, R697, R699, R700). Concludes `exec … = next …`, with the effect,
for: recordCommit, tokenRefill, timeMarkPeriod, sr1Ready, srRead, ledgerBoundary, ldgCfgWrite, intervalCopy. -/
def Obligations.StoreRoomCommitsAndLedgerTurns : Prop :=
  (∀ s : State,
    (s.srm.pend = [] ∨ srWritable s = false → exec .recordCommit s = .next s)
    ∧ (∀ p rest, s.srm.pend = p :: rest → srWritable s = true →
        (lastSeq < s.srm.sr1.nextSeq.toNat → ∃ t, exec .recordCommit s = .next t ∧ t.srm.pend = s.srm.pend
          ∧ (slot srSlot t).st = 3 ∧ t.srm.sr1.seqEnd = true ∧ t.srm.cntWritten = s.srm.cntWritten)
        ∧ (s.srm.sr1.nextSeq.toNat ≤ lastSeq → ∃ t, exec .recordCommit s = .next t
            ∧ t.srm.sr1.nextSeq = s.srm.sr1.nextSeq + 1 ∧ t.srm.cntWritten = s.srm.cntWritten + 1
            ∧ (s.srm.sr1.nextSeq.toNat = lastSeq → (slot srSlot t).st = 3)
            ∧ (p.perm = false → s.srm.sr1.detail.length = 7 → s.srm.sr1.cur < 7 →
                ∃ r ∈ (segAt t.srm.sr1 t.srm.sr1.cur).recs, r.seq = s.srm.sr1.nextSeq ∧ r.code = p.code ∧ r.valid = true)))
    ∧ (∀ code, (due (bucket code s).refillAt s = false → exec (.tokenRefill code) s = .next s)
        ∧ (due (bucket code s).refillAt s = true → ∃ t, exec (.tokenRefill code) s = .next t
            ∧ (bucket code t).tokens = min (bucketOf code).1 ((bucket code s).tokens + 1)
            ∧ (∀ c, c.toNat ≠ code.toNat → bucket c t = bucket c s) ∧ onlyChanges [.srm] s t))
    ∧ (s.srm.writerOn = true → due s.srm.markDue s = true → ∃ t, exec .timeMarkPeriod s = .next t
        ∧ t.srm.markDue = some (s.now + ticksNs 10240) ∧ hostSame s t)
    ∧ ((s.srm.writerOn = false ∨ due s.srm.markDue s = false) → exec .timeMarkPeriod s = .next s)
    ∧ (∀ content : Option Sr1, ((slot srSlot s).st ≠ 1 → exec (.sr1Ready content) s = .next s)
        ∧ ((slot srSlot s).st = 1 → let x := content.getD s.srm.sr1
            ∃ t, exec (.sr1Ready content) s = .next t ∧ t.srm.sr1.perm = x.perm ∧ t.srm.sr1.detail = x.detail
              ∧ t.srm.sr1.nextSeq = x.nextSeq
              ∧ (slot srSlot t).st = (if x.seqEnd || decide (lastSeq < x.nextSeq.toNat) then 3 else 2)))
    ∧ ∀ r : Req, allowedAt 0x0E01 (authorityOf r.port s) = some true → r.body.length = 16 → byteAt r.body 0 ≤ 1 → byteAt r.body 1 = 0 →
        leAt r.body 2 2 ≠ 0 → leAt r.body 12 4 = 0 →
        let readable := slotReady srSlot s || ((slot srSlot s).st == 3 && s.srm.sr1.seqEnd)
        ((readable = false ∨ s.cel.pstate ≠ .run) → exec (.srRead r) s = .next (answer r 0x0E01 0x0F [2] s))
        ∧ (readable = true → s.cel.pstate = .run → 4 ≤ openReads s → exec (.srRead r) s = .next (answer r 0x0E01 0x0F [1] s))
        ∧ (readable = true → s.cel.pstate = .run → openReads s < 4 → ∃ t, exec (.srRead r) s = .next t ∧ t.srm = s.srm
            ∧ (r.port = .h1 → (hlink .h1 s).items.length < (hlink .h1 t).items.length)))
  ∧ ((∀ s : State,
    (s.ldg.open_ = none → exec .ledgerBoundary s = .next s)
    ∧ (ttime s < s.ldg.due.toNat → exec .ledgerBoundary s = .next s)
    ∧ (∀ i, s.ldg.open_ = some i → s.ldg.due.toNat ≤ ttime s →
        (i.back = true → mono s - i.startMono.toNat < ldgSecs i.lenCode * 1024 → ∃ t, exec .ledgerBoundary s = .next t
          ∧ t.ldg.open_ = some i ∧ t.ldg.cntClosed = s.ldg.cntClosed ∧ onlyChanges [.ldg] s t)
        ∧ (i.back = false → s.srm.writerOn = false → 63 ≤ s.ldg.kept.length + s.ldg.closing.length → ∃ t, exec .ledgerBoundary s = .next t
          ∧ t.ldg.open_ = some { i with flags := i.flags ||| 0x0100 } ∧ t.ldg.kept = s.ldg.kept ∧ onlyChanges [.ldg] s t)
        ∧ (i.back = false → (s.srm.writerOn = true ∨ s.ldg.kept.length + s.ldg.closing.length < 63) → ∃ t n, exec .ledgerBoundary s = .next t
          ∧ t.ldg.open_ = some n ∧ n.startMono = BitVec.ofNat 64 (mono s) ∧ n.lenCode = s.ldg.len ∧ n.counts = []
          ∧ t.ldg.cntClosed = s.ldg.cntClosed + 1
          ∧ t.ldg.due = BitVec.ofNat 64 (nextBoundary s.ldg.len s.ldg.offsetS (ttime s)) ∧ hostSame s t
          ∧ (s.ldg.closing = [] → awaits (closedAs i 0 s) = true → t.ldg.closing = [closedAs i 0 s])
          ∧ (s.ldg.closing = [] → awaits (closedAs i 0 s) = false → t.ldg.closing = []
              ∧ (s.srm.writerOn = false → t.ldg.kept = s.ldg.kept ++ [closedAs i 0 s]))))
    ∧ (∀ d, s.ldg.copyDue = some d →
        (s.now < d → exec .intervalCopy s = .next s)
        ∧ (d ≤ s.now → exec .intervalCopy s = .next { s with
            ldg.copyDue := some (s.now + 1000000000), ldg.copy := if s.red.pair == .duplex then s.ldg.open_ else s.ldg.copy })))
  ∧ ∀ (ep : Endpoint) (v : Word) (s : State), ep.link = .h1 → inL0 ep s = true → epActive ep s = true → s.rrw.locked = false →
      let same := decide (fieldOf v 0 2 = s.ldg.len.toNat) && decide (fieldOf v 8 8 = s.ldg.offsetS.toNat)
      let early := s.ldg.open_ = none ∨ ttime s < s.ldg.due.toNat
      (same = true → early → exec (.ldgCfgWrite ep v) s = .next s)
      ∧ (same = false → ∃ t, exec (.ldgCfgWrite ep v) s = .next t ∧ t.ldg.len.toNat = fieldOf v 0 2
          ∧ t.ldg.offsetS.toNat = fieldOf v 8 8 ∧ hostSame s t
          ∧ (∀ i, s.ldg.open_ = some i → early → t.ldg.cntClosed = s.ldg.cntClosed + 1 ∧ ∃ n, t.ldg.open_ = some n
              ∧ n.startMono = BitVec.ofNat 64 (mono s))
          ∧ (s.ldg.open_ = none → t.ldg.open_ = none)))

/-- SP segments make a message within 100 ms, requests open a session, red_freeze is checked in order, a capture ends once
(R718, R719, R720, R721, R722, R725). Concludes `exec … = next …`, with the effect, for: spFrameReceived, spReassemblyTimeout,
spSessionClose, redFreeze, capsuleEnd. -/
def Obligations.ServicePortsAndTheReturnCapsule : Prop :=
  (∀ (c : Ct) (f : SpFrame) (s : State), (slot (ctSlot c) s).st ≠ 0 → spServes s = true →
    (spSegment c f = none → exec (.spFrameReceived c f) s = .next s)
    ∧ (∀ part, spSegment c f = some (false, 0, part) → ∃ t, exec (.spFrameReceived c f) s = .next t
        ∧ (spOf c t).parts = [part] ∧ (spOf c t).partsAt = some s.now ∧ (spOf c t).linkUp = true ∧ (spOf c t).lastFrame = s.now
        ∧ onlyChanges [.svc] s t ∧ hostSame s t)
    ∧ (∀ part, spSegment c f = some (true, 0, part) → let m := mgmtMsg part
        m.ok = true → spUnpaired c s = false → allowedAt m.opcode.toNat .maintainer = some true →
        reservedAction m.opcode m.body = false → (∀ a ∈ (spOf c s).answered, a.1 ≠ m.tag) → ∃ t, exec (.spFrameReceived c f) s = .next t
          ∧ (spOf c t).peer = some f.src ∧ (spOf c t).parts = [] ∧ (spOf c t).lastFrame = s.now
          ∧ (spOf c t).reqs = (spOf c s).reqs ++ [⟨m.opcode, m.tag, m.body⟩] ∧ hostSame s t))
  ∧ (∀ (c : Ct) (s : State),
      (∀ d, (spOf c s).partsAt = some d →
        (d + 100000000 ≤ s.now → ∃ t, exec (.spReassemblyTimeout c) s = .next t ∧ (spOf c t).parts = [] ∧ (spOf c t).partsAt = none
          ∧ onlyChanges [.svc] s t)
        ∧ (s.now < d + 100000000 → exec (.spReassemblyTimeout c) s = .next s))
      ∧ (∃ t, exec (.spSessionClose c true) s = .next t ∧ (spOf c t).peer = none ∧ (spOf c t).linkUp = false
          ∧ (spOf c t).events = (spOf c s).events ∧ onlyChanges [.svc] s t)
      ∧ (∀ k, (spOf c s).peer = some k →
          ((spOf c s).lastFrame + 10000000000 ≤ s.now → ∃ t, exec (.spSessionClose c false) s = .next t ∧ (spOf c t).peer = none
            ∧ (spOf c t).linkUp = (spOf c s).linkUp ∧ (spOf c t).events = (spOf c s).events ∧ onlyChanges [.svc] s t)
          ∧ (s.now < (spOf c s).lastFrame + 10000000000 → exec (.spSessionClose c false) s = .next s)))
  ∧ (∀ (r : Req) (b : Bool) (n0 n1 n2 n3 : Byte) (s : State), allowedAt 0x0C20 (authorityOf r.port s) = some true →
      r.body = [if b then 1 else 0, 0, 0, 0, n0, n1, n2, n3] →
      let go := slotReady srSlot s
      (s.svc.capsule.isSome = true → exec (.redFreeze r) s = .next (answer r 0x0C20 0x0F [1] s))
      ∧ (s.svc.capsule = none → go = false → exec (.redFreeze r) s = .next (answer r 0x0C20 0x0F [2] s))
      ∧ (s.svc.capsule = none → go = true → s.cel.pstate ≠ .run → exec (.redFreeze r) s = .next (answer r 0x0C20 0x0F [3] s))
      ∧ (∀ d, s.svc.capsule = none → go = true → s.cel.pstate = .run → s.svc.capsuleEnd = some d → s.now < d + 60000000000 →
          exec (.redFreeze r) s = .next (answer r 0x0C20 0x0F [4] s))
      ∧ (s.svc.capsule = none → go = true → s.cel.pstate = .run → (∀ d, s.svc.capsuleEnd = some d → d + 60000000000 ≤ s.now) →
          let k : CapsuleState := ⟨r.port, r.tag, b, BitVec.ofNat 32 (ofLE [n0, n1, n2, n3]), cycleStart s + cycleNs s⟩
          exec (.redFreeze r) s = .next { s with svc.capsule := some k }))
  ∧ ∀ (h1 h2 : List Host.Cell) (failed : List Nat) (s : State), let v := hostStores .h2 h2 (hostStores .h1 h1 s)
      (s.svc.capsule = none → exec (.capsuleEnd h1 h2 failed) s = .next v)
      ∧ ∀ k, s.svc.capsule = some k →
          (ttime s < k.startAt → exec (.capsuleEnd h1 h2 failed) s = .next v)
          ∧ (k.startAt ≤ ttime s → ∃ t, exec (.capsuleEnd h1 h2 failed) s = .next t ∧ t.svc.capsule = none
              ∧ t.svc.capsuleEnd = some s.now ∧ hostSame v t)
end

