-- ==== Sys2Proof/Laws/State.lean ====
section
/-! SUPPORT. What each update of the state leaves alone and what it sets: one lemma per field per update, so that no proof unfolds a
record update. -/
namespace Sys2Proof.Machine

variable (l : Link) (e : Endpoint) (n : PortNo) (c : Chan) (m : PwNo) (d : End) (q : CqNo) (k : Nat) (w : Slot) (t : Ct) (s : State)

section modLink
variable (g : HifLink → HifLink)
@[simp] theorem modLink_pending : (modLink l g s).pending = s.pending := by cases l <;> rfl
@[simp] theorem modLink_now : (modLink l g s).now = s.now := by cases l <;> rfl
@[simp] theorem modLink_quantum : (modLink l g s).quantum = s.quantum := by cases l <;> rfl
@[simp] theorem modLink_freeCtr : (modLink l g s).freeCtr = s.freeCtr := by cases l <;> rfl
@[simp] theorem modLink_sys : (modLink l g s).sys = s.sys := by cases l <;> rfl
@[simp] theorem modLink_rlv : (modLink l g s).rlv = s.rlv := by cases l <;> rfl
@[simp] theorem modLink_bbn : (modLink l g s).bbn = s.bbn := by cases l <;> rfl
@[simp] theorem modLink_lp : (modLink l g s).lp = s.lp := by cases l <;> rfl
@[simp] theorem modLink_tc : (modLink l g s).tc = s.tc := by cases l <;> rfl
@[simp] theorem modLink_restores : (modLink l g s).restores = s.restores := by cases l <;> rfl
@[simp] theorem modLink_plc : (modLink l g s).plc = s.plc := by cases l <;> rfl
@[simp] theorem modLink_vx : (modLink l g s).vx = s.vx := by cases l <;> rfl
@[simp] theorem modLink_arb : (modLink l g s).arb = s.arb := by cases l <;> rfl
@[simp] theorem modLink_rrw : (modLink l g s).rrw = s.rrw := by cases l <;> rfl
@[simp] theorem modLink_pwr : (modLink l g s).pwr = s.pwr := by cases l <;> rfl
@[simp] theorem modLink_cel : (modLink l g s).cel = s.cel := by cases l <;> rfl
@[simp] theorem modLink_bgt : (modLink l g s).bgt = s.bgt := by cases l <;> rfl
@[simp] theorem modLink_slp : (modLink l g s).slp = s.slp := by cases l <;> rfl
@[simp] theorem modLink_red : (modLink l g s).red = s.red := by cases l <;> rfl
@[simp] theorem modLink_sec : (modLink l g s).sec = s.sec := by cases l <;> rfl
@[simp] theorem modLink_ids : (modLink l g s).ids = s.ids := by cases l <;> rfl
@[simp] theorem modLink_srm : (modLink l g s).srm = s.srm := by cases l <;> rfl
@[simp] theorem modLink_ldg : (modLink l g s).ldg = s.ldg := by cases l <;> rfl
@[simp] theorem modLink_svc : (modLink l g s).svc = s.svc := by cases l <;> rfl
@[simp] theorem modLink_out : (modLink l g s).out = s.out := by cases l <;> rfl
@[simp] theorem modLink_hif_ctxs : (modLink l g s).hif.ctxs = s.hif.ctxs := by cases l <;> rfl
@[simp] theorem modLink_hif_cqs : (modLink l g s).hif.cqs = s.hif.cqs := by cases l <;> rfl
@[simp] theorem modLink_hif_h2Base : (modLink l g s).hif.h2Base = s.hif.h2Base := by cases l <;> rfl
@[simp] theorem modLink_hif_epH1A : (modLink l g s).hif.epH1A = s.hif.epH1A := by cases l <;> rfl
@[simp] theorem modLink_hif_epH2A : (modLink l g s).hif.epH2A = s.hif.epH2A := by cases l <;> rfl
@[simp] theorem modLink_hif_epH1B : (modLink l g s).hif.epH1B = s.hif.epH1B := by cases l <;> rfl
@[simp] theorem modLink_hif_epH2B : (modLink l g s).hif.epH2B = s.hif.epH2B := by cases l <;> rfl
end modLink

section modEndpoint
variable (g : EndpointState → EndpointState)
@[simp] theorem modEndpoint_pending : (modEndpoint e g s).pending = s.pending := by unfold modEndpoint; split <;> rfl
@[simp] theorem modEndpoint_now : (modEndpoint e g s).now = s.now := by unfold modEndpoint; split <;> rfl
@[simp] theorem modEndpoint_quantum : (modEndpoint e g s).quantum = s.quantum := by unfold modEndpoint; split <;> rfl
@[simp] theorem modEndpoint_freeCtr : (modEndpoint e g s).freeCtr = s.freeCtr := by unfold modEndpoint; split <;> rfl
@[simp] theorem modEndpoint_sys : (modEndpoint e g s).sys = s.sys := by unfold modEndpoint; split <;> rfl
@[simp] theorem modEndpoint_rlv : (modEndpoint e g s).rlv = s.rlv := by unfold modEndpoint; split <;> rfl
@[simp] theorem modEndpoint_bbn : (modEndpoint e g s).bbn = s.bbn := by unfold modEndpoint; split <;> rfl
@[simp] theorem modEndpoint_lp : (modEndpoint e g s).lp = s.lp := by unfold modEndpoint; split <;> rfl
@[simp] theorem modEndpoint_tc : (modEndpoint e g s).tc = s.tc := by unfold modEndpoint; split <;> rfl
@[simp] theorem modEndpoint_restores : (modEndpoint e g s).restores = s.restores := by unfold modEndpoint; split <;> rfl
@[simp] theorem modEndpoint_plc : (modEndpoint e g s).plc = s.plc := by unfold modEndpoint; split <;> rfl
@[simp] theorem modEndpoint_vx : (modEndpoint e g s).vx = s.vx := by unfold modEndpoint; split <;> rfl
@[simp] theorem modEndpoint_arb : (modEndpoint e g s).arb = s.arb := by unfold modEndpoint; split <;> rfl
@[simp] theorem modEndpoint_rrw : (modEndpoint e g s).rrw = s.rrw := by unfold modEndpoint; split <;> rfl
@[simp] theorem modEndpoint_pwr : (modEndpoint e g s).pwr = s.pwr := by unfold modEndpoint; split <;> rfl
@[simp] theorem modEndpoint_cel : (modEndpoint e g s).cel = s.cel := by unfold modEndpoint; split <;> rfl
@[simp] theorem modEndpoint_bgt : (modEndpoint e g s).bgt = s.bgt := by unfold modEndpoint; split <;> rfl
@[simp] theorem modEndpoint_slp : (modEndpoint e g s).slp = s.slp := by unfold modEndpoint; split <;> rfl
@[simp] theorem modEndpoint_red : (modEndpoint e g s).red = s.red := by unfold modEndpoint; split <;> rfl
@[simp] theorem modEndpoint_sec : (modEndpoint e g s).sec = s.sec := by unfold modEndpoint; split <;> rfl
@[simp] theorem modEndpoint_ids : (modEndpoint e g s).ids = s.ids := by unfold modEndpoint; split <;> rfl
@[simp] theorem modEndpoint_srm : (modEndpoint e g s).srm = s.srm := by unfold modEndpoint; split <;> rfl
@[simp] theorem modEndpoint_ldg : (modEndpoint e g s).ldg = s.ldg := by unfold modEndpoint; split <;> rfl
@[simp] theorem modEndpoint_svc : (modEndpoint e g s).svc = s.svc := by unfold modEndpoint; split <;> rfl
@[simp] theorem modEndpoint_out : (modEndpoint e g s).out = s.out := by unfold modEndpoint; split <;> rfl
@[simp] theorem modEndpoint_hif_h1 : (modEndpoint e g s).hif.h1 = s.hif.h1 := by unfold modEndpoint; split <;> rfl
@[simp] theorem modEndpoint_hif_h2 : (modEndpoint e g s).hif.h2 = s.hif.h2 := by unfold modEndpoint; split <;> rfl
@[simp] theorem modEndpoint_hif_ctxs : (modEndpoint e g s).hif.ctxs = s.hif.ctxs := by unfold modEndpoint; split <;> rfl
@[simp] theorem modEndpoint_hif_cqs : (modEndpoint e g s).hif.cqs = s.hif.cqs := by unfold modEndpoint; split <;> rfl
@[simp] theorem modEndpoint_hif_h2Base : (modEndpoint e g s).hif.h2Base = s.hif.h2Base := by unfold modEndpoint; split <;> rfl
end modEndpoint

section modPort
variable (g : LinePort → LinePort)
@[simp] theorem modPort_pending : (modPort n g s).pending = s.pending := rfl
@[simp] theorem modPort_now : (modPort n g s).now = s.now := rfl
@[simp] theorem modPort_quantum : (modPort n g s).quantum = s.quantum := rfl
@[simp] theorem modPort_freeCtr : (modPort n g s).freeCtr = s.freeCtr := rfl
@[simp] theorem modPort_sys : (modPort n g s).sys = s.sys := rfl
@[simp] theorem modPort_rlv : (modPort n g s).rlv = s.rlv := rfl
@[simp] theorem modPort_bbn : (modPort n g s).bbn = s.bbn := rfl
@[simp] theorem modPort_tc : (modPort n g s).tc = s.tc := rfl
@[simp] theorem modPort_restores : (modPort n g s).restores = s.restores := rfl
@[simp] theorem modPort_plc : (modPort n g s).plc = s.plc := rfl
@[simp] theorem modPort_vx : (modPort n g s).vx = s.vx := rfl
@[simp] theorem modPort_hif : (modPort n g s).hif = s.hif := rfl
@[simp] theorem modPort_arb : (modPort n g s).arb = s.arb := rfl
@[simp] theorem modPort_rrw : (modPort n g s).rrw = s.rrw := rfl
@[simp] theorem modPort_pwr : (modPort n g s).pwr = s.pwr := rfl
@[simp] theorem modPort_cel : (modPort n g s).cel = s.cel := rfl
@[simp] theorem modPort_bgt : (modPort n g s).bgt = s.bgt := rfl
@[simp] theorem modPort_slp : (modPort n g s).slp = s.slp := rfl
@[simp] theorem modPort_red : (modPort n g s).red = s.red := rfl
@[simp] theorem modPort_sec : (modPort n g s).sec = s.sec := rfl
@[simp] theorem modPort_ids : (modPort n g s).ids = s.ids := rfl
@[simp] theorem modPort_srm : (modPort n g s).srm = s.srm := rfl
@[simp] theorem modPort_ldg : (modPort n g s).ldg = s.ldg := rfl
@[simp] theorem modPort_svc : (modPort n g s).svc = s.svc := rfl
@[simp] theorem modPort_out : (modPort n g s).out = s.out := rfl
end modPort

section modPlc
variable (g : PlcChan → PlcChan)
@[simp] theorem modPlc_pending : (modPlc c g s).pending = s.pending := rfl
@[simp] theorem modPlc_now : (modPlc c g s).now = s.now := rfl
@[simp] theorem modPlc_quantum : (modPlc c g s).quantum = s.quantum := rfl
@[simp] theorem modPlc_freeCtr : (modPlc c g s).freeCtr = s.freeCtr := rfl
@[simp] theorem modPlc_sys : (modPlc c g s).sys = s.sys := rfl
@[simp] theorem modPlc_rlv : (modPlc c g s).rlv = s.rlv := rfl
@[simp] theorem modPlc_bbn : (modPlc c g s).bbn = s.bbn := rfl
@[simp] theorem modPlc_lp : (modPlc c g s).lp = s.lp := rfl
@[simp] theorem modPlc_tc : (modPlc c g s).tc = s.tc := rfl
@[simp] theorem modPlc_restores : (modPlc c g s).restores = s.restores := rfl
@[simp] theorem modPlc_vx : (modPlc c g s).vx = s.vx := rfl
@[simp] theorem modPlc_hif : (modPlc c g s).hif = s.hif := rfl
@[simp] theorem modPlc_arb : (modPlc c g s).arb = s.arb := rfl
@[simp] theorem modPlc_rrw : (modPlc c g s).rrw = s.rrw := rfl
@[simp] theorem modPlc_pwr : (modPlc c g s).pwr = s.pwr := rfl
@[simp] theorem modPlc_cel : (modPlc c g s).cel = s.cel := rfl
@[simp] theorem modPlc_bgt : (modPlc c g s).bgt = s.bgt := rfl
@[simp] theorem modPlc_slp : (modPlc c g s).slp = s.slp := rfl
@[simp] theorem modPlc_red : (modPlc c g s).red = s.red := rfl
@[simp] theorem modPlc_sec : (modPlc c g s).sec = s.sec := rfl
@[simp] theorem modPlc_ids : (modPlc c g s).ids = s.ids := rfl
@[simp] theorem modPlc_srm : (modPlc c g s).srm = s.srm := rfl
@[simp] theorem modPlc_ldg : (modPlc c g s).ldg = s.ldg := rfl
@[simp] theorem modPlc_svc : (modPlc c g s).svc = s.svc := rfl
@[simp] theorem modPlc_out : (modPlc c g s).out = s.out := rfl
end modPlc

section modCan
variable (g : CanChan → CanChan)
@[simp] theorem modCan_pending : (modCan c g s).pending = s.pending := by unfold modCan; split <;> rfl
@[simp] theorem modCan_now : (modCan c g s).now = s.now := by unfold modCan; split <;> rfl
@[simp] theorem modCan_quantum : (modCan c g s).quantum = s.quantum := by unfold modCan; split <;> rfl
@[simp] theorem modCan_freeCtr : (modCan c g s).freeCtr = s.freeCtr := by unfold modCan; split <;> rfl
@[simp] theorem modCan_sys : (modCan c g s).sys = s.sys := by unfold modCan; split <;> rfl
@[simp] theorem modCan_rlv : (modCan c g s).rlv = s.rlv := by unfold modCan; split <;> rfl
@[simp] theorem modCan_bbn : (modCan c g s).bbn = s.bbn := by unfold modCan; split <;> rfl
@[simp] theorem modCan_lp : (modCan c g s).lp = s.lp := by unfold modCan; split <;> rfl
@[simp] theorem modCan_tc : (modCan c g s).tc = s.tc := by unfold modCan; split <;> rfl
@[simp] theorem modCan_restores : (modCan c g s).restores = s.restores := by unfold modCan; split <;> rfl
@[simp] theorem modCan_plc : (modCan c g s).plc = s.plc := by unfold modCan; split <;> rfl
@[simp] theorem modCan_hif : (modCan c g s).hif = s.hif := by unfold modCan; split <;> rfl
@[simp] theorem modCan_arb : (modCan c g s).arb = s.arb := by unfold modCan; split <;> rfl
@[simp] theorem modCan_rrw : (modCan c g s).rrw = s.rrw := by unfold modCan; split <;> rfl
@[simp] theorem modCan_pwr : (modCan c g s).pwr = s.pwr := by unfold modCan; split <;> rfl
@[simp] theorem modCan_cel : (modCan c g s).cel = s.cel := by unfold modCan; split <;> rfl
@[simp] theorem modCan_bgt : (modCan c g s).bgt = s.bgt := by unfold modCan; split <;> rfl
@[simp] theorem modCan_slp : (modCan c g s).slp = s.slp := by unfold modCan; split <;> rfl
@[simp] theorem modCan_red : (modCan c g s).red = s.red := by unfold modCan; split <;> rfl
@[simp] theorem modCan_sec : (modCan c g s).sec = s.sec := by unfold modCan; split <;> rfl
@[simp] theorem modCan_ids : (modCan c g s).ids = s.ids := by unfold modCan; split <;> rfl
@[simp] theorem modCan_srm : (modCan c g s).srm = s.srm := by unfold modCan; split <;> rfl
@[simp] theorem modCan_ldg : (modCan c g s).ldg = s.ldg := by unfold modCan; split <;> rfl
@[simp] theorem modCan_svc : (modCan c g s).svc = s.svc := by unfold modCan; split <;> rfl
@[simp] theorem modCan_out : (modCan c g s).out = s.out := by unfold modCan; split <;> rfl
end modCan

section modPw
variable (g : PwUnit → PwUnit)
@[simp] theorem modPw_pending : (modPw m g s).pending = s.pending := by unfold modPw; split <;> rfl
@[simp] theorem modPw_now : (modPw m g s).now = s.now := by unfold modPw; split <;> rfl
@[simp] theorem modPw_quantum : (modPw m g s).quantum = s.quantum := by unfold modPw; split <;> rfl
@[simp] theorem modPw_freeCtr : (modPw m g s).freeCtr = s.freeCtr := by unfold modPw; split <;> rfl
@[simp] theorem modPw_sys : (modPw m g s).sys = s.sys := by unfold modPw; split <;> rfl
@[simp] theorem modPw_rlv : (modPw m g s).rlv = s.rlv := by unfold modPw; split <;> rfl
@[simp] theorem modPw_bbn : (modPw m g s).bbn = s.bbn := by unfold modPw; split <;> rfl
@[simp] theorem modPw_lp : (modPw m g s).lp = s.lp := by unfold modPw; split <;> rfl
@[simp] theorem modPw_tc : (modPw m g s).tc = s.tc := by unfold modPw; split <;> rfl
@[simp] theorem modPw_restores : (modPw m g s).restores = s.restores := by unfold modPw; split <;> rfl
@[simp] theorem modPw_plc : (modPw m g s).plc = s.plc := by unfold modPw; split <;> rfl
@[simp] theorem modPw_vx : (modPw m g s).vx = s.vx := by unfold modPw; split <;> rfl
@[simp] theorem modPw_hif : (modPw m g s).hif = s.hif := by unfold modPw; split <;> rfl
@[simp] theorem modPw_arb : (modPw m g s).arb = s.arb := by unfold modPw; split <;> rfl
@[simp] theorem modPw_rrw : (modPw m g s).rrw = s.rrw := by unfold modPw; split <;> rfl
@[simp] theorem modPw_cel : (modPw m g s).cel = s.cel := by unfold modPw; split <;> rfl
@[simp] theorem modPw_bgt : (modPw m g s).bgt = s.bgt := by unfold modPw; split <;> rfl
@[simp] theorem modPw_slp : (modPw m g s).slp = s.slp := by unfold modPw; split <;> rfl
@[simp] theorem modPw_red : (modPw m g s).red = s.red := by unfold modPw; split <;> rfl
@[simp] theorem modPw_sec : (modPw m g s).sec = s.sec := by unfold modPw; split <;> rfl
@[simp] theorem modPw_ids : (modPw m g s).ids = s.ids := by unfold modPw; split <;> rfl
@[simp] theorem modPw_srm : (modPw m g s).srm = s.srm := by unfold modPw; split <;> rfl
@[simp] theorem modPw_ldg : (modPw m g s).ldg = s.ldg := by unfold modPw; split <;> rfl
@[simp] theorem modPw_svc : (modPw m g s).svc = s.svc := by unfold modPw; split <;> rfl
@[simp] theorem modPw_out : (modPw m g s).out = s.out := by unfold modPw; split <;> rfl
end modPw

section modEnd
variable (g : EndState → EndState)
@[simp] theorem modEnd_pending : (modEnd d g s).pending = s.pending := by cases d <;> rfl
@[simp] theorem modEnd_now : (modEnd d g s).now = s.now := by cases d <;> rfl
@[simp] theorem modEnd_quantum : (modEnd d g s).quantum = s.quantum := by cases d <;> rfl
@[simp] theorem modEnd_freeCtr : (modEnd d g s).freeCtr = s.freeCtr := by cases d <;> rfl
@[simp] theorem modEnd_sys : (modEnd d g s).sys = s.sys := by cases d <;> rfl
@[simp] theorem modEnd_bbn : (modEnd d g s).bbn = s.bbn := by cases d <;> rfl
@[simp] theorem modEnd_lp : (modEnd d g s).lp = s.lp := by cases d <;> rfl
@[simp] theorem modEnd_tc : (modEnd d g s).tc = s.tc := by cases d <;> rfl
@[simp] theorem modEnd_restores : (modEnd d g s).restores = s.restores := by cases d <;> rfl
@[simp] theorem modEnd_plc : (modEnd d g s).plc = s.plc := by cases d <;> rfl
@[simp] theorem modEnd_vx : (modEnd d g s).vx = s.vx := by cases d <;> rfl
@[simp] theorem modEnd_hif : (modEnd d g s).hif = s.hif := by cases d <;> rfl
@[simp] theorem modEnd_arb : (modEnd d g s).arb = s.arb := by cases d <;> rfl
@[simp] theorem modEnd_rrw : (modEnd d g s).rrw = s.rrw := by cases d <;> rfl
@[simp] theorem modEnd_pwr : (modEnd d g s).pwr = s.pwr := by cases d <;> rfl
@[simp] theorem modEnd_cel : (modEnd d g s).cel = s.cel := by cases d <;> rfl
@[simp] theorem modEnd_bgt : (modEnd d g s).bgt = s.bgt := by cases d <;> rfl
@[simp] theorem modEnd_slp : (modEnd d g s).slp = s.slp := by cases d <;> rfl
@[simp] theorem modEnd_red : (modEnd d g s).red = s.red := by cases d <;> rfl
@[simp] theorem modEnd_sec : (modEnd d g s).sec = s.sec := by cases d <;> rfl
@[simp] theorem modEnd_ids : (modEnd d g s).ids = s.ids := by cases d <;> rfl
@[simp] theorem modEnd_srm : (modEnd d g s).srm = s.srm := by cases d <;> rfl
@[simp] theorem modEnd_ldg : (modEnd d g s).ldg = s.ldg := by cases d <;> rfl
@[simp] theorem modEnd_svc : (modEnd d g s).svc = s.svc := by cases d <;> rfl
@[simp] theorem modEnd_out : (modEnd d g s).out = s.out := by cases d <;> rfl
end modEnd

section modCq
variable (g : CqState → CqState)
@[simp] theorem modCq_pending : (modCq q g s).pending = s.pending := rfl
@[simp] theorem modCq_now : (modCq q g s).now = s.now := rfl
@[simp] theorem modCq_quantum : (modCq q g s).quantum = s.quantum := rfl
@[simp] theorem modCq_freeCtr : (modCq q g s).freeCtr = s.freeCtr := rfl
@[simp] theorem modCq_sys : (modCq q g s).sys = s.sys := rfl
@[simp] theorem modCq_rlv : (modCq q g s).rlv = s.rlv := rfl
@[simp] theorem modCq_bbn : (modCq q g s).bbn = s.bbn := rfl
@[simp] theorem modCq_lp : (modCq q g s).lp = s.lp := rfl
@[simp] theorem modCq_tc : (modCq q g s).tc = s.tc := rfl
@[simp] theorem modCq_restores : (modCq q g s).restores = s.restores := rfl
@[simp] theorem modCq_plc : (modCq q g s).plc = s.plc := rfl
@[simp] theorem modCq_vx : (modCq q g s).vx = s.vx := rfl
@[simp] theorem modCq_arb : (modCq q g s).arb = s.arb := rfl
@[simp] theorem modCq_rrw : (modCq q g s).rrw = s.rrw := rfl
@[simp] theorem modCq_pwr : (modCq q g s).pwr = s.pwr := rfl
@[simp] theorem modCq_cel : (modCq q g s).cel = s.cel := rfl
@[simp] theorem modCq_bgt : (modCq q g s).bgt = s.bgt := rfl
@[simp] theorem modCq_slp : (modCq q g s).slp = s.slp := rfl
@[simp] theorem modCq_red : (modCq q g s).red = s.red := rfl
@[simp] theorem modCq_sec : (modCq q g s).sec = s.sec := rfl
@[simp] theorem modCq_ids : (modCq q g s).ids = s.ids := rfl
@[simp] theorem modCq_srm : (modCq q g s).srm = s.srm := rfl
@[simp] theorem modCq_ldg : (modCq q g s).ldg = s.ldg := rfl
@[simp] theorem modCq_svc : (modCq q g s).svc = s.svc := rfl
@[simp] theorem modCq_out : (modCq q g s).out = s.out := rfl
@[simp] theorem modCq_hif_h1 : (modCq q g s).hif.h1 = s.hif.h1 := rfl
@[simp] theorem modCq_hif_h2 : (modCq q g s).hif.h2 = s.hif.h2 := rfl
@[simp] theorem modCq_hif_ctxs : (modCq q g s).hif.ctxs = s.hif.ctxs := rfl
@[simp] theorem modCq_hif_h2Base : (modCq q g s).hif.h2Base = s.hif.h2Base := rfl
@[simp] theorem modCq_hif_epH1A : (modCq q g s).hif.epH1A = s.hif.epH1A := rfl
@[simp] theorem modCq_hif_epH2A : (modCq q g s).hif.epH2A = s.hif.epH2A := rfl
@[simp] theorem modCq_hif_epH1B : (modCq q g s).hif.epH1B = s.hif.epH1B := rfl
@[simp] theorem modCq_hif_epH2B : (modCq q g s).hif.epH2B = s.hif.epH2B := rfl
end modCq

section modSlot
variable (g : SlotState → SlotState)
@[simp] theorem modSlot_pending : (modSlot w g s).pending = s.pending := rfl
@[simp] theorem modSlot_now : (modSlot w g s).now = s.now := rfl
@[simp] theorem modSlot_quantum : (modSlot w g s).quantum = s.quantum := rfl
@[simp] theorem modSlot_freeCtr : (modSlot w g s).freeCtr = s.freeCtr := rfl
@[simp] theorem modSlot_rlv : (modSlot w g s).rlv = s.rlv := rfl
@[simp] theorem modSlot_bbn : (modSlot w g s).bbn = s.bbn := rfl
@[simp] theorem modSlot_lp : (modSlot w g s).lp = s.lp := rfl
@[simp] theorem modSlot_tc : (modSlot w g s).tc = s.tc := rfl
@[simp] theorem modSlot_restores : (modSlot w g s).restores = s.restores := rfl
@[simp] theorem modSlot_plc : (modSlot w g s).plc = s.plc := rfl
@[simp] theorem modSlot_vx : (modSlot w g s).vx = s.vx := rfl
@[simp] theorem modSlot_hif : (modSlot w g s).hif = s.hif := rfl
@[simp] theorem modSlot_arb : (modSlot w g s).arb = s.arb := rfl
@[simp] theorem modSlot_rrw : (modSlot w g s).rrw = s.rrw := rfl
@[simp] theorem modSlot_pwr : (modSlot w g s).pwr = s.pwr := rfl
@[simp] theorem modSlot_cel : (modSlot w g s).cel = s.cel := rfl
@[simp] theorem modSlot_bgt : (modSlot w g s).bgt = s.bgt := rfl
@[simp] theorem modSlot_slp : (modSlot w g s).slp = s.slp := rfl
@[simp] theorem modSlot_red : (modSlot w g s).red = s.red := rfl
@[simp] theorem modSlot_sec : (modSlot w g s).sec = s.sec := rfl
@[simp] theorem modSlot_ids : (modSlot w g s).ids = s.ids := rfl
@[simp] theorem modSlot_srm : (modSlot w g s).srm = s.srm := rfl
@[simp] theorem modSlot_ldg : (modSlot w g s).ldg = s.ldg := rfl
@[simp] theorem modSlot_svc : (modSlot w g s).svc = s.svc := rfl
@[simp] theorem modSlot_out : (modSlot w g s).out = s.out := rfl
end modSlot

section modSp
variable (g : SpState → SpState)
@[simp] theorem modSp_pending : (modSp t g s).pending = s.pending := by cases t <;> rfl
@[simp] theorem modSp_now : (modSp t g s).now = s.now := by cases t <;> rfl
@[simp] theorem modSp_quantum : (modSp t g s).quantum = s.quantum := by cases t <;> rfl
@[simp] theorem modSp_freeCtr : (modSp t g s).freeCtr = s.freeCtr := by cases t <;> rfl
@[simp] theorem modSp_sys : (modSp t g s).sys = s.sys := by cases t <;> rfl
@[simp] theorem modSp_rlv : (modSp t g s).rlv = s.rlv := by cases t <;> rfl
@[simp] theorem modSp_bbn : (modSp t g s).bbn = s.bbn := by cases t <;> rfl
@[simp] theorem modSp_lp : (modSp t g s).lp = s.lp := by cases t <;> rfl
@[simp] theorem modSp_tc : (modSp t g s).tc = s.tc := by cases t <;> rfl
@[simp] theorem modSp_restores : (modSp t g s).restores = s.restores := by cases t <;> rfl
@[simp] theorem modSp_plc : (modSp t g s).plc = s.plc := by cases t <;> rfl
@[simp] theorem modSp_vx : (modSp t g s).vx = s.vx := by cases t <;> rfl
@[simp] theorem modSp_hif : (modSp t g s).hif = s.hif := by cases t <;> rfl
@[simp] theorem modSp_arb : (modSp t g s).arb = s.arb := by cases t <;> rfl
@[simp] theorem modSp_rrw : (modSp t g s).rrw = s.rrw := by cases t <;> rfl
@[simp] theorem modSp_pwr : (modSp t g s).pwr = s.pwr := by cases t <;> rfl
@[simp] theorem modSp_cel : (modSp t g s).cel = s.cel := by cases t <;> rfl
@[simp] theorem modSp_bgt : (modSp t g s).bgt = s.bgt := by cases t <;> rfl
@[simp] theorem modSp_slp : (modSp t g s).slp = s.slp := by cases t <;> rfl
@[simp] theorem modSp_red : (modSp t g s).red = s.red := by cases t <;> rfl
@[simp] theorem modSp_sec : (modSp t g s).sec = s.sec := by cases t <;> rfl
@[simp] theorem modSp_ids : (modSp t g s).ids = s.ids := by cases t <;> rfl
@[simp] theorem modSp_srm : (modSp t g s).srm = s.srm := by cases t <;> rfl
@[simp] theorem modSp_ldg : (modSp t g s).ldg = s.ldg := by cases t <;> rfl
@[simp] theorem modSp_out : (modSp t g s).out = s.out := by cases t <;> rfl
end modSp

section modCtx
variable (g : Ctx → Ctx)
@[simp] theorem modCtx_pending : (modCtx l k g s).pending = s.pending := by unfold modCtx; split <;> cases l <;> rfl
@[simp] theorem modCtx_now : (modCtx l k g s).now = s.now := by unfold modCtx; split <;> cases l <;> rfl
@[simp] theorem modCtx_quantum : (modCtx l k g s).quantum = s.quantum := by unfold modCtx; split <;> cases l <;> rfl
@[simp] theorem modCtx_freeCtr : (modCtx l k g s).freeCtr = s.freeCtr := by unfold modCtx; split <;> cases l <;> rfl
@[simp] theorem modCtx_sys : (modCtx l k g s).sys = s.sys := by unfold modCtx; split <;> cases l <;> rfl
@[simp] theorem modCtx_rlv : (modCtx l k g s).rlv = s.rlv := by unfold modCtx; split <;> cases l <;> rfl
@[simp] theorem modCtx_bbn : (modCtx l k g s).bbn = s.bbn := by unfold modCtx; split <;> cases l <;> rfl
@[simp] theorem modCtx_lp : (modCtx l k g s).lp = s.lp := by unfold modCtx; split <;> cases l <;> rfl
@[simp] theorem modCtx_tc : (modCtx l k g s).tc = s.tc := by unfold modCtx; split <;> cases l <;> rfl
@[simp] theorem modCtx_restores : (modCtx l k g s).restores = s.restores := by unfold modCtx; split <;> cases l <;> rfl
@[simp] theorem modCtx_plc : (modCtx l k g s).plc = s.plc := by unfold modCtx; split <;> cases l <;> rfl
@[simp] theorem modCtx_vx : (modCtx l k g s).vx = s.vx := by unfold modCtx; split <;> cases l <;> rfl
@[simp] theorem modCtx_arb : (modCtx l k g s).arb = s.arb := by unfold modCtx; split <;> cases l <;> rfl
@[simp] theorem modCtx_rrw : (modCtx l k g s).rrw = s.rrw := by unfold modCtx; split <;> cases l <;> rfl
@[simp] theorem modCtx_pwr : (modCtx l k g s).pwr = s.pwr := by unfold modCtx; split <;> cases l <;> rfl
@[simp] theorem modCtx_cel : (modCtx l k g s).cel = s.cel := by unfold modCtx; split <;> cases l <;> rfl
@[simp] theorem modCtx_bgt : (modCtx l k g s).bgt = s.bgt := by unfold modCtx; split <;> cases l <;> rfl
@[simp] theorem modCtx_slp : (modCtx l k g s).slp = s.slp := by unfold modCtx; split <;> cases l <;> rfl
@[simp] theorem modCtx_red : (modCtx l k g s).red = s.red := by unfold modCtx; split <;> cases l <;> rfl
@[simp] theorem modCtx_sec : (modCtx l k g s).sec = s.sec := by unfold modCtx; split <;> cases l <;> rfl
@[simp] theorem modCtx_ids : (modCtx l k g s).ids = s.ids := by unfold modCtx; split <;> cases l <;> rfl
@[simp] theorem modCtx_srm : (modCtx l k g s).srm = s.srm := by unfold modCtx; split <;> cases l <;> rfl
@[simp] theorem modCtx_ldg : (modCtx l k g s).ldg = s.ldg := by unfold modCtx; split <;> cases l <;> rfl
@[simp] theorem modCtx_svc : (modCtx l k g s).svc = s.svc := by unfold modCtx; split <;> cases l <;> rfl
@[simp] theorem modCtx_out : (modCtx l k g s).out = s.out := by unfold modCtx; split <;> cases l <;> rfl
@[simp] theorem modCtx_hif_cqs : (modCtx l k g s).hif.cqs = s.hif.cqs := by unfold modCtx; split <;> cases l <;> rfl
@[simp] theorem modCtx_hif_h2Base : (modCtx l k g s).hif.h2Base = s.hif.h2Base := by unfold modCtx; split <;> cases l <;> rfl
@[simp] theorem modCtx_hif_epH1A : (modCtx l k g s).hif.epH1A = s.hif.epH1A := by unfold modCtx; split <;> cases l <;> rfl
@[simp] theorem modCtx_hif_epH2A : (modCtx l k g s).hif.epH2A = s.hif.epH2A := by unfold modCtx; split <;> cases l <;> rfl
@[simp] theorem modCtx_hif_epH1B : (modCtx l k g s).hif.epH1B = s.hif.epH1B := by unfold modCtx; split <;> cases l <;> rfl
@[simp] theorem modCtx_hif_epH2B : (modCtx l k g s).hif.epH2B = s.hif.epH2B := by unfold modCtx; split <;> cases l <;> rfl
@[simp] theorem modCtx_hmem (x : Link) : (hlink x (modCtx l k g s)).hmem = (hlink x s).hmem := by
  unfold modCtx; split <;> cases l <;> cases x <;> rfl
end modCtx

section emit
variable (x : Emission)
@[simp] theorem emit_pending : (emit x s).pending = s.pending := rfl
@[simp] theorem emit_now : (emit x s).now = s.now := rfl
@[simp] theorem emit_quantum : (emit x s).quantum = s.quantum := rfl
@[simp] theorem emit_freeCtr : (emit x s).freeCtr = s.freeCtr := rfl
@[simp] theorem emit_sys : (emit x s).sys = s.sys := rfl
@[simp] theorem emit_rlv : (emit x s).rlv = s.rlv := rfl
@[simp] theorem emit_bbn : (emit x s).bbn = s.bbn := rfl
@[simp] theorem emit_lp : (emit x s).lp = s.lp := rfl
@[simp] theorem emit_tc : (emit x s).tc = s.tc := rfl
@[simp] theorem emit_restores : (emit x s).restores = s.restores := rfl
@[simp] theorem emit_plc : (emit x s).plc = s.plc := rfl
@[simp] theorem emit_vx : (emit x s).vx = s.vx := rfl
@[simp] theorem emit_hif : (emit x s).hif = s.hif := rfl
@[simp] theorem emit_arb : (emit x s).arb = s.arb := rfl
@[simp] theorem emit_rrw : (emit x s).rrw = s.rrw := rfl
@[simp] theorem emit_pwr : (emit x s).pwr = s.pwr := rfl
@[simp] theorem emit_cel : (emit x s).cel = s.cel := rfl
@[simp] theorem emit_bgt : (emit x s).bgt = s.bgt := rfl
@[simp] theorem emit_slp : (emit x s).slp = s.slp := rfl
@[simp] theorem emit_red : (emit x s).red = s.red := rfl
@[simp] theorem emit_sec : (emit x s).sec = s.sec := rfl
@[simp] theorem emit_ids : (emit x s).ids = s.ids := rfl
@[simp] theorem emit_srm : (emit x s).srm = s.srm := rfl
@[simp] theorem emit_ldg : (emit x s).ldg = s.ldg := rfl
@[simp] theorem emit_svc : (emit x s).svc = s.svc := rfl
@[simp] theorem emit_out : (emit x s).out = s.out ++ [x] := rfl
end emit

section drawFree
@[simp] theorem drawFree_pending : (drawFree s).2.pending = s.pending := rfl
@[simp] theorem drawFree_now : (drawFree s).2.now = s.now := rfl
@[simp] theorem drawFree_quantum : (drawFree s).2.quantum = s.quantum := rfl
@[simp] theorem drawFree_sys : (drawFree s).2.sys = s.sys := rfl
@[simp] theorem drawFree_rlv : (drawFree s).2.rlv = s.rlv := rfl
@[simp] theorem drawFree_bbn : (drawFree s).2.bbn = s.bbn := rfl
@[simp] theorem drawFree_lp : (drawFree s).2.lp = s.lp := rfl
@[simp] theorem drawFree_tc : (drawFree s).2.tc = s.tc := rfl
@[simp] theorem drawFree_restores : (drawFree s).2.restores = s.restores := rfl
@[simp] theorem drawFree_plc : (drawFree s).2.plc = s.plc := rfl
@[simp] theorem drawFree_vx : (drawFree s).2.vx = s.vx := rfl
@[simp] theorem drawFree_hif : (drawFree s).2.hif = s.hif := rfl
@[simp] theorem drawFree_arb : (drawFree s).2.arb = s.arb := rfl
@[simp] theorem drawFree_rrw : (drawFree s).2.rrw = s.rrw := rfl
@[simp] theorem drawFree_pwr : (drawFree s).2.pwr = s.pwr := rfl
@[simp] theorem drawFree_cel : (drawFree s).2.cel = s.cel := rfl
@[simp] theorem drawFree_bgt : (drawFree s).2.bgt = s.bgt := rfl
@[simp] theorem drawFree_slp : (drawFree s).2.slp = s.slp := rfl
@[simp] theorem drawFree_red : (drawFree s).2.red = s.red := rfl
@[simp] theorem drawFree_sec : (drawFree s).2.sec = s.sec := rfl
@[simp] theorem drawFree_ids : (drawFree s).2.ids = s.ids := rfl
@[simp] theorem drawFree_srm : (drawFree s).2.srm = s.srm := rfl
@[simp] theorem drawFree_ldg : (drawFree s).2.ldg = s.ldg := rfl
@[simp] theorem drawFree_svc : (drawFree s).2.svc = s.svc := rfl
@[simp] theorem drawFree_out : (drawFree s).2.out = s.out := rfl
end drawFree

/-! ### What an update sets -/

@[simp] theorem hlink_modLink (g : HifLink → HifLink) : hlink l (modLink l g s) = g (hlink l s) := by cases l <;> rfl
theorem hlink_modLink_ne (x : Link) (g : HifLink → HifLink) (h : x ≠ l) : hlink x (modLink l g s) = hlink x s := by
  cases l <;> cases x <;> first | rfl | exact absurd rfl h
@[simp] theorem endpoint_modEndpoint (g : EndpointState → EndpointState) :
    endpoint e (modEndpoint e g s) = g (endpoint e s) := by
  obtain ⟨l, t⟩ := e
  cases l <;> cases t <;> rfl
theorem endpoint_modEndpoint_ne (x : Endpoint) (g : EndpointState → EndpointState) (h : x ≠ e) :
    endpoint x (modEndpoint e g s) = endpoint x s := by
  obtain ⟨l, t⟩ := e
  obtain ⟨l', t'⟩ := x
  cases l <;> cases t <;> cases l' <;> cases t' <;> first | rfl | exact absurd rfl h
@[simp] theorem port_modPort (g : LinePort → LinePort) : port n (modPort n g s) = g (port n s) := by
  simp [port, modPort]
theorem port_modPort_ne (x : PortNo) (g : LinePort → LinePort) (h : x ≠ n) : port x (modPort n g s) = port x s := by
  have : (n : Nat) ≠ x := fun e => h (Fin.ext e.symm)
  simp [port, modPort, Vector.getElem_set_ne, this]
@[simp] theorem plc_modPlc (g : PlcChan → PlcChan) : plc c (modPlc c g s) = g (plc c s) := by
  simp [plc, modPlc]
theorem plc_modPlc_ne (x : Chan) (g : PlcChan → PlcChan) (h : x ≠ c) : plc x (modPlc c g s) = plc x s := by
  have : (c : Nat) ≠ x := fun e => h (Fin.ext e.symm)
  simp [plc, modPlc, Vector.getElem_set_ne, this]
@[simp] theorem can_modCan (g : CanChan → CanChan) : can c (modCan c g s) = g (can c s) := by
  unfold can modCan; split <;> rfl
theorem bit_unique {x y : Fin 2} (hx : ¬x = 0) (hy : ¬y = 0) : x = y := by
  revert x y; decide
@[simp] theorem pw_modPw (g : PwUnit → PwUnit) : pw m (modPw m g s) = g (pw m s) := by
  unfold pw modPw; split <;> rfl
theorem pw_modPw_ne (x : PwNo) (g : PwUnit → PwUnit) (h : x ≠ m) : pw x (modPw m g s) = pw x s := by
  unfold pw modPw
  by_cases hm : m = 0 <;> by_cases hx : x = 0 <;> simp [hm, hx]
  · exact absurd (hx.trans hm.symm) h
  · exact absurd (bit_unique ‹_› ‹_›) h
theorem can_modCan_ne (x : Chan) (g : CanChan → CanChan) (h : x ≠ c) : can x (modCan c g s) = can x s := by
  unfold can modCan
  by_cases hc : c = 0 <;> by_cases hx : x = 0 <;> simp [hc, hx]
  · exact absurd (hx.trans hc.symm) h
  · exact absurd (bit_unique ‹_› ‹_›) h
@[simp] theorem endOf_modEnd (g : EndState → EndState) : endOf d (modEnd d g s) = g (endOf d s) := by cases d <;> rfl
theorem endOf_modEnd_ne (x : End) (g : EndState → EndState) (h : x ≠ d) : endOf x (modEnd d g s) = endOf x s := by
  cases d <;> cases x <;> first | rfl | exact absurd rfl h
@[simp] theorem cq_modCq (g : CqState → CqState) : cq q (modCq q g s) = g (cq q s) := by
  simp [cq, modCq]
theorem cq_modCq_ne (x : CqNo) (g : CqState → CqState) (h : x ≠ q) : cq x (modCq q g s) = cq x s := by
  have : (q : Nat) ≠ x := fun e => h (Fin.ext e.symm)
  simp [cq, modCq, Vector.getElem_set_ne, this]
@[simp] theorem slot_modSlot (g : SlotState → SlotState) : slot w (modSlot w g s) = g (slot w s) := by
  simp [slot, modSlot]
theorem slot_modSlot_ne (x : Slot) (g : SlotState → SlotState) (h : x ≠ w) : slot x (modSlot w g s) = slot x s := by
  have : (w : Nat) ≠ x := fun e => h (Fin.ext e.symm)
  simp [slot, modSlot, Vector.getElem_set_ne, this]
@[simp] theorem spOf_modSp (g : SpState → SpState) : spOf t (modSp t g s) = g (spOf t s) := by cases t <;> rfl

end Sys2Proof.Machine
end

