-- ==== Sys2Proof/Laws/Memory.lean ====
section
/-! SUPPORT. Laws of the memories: a byte written reads back and every other byte reads as before; every memory operation keeps the
canonical form. -/
namespace Sys2Proof.Machine

variable {d : Byte}

/-- An address lies above the bound a canonical list may start from. -/
def aboveBound (lo : Option Nat) (a : Nat) : Prop := ∀ l, lo = some l → l < a

theorem memWfFrom_cons {lo : Option Nat} {i : Nat} {v : Byte} {rest : List Host.Cell} :
    memWfFrom d lo ((i, v) :: rest) = true ↔ aboveBound lo i ∧ v ≠ d ∧ memWfFrom d (some i) rest = true := by
  cases lo <;> simp [memWfFrom, aboveBound, and_assoc]

/-- A canonical list may start lower. -/
theorem memWfFrom_lower {m : List Host.Cell} {i : Nat} {lo : Option Nat} (h : memWfFrom d (some i) m = true)
    (hi : aboveBound lo i) : memWfFrom d lo m = true := by
  cases m with
  | nil => simp [memWfFrom]
  | cons x rest =>
    obtain ⟨j, v⟩ := x
    rw [memWfFrom_cons] at h ⊢
    exact ⟨fun l hl => Nat.lt_trans (hi l hl) (h.1 i rfl), h.2⟩

/-- Nothing is listed at or below the bound. -/
theorem memGet_below {m : List Host.Cell} {i a : Nat} (h : memWfFrom d (some i) m = true) (ha : a ≤ i) :
    memGet d m a = d := by
  induction m generalizing i with
  | nil => rfl
  | cons x rest ih =>
    obtain ⟨j, v⟩ := x
    rw [memWfFrom_cons] at h
    have hj : i < j := h.1 i rfl
    rw [memGet, if_neg (by omega)]
    exact ih h.2.2 (by omega)

/-- A write keeps the canonical form. -/
theorem memPut_wfFrom {m : List Host.Cell} {lo : Option Nat} {a : Nat} (v : Byte) (h : memWfFrom d lo m = true)
    (ha : aboveBound lo a) : memWfFrom d lo (memPut d m a v) = true := by
  induction m generalizing lo with
  | nil =>
    by_cases hv : v = d
    · simp [memPut, hv, memWfFrom]
    · rw [memPut, if_neg hv, memWfFrom_cons]; exact ⟨ha, hv, rfl⟩
  | cons x rest ih =>
    obtain ⟨i, x⟩ := x
    have h' := memWfFrom_cons.mp h
    rw [memPut]
    split
    · rename_i hlt
      split
      · exact h
      · rename_i hv
        rw [memWfFrom_cons]
        exact ⟨ha, hv, memWfFrom_cons.mpr ⟨fun l hl => by cases hl; exact hlt, h'.2⟩⟩
    · split
      · rename_i hge heq
        split
        · exact memWfFrom_lower h'.2.2 h'.1
        · rename_i hv
          rw [memWfFrom_cons]
          exact ⟨ha, hv, heq ▸ h'.2.2⟩
      · rename_i hge hne
        rw [memWfFrom_cons]
        exact ⟨h'.1, h'.2.1, ih h'.2.2 fun l hl => by cases hl; omega⟩

/-- What a byte reads as after a write. -/
theorem memGet_memPut_from {m : List Host.Cell} {lo : Option Nat} {a : Nat} (v : Byte) (b : Nat)
    (h : memWfFrom d lo m = true) : memGet d (memPut d m a v) b = if b = a then v else memGet d m b := by
  induction m generalizing lo with
  | nil =>
    by_cases hv : v = d
    · simp [memPut, hv, memGet]
    · simp only [memPut, hv, if_false, memGet]
      by_cases hb : b = a
      · simp [hb]
      · rw [if_neg (fun e => hb e.symm), if_neg hb]
  | cons x rest ih =>
    obtain ⟨i, x⟩ := x
    have h' := memWfFrom_cons.mp h
    rw [memPut]
    split
    · rename_i hlt
      by_cases hb : b = a
      · subst hb
        split
        · rename_i hv
          rw [if_pos rfl, memGet, if_neg (by omega), hv]
          exact memGet_below h'.2.2 (by omega)
        · simp [memGet]
      · rw [if_neg hb]
        split
        · rfl
        · have hab : ¬a = b := fun e => hb e.symm
          simp [memGet, hab]
    · split
      · rename_i hge heq
        subst heq
        by_cases hb : b = a
        · subst hb
          split
          · rename_i hv
            rw [if_pos rfl, hv]
            exact memGet_below h'.2.2 (Nat.le_refl _)
          · simp [memGet]
        · rw [if_neg hb]
          have : ¬a = b := fun e => hb e.symm
          split <;> simp [memGet, this]
      · rename_i hge hne
        rw [memGet, ih h'.2.2]
        by_cases hib : i = b
        · have : ¬b = a := fun e => hne (by omega)
          simp [hib, this, memGet]
        · simp [memGet, hib]

theorem memPut_wf {m : List Host.Cell} (a : Nat) (v : Byte) (h : memWf d m = true) : memWf d (memPut d m a v) = true :=
  memPut_wfFrom v h fun _ hl => by cases hl

theorem memGet_memPut {m : List Host.Cell} (a : Nat) (v : Byte) (b : Nat) (h : memWf d m = true) :
    memGet d (memPut d m a v) b = if b = a then v else memGet d m b := memGet_memPut_from v b h

/-- Stores in a row keep the canonical form. -/
theorem memStore_wf {m : List Host.Cell} (a : Nat) (bs : List Byte) (h : memWf d m = true) :
    memWf d (memStore d m a bs) = true := by
  induction bs generalizing m a with
  | nil => exact h
  | cons b bs ih => exact ih (a + 1) (memPut_wf a b h)

/-- What a byte reads as after stores in a row: the byte stored there, else as before. -/
theorem memGet_memStore {m : List Host.Cell} (a : Nat) (bs : List Byte) (b : Nat) (h : memWf d m = true) :
    memGet d (memStore d m a bs) b = if a ≤ b then bs.getD (b - a) (memGet d m b) else memGet d m b := by
  induction bs generalizing m a with
  | nil => simp [memStore]
  | cons x bs ih =>
    rw [memStore, ih (a + 1) (memPut_wf a x h), memGet_memPut a x b h]
    by_cases h1 : a + 1 ≤ b
    · obtain ⟨k, rfl⟩ : ∃ k, b = a + 1 + k := ⟨b - (a + 1), by omega⟩
      have e1 : a + 1 + k - (a + 1) = k := by omega
      have e2 : a + 1 + k - a = k + 1 := by omega
      have e3 : ¬a + 1 + k = a := by omega
      have e4 : a ≤ a + 1 + k := by omega
      simp [e1, e2, e3, e4]
    · by_cases h2 : b = a
      · subst h2
        have e5 : ¬b + 1 ≤ b := by omega
        simp only [e5, if_false, Nat.le_refl, if_true, Nat.sub_self, List.getD_cons_zero]
      · have : ¬a ≤ b := by omega
        simp [h1, h2, this]

/-- A host's stores keep the canonical form. -/
theorem memMerge_wf {m : List Host.Cell} (st : List Host.Cell) (h : memWf d m = true) : memWf d (memMerge d m st) = true := by
  induction st generalizing m with
  | nil => exact h
  | cons x rest ih => obtain ⟨a, v⟩ := x; exact ih (memPut_wf a v h)

/-- A host's stores leave every address they do not name. -/
theorem memGet_memMerge {m : List Host.Cell} (st : List Host.Cell) (b : Nat) (h : memWf d m = true)
    (hb : ∀ x ∈ st, x.1 ≠ b) : memGet d (memMerge d m st) b = memGet d m b := by
  induction st generalizing m with
  | nil => rfl
  | cons x rest ih =>
    obtain ⟨a, v⟩ := x
    rw [memMerge, ih (memPut_wf a v h) fun y hy => hb y (List.mem_cons_of_mem _ hy), memGet_memPut a v b h, if_neg]
    exact fun e => hb (a, v) (List.mem_cons_self ..) e.symm

/-- A write through a link keeps that link's memory canonical. -/
theorem writeHost_wf (l : Link) (addr : Dword) (bs : List Byte) (s : State) (h : memWf hostFill (hlink l s).hmem = true) :
    memWf hostFill (hlink l (writeHost l addr bs s)).hmem = true := by
  rw [writeHost, hlink_modLink]; exact memStore_wf _ _ h

/-- A host's stores keep its memory canonical. -/
theorem hostStores_wf (l : Link) (st : List Host.Cell) (s : State) (h : memWf hostFill (hlink l s).hmem = true) :
    memWf hostFill (hlink l (hostStores l st s)).hmem = true := by
  rw [hostStores, hlink_modLink]; exact memMerge_wf _ h

/-- A write through a link, read back one byte at a time (R393, R407): the byte written, else as before. -/
theorem writeHost_get (l : Link) (addr : Dword) (bs : List Byte) (s : State) (b : Nat)
    (h : memWf hostFill (hlink l s).hmem = true) :
    memGet hostFill (hlink l (writeHost l addr bs s)).hmem b
      = if addr.toNat ≤ b then bs.getD (b - addr.toNat) (memGet hostFill (hlink l s).hmem b)
        else memGet hostFill (hlink l s).hmem b := by
  rw [writeHost, hlink_modLink]; exact memGet_memStore _ _ _ h

/-- The memory behind the other link is untouched. -/
theorem writeHost_other (l x : Link) (addr : Dword) (bs : List Byte) (s : State) (h : x ≠ l) :
    hlink x (writeHost l addr bs s) = hlink x s := hlink_modLink_ne l s x _ h

end Sys2Proof.Machine
end

