-- ==== Sys2Proof/Laws/Ops.lean ====
section
/-! SUPPORT. What raising an event can do and what it leaves alone (R422): items on CQP 0 of each link, a record, items for or frames on a
service port; nothing else. -/
namespace Sys2Proof.Machine

variable (l : Link) (t : Ct) (rank kind : Nat) (code : Half) (data msg : List Byte) (dst : Key) (it : MgmtItem) (r : PendRec)
  (df : Bool) (s : State)

theorem foldl_emit (ps : List (List Byte)) (s : State) :
    ps.foldl (fun u p => emit (.sp t dst p) u) s = { s with out := s.out ++ ps.map fun p => .sp t dst p } := by
  induction ps generalizing s with
  | nil => simp
  | cons p ps ih => rw [List.foldl_cons, ih]; simp [emit]

/-- A message on a service port leaves as one frame a segment (Table 20.2) and changes nothing else. -/
theorem spSend_eq : spSend t dst kind msg s = { s with out := s.out ++ (spSegments kind 4 0 msg).map fun p => .sp t dst p } := by
  rw [spSend, foldl_emit]

@[simp] theorem offerLink_pending : (offerLink l it s).pending = s.pending := by simp [offerLink]
@[simp] theorem offerLink_now : (offerLink l it s).now = s.now := by simp [offerLink]
@[simp] theorem offerLink_quantum : (offerLink l it s).quantum = s.quantum := by simp [offerLink]
@[simp] theorem offerLink_freeCtr : (offerLink l it s).freeCtr = s.freeCtr := by simp [offerLink]
@[simp] theorem offerLink_sys : (offerLink l it s).sys = s.sys := by simp [offerLink]
@[simp] theorem offerLink_rlv : (offerLink l it s).rlv = s.rlv := by simp [offerLink]
@[simp] theorem offerLink_bbn : (offerLink l it s).bbn = s.bbn := by simp [offerLink]
@[simp] theorem offerLink_lp : (offerLink l it s).lp = s.lp := by simp [offerLink]
@[simp] theorem offerLink_tc : (offerLink l it s).tc = s.tc := by simp [offerLink]
@[simp] theorem offerLink_restores : (offerLink l it s).restores = s.restores := by simp [offerLink]
@[simp] theorem offerLink_plc : (offerLink l it s).plc = s.plc := by simp [offerLink]
@[simp] theorem offerLink_vx : (offerLink l it s).vx = s.vx := by simp [offerLink]
@[simp] theorem offerLink_arb : (offerLink l it s).arb = s.arb := by simp [offerLink]
@[simp] theorem offerLink_rrw : (offerLink l it s).rrw = s.rrw := by simp [offerLink]
@[simp] theorem offerLink_pwr : (offerLink l it s).pwr = s.pwr := by simp [offerLink]
@[simp] theorem offerLink_cel : (offerLink l it s).cel = s.cel := by simp [offerLink]
@[simp] theorem offerLink_bgt : (offerLink l it s).bgt = s.bgt := by simp [offerLink]
@[simp] theorem offerLink_slp : (offerLink l it s).slp = s.slp := by simp [offerLink]
@[simp] theorem offerLink_red : (offerLink l it s).red = s.red := by simp [offerLink]
@[simp] theorem offerLink_sec : (offerLink l it s).sec = s.sec := by simp [offerLink]
@[simp] theorem offerLink_ids : (offerLink l it s).ids = s.ids := by simp [offerLink]
@[simp] theorem offerLink_srm : (offerLink l it s).srm = s.srm := by simp [offerLink]
@[simp] theorem offerLink_ldg : (offerLink l it s).ldg = s.ldg := by simp [offerLink]
@[simp] theorem offerLink_svc : (offerLink l it s).svc = s.svc := by simp [offerLink]
@[simp] theorem offerLink_out : (offerLink l it s).out = s.out := by simp [offerLink]
@[simp] theorem offerLink_hif_ctxs : (offerLink l it s).hif.ctxs = s.hif.ctxs := by simp [offerLink]
@[simp] theorem offerLink_hif_cqs : (offerLink l it s).hif.cqs = s.hif.cqs := by simp [offerLink]
@[simp] theorem offerLink_hif_h2Base : (offerLink l it s).hif.h2Base = s.hif.h2Base := by simp [offerLink]
@[simp] theorem offerLink_hif_epH1A : (offerLink l it s).hif.epH1A = s.hif.epH1A := by simp [offerLink]
@[simp] theorem offerLink_hif_epH2A : (offerLink l it s).hif.epH2A = s.hif.epH2A := by simp [offerLink]
@[simp] theorem offerLink_hif_epH1B : (offerLink l it s).hif.epH1B = s.hif.epH1B := by simp [offerLink]
@[simp] theorem offerLink_hif_epH2B : (offerLink l it s).hif.epH2B = s.hif.epH2B := by simp [offerLink]
@[simp] theorem offerLink_mgmtEn (x : Link) : (hlink x (offerLink l it s)).mgmtEn = (hlink x s).mgmtEn := by cases l <;> cases x <;> rfl
@[simp] theorem offerLink_db (x : Link) : (hlink x (offerLink l it s)).db = (hlink x s).db := by cases l <;> cases x <;> rfl
@[simp] theorem offerLink_shadow (x : Link) : (hlink x (offerLink l it s)).shadow = (hlink x s).shadow := by cases l <;> cases x <;> rfl
@[simp] theorem offerLink_ctx0 (x : Link) : (hlink x (offerLink l it s)).ctx0 = (hlink x s).ctx0 := by cases l <;> cases x <;> rfl
@[simp] theorem offerLink_hmem (x : Link) : (hlink x (offerLink l it s)).hmem = (hlink x s).hmem := by cases l <;> cases x <;> rfl
@[simp] theorem offerLink_reqs (x : Link) : (hlink x (offerLink l it s)).reqs = (hlink x s).reqs := by cases l <;> cases x <;> rfl
@[simp] theorem offerLink_scanNoted (x : Link) : (hlink x (offerLink l it s)).scanNoted = (hlink x s).scanNoted := by cases l <;> cases x <;> rfl
@[simp] theorem offerLink_readFailAt (x : Link) : (hlink x (offerLink l it s)).readFailAt = (hlink x s).readFailAt := by cases l <;> cases x <;> rfl
@[simp] theorem offerLink_wakeLatch (x : Link) : (hlink x (offerLink l it s)).wakeLatch = (hlink x s).wakeLatch := by cases l <;> cases x <;> rfl
@[simp] theorem offerLink_wakeDue (x : Link) : (hlink x (offerLink l it s)).wakeDue = (hlink x s).wakeDue := by cases l <;> cases x <;> rfl

@[simp] theorem spSend_pending : (spSend t dst kind msg s).pending = s.pending := by rw [spSend_eq]
@[simp] theorem spSend_now : (spSend t dst kind msg s).now = s.now := by rw [spSend_eq]
@[simp] theorem spSend_quantum : (spSend t dst kind msg s).quantum = s.quantum := by rw [spSend_eq]
@[simp] theorem spSend_freeCtr : (spSend t dst kind msg s).freeCtr = s.freeCtr := by rw [spSend_eq]
@[simp] theorem spSend_sys : (spSend t dst kind msg s).sys = s.sys := by rw [spSend_eq]
@[simp] theorem spSend_rlv : (spSend t dst kind msg s).rlv = s.rlv := by rw [spSend_eq]
@[simp] theorem spSend_bbn : (spSend t dst kind msg s).bbn = s.bbn := by rw [spSend_eq]
@[simp] theorem spSend_lp : (spSend t dst kind msg s).lp = s.lp := by rw [spSend_eq]
@[simp] theorem spSend_tc : (spSend t dst kind msg s).tc = s.tc := by rw [spSend_eq]
@[simp] theorem spSend_restores : (spSend t dst kind msg s).restores = s.restores := by rw [spSend_eq]
@[simp] theorem spSend_plc : (spSend t dst kind msg s).plc = s.plc := by rw [spSend_eq]
@[simp] theorem spSend_vx : (spSend t dst kind msg s).vx = s.vx := by rw [spSend_eq]
@[simp] theorem spSend_hif : (spSend t dst kind msg s).hif = s.hif := by rw [spSend_eq]
@[simp] theorem spSend_arb : (spSend t dst kind msg s).arb = s.arb := by rw [spSend_eq]
@[simp] theorem spSend_rrw : (spSend t dst kind msg s).rrw = s.rrw := by rw [spSend_eq]
@[simp] theorem spSend_pwr : (spSend t dst kind msg s).pwr = s.pwr := by rw [spSend_eq]
@[simp] theorem spSend_cel : (spSend t dst kind msg s).cel = s.cel := by rw [spSend_eq]
@[simp] theorem spSend_bgt : (spSend t dst kind msg s).bgt = s.bgt := by rw [spSend_eq]
@[simp] theorem spSend_slp : (spSend t dst kind msg s).slp = s.slp := by rw [spSend_eq]
@[simp] theorem spSend_red : (spSend t dst kind msg s).red = s.red := by rw [spSend_eq]
@[simp] theorem spSend_sec : (spSend t dst kind msg s).sec = s.sec := by rw [spSend_eq]
@[simp] theorem spSend_ids : (spSend t dst kind msg s).ids = s.ids := by rw [spSend_eq]
@[simp] theorem spSend_srm : (spSend t dst kind msg s).srm = s.srm := by rw [spSend_eq]
@[simp] theorem spSend_ldg : (spSend t dst kind msg s).ldg = s.ldg := by rw [spSend_eq]
@[simp] theorem spSend_svc : (spSend t dst kind msg s).svc = s.svc := by rw [spSend_eq]

@[simp] theorem offerSp_pending : (offerSp t it s).pending = s.pending := by unfold offerSp; split <;> simp
@[simp] theorem offerSp_now : (offerSp t it s).now = s.now := by unfold offerSp; split <;> simp
@[simp] theorem offerSp_quantum : (offerSp t it s).quantum = s.quantum := by unfold offerSp; split <;> simp
@[simp] theorem offerSp_freeCtr : (offerSp t it s).freeCtr = s.freeCtr := by unfold offerSp; split <;> simp
@[simp] theorem offerSp_sys : (offerSp t it s).sys = s.sys := by unfold offerSp; split <;> simp
@[simp] theorem offerSp_rlv : (offerSp t it s).rlv = s.rlv := by unfold offerSp; split <;> simp
@[simp] theorem offerSp_bbn : (offerSp t it s).bbn = s.bbn := by unfold offerSp; split <;> simp
@[simp] theorem offerSp_lp : (offerSp t it s).lp = s.lp := by unfold offerSp; split <;> simp
@[simp] theorem offerSp_tc : (offerSp t it s).tc = s.tc := by unfold offerSp; split <;> simp
@[simp] theorem offerSp_restores : (offerSp t it s).restores = s.restores := by unfold offerSp; split <;> simp
@[simp] theorem offerSp_plc : (offerSp t it s).plc = s.plc := by unfold offerSp; split <;> simp
@[simp] theorem offerSp_vx : (offerSp t it s).vx = s.vx := by unfold offerSp; split <;> simp
@[simp] theorem offerSp_hif : (offerSp t it s).hif = s.hif := by unfold offerSp; split <;> simp
@[simp] theorem offerSp_arb : (offerSp t it s).arb = s.arb := by unfold offerSp; split <;> simp
@[simp] theorem offerSp_rrw : (offerSp t it s).rrw = s.rrw := by unfold offerSp; split <;> simp
@[simp] theorem offerSp_pwr : (offerSp t it s).pwr = s.pwr := by unfold offerSp; split <;> simp
@[simp] theorem offerSp_cel : (offerSp t it s).cel = s.cel := by unfold offerSp; split <;> simp
@[simp] theorem offerSp_bgt : (offerSp t it s).bgt = s.bgt := by unfold offerSp; split <;> simp
@[simp] theorem offerSp_slp : (offerSp t it s).slp = s.slp := by unfold offerSp; split <;> simp
@[simp] theorem offerSp_red : (offerSp t it s).red = s.red := by unfold offerSp; split <;> simp
@[simp] theorem offerSp_sec : (offerSp t it s).sec = s.sec := by unfold offerSp; split <;> simp
@[simp] theorem offerSp_ids : (offerSp t it s).ids = s.ids := by unfold offerSp; split <;> simp
@[simp] theorem offerSp_srm : (offerSp t it s).srm = s.srm := by unfold offerSp; split <;> simp
@[simp] theorem offerSp_ldg : (offerSp t it s).ldg = s.ldg := by unfold offerSp; split <;> simp

@[simp] theorem offerSp_hlink (x : Link) : hlink x (offerSp t it s) = hlink x s := by cases x <;> simp [hlink]
@[simp] theorem deliverRank_pending : (deliverRank rank code data s).pending = s.pending := by simp [deliverRank]
@[simp] theorem deliverRank_now : (deliverRank rank code data s).now = s.now := by simp [deliverRank]
@[simp] theorem deliverRank_quantum : (deliverRank rank code data s).quantum = s.quantum := by simp [deliverRank]
@[simp] theorem deliverRank_freeCtr : (deliverRank rank code data s).freeCtr = s.freeCtr := by simp [deliverRank]
@[simp] theorem deliverRank_sys : (deliverRank rank code data s).sys = s.sys := by simp [deliverRank]
@[simp] theorem deliverRank_rlv : (deliverRank rank code data s).rlv = s.rlv := by simp [deliverRank]
@[simp] theorem deliverRank_bbn : (deliverRank rank code data s).bbn = s.bbn := by simp [deliverRank]
@[simp] theorem deliverRank_lp : (deliverRank rank code data s).lp = s.lp := by simp [deliverRank]
@[simp] theorem deliverRank_tc : (deliverRank rank code data s).tc = s.tc := by simp [deliverRank]
@[simp] theorem deliverRank_restores : (deliverRank rank code data s).restores = s.restores := by simp [deliverRank]
@[simp] theorem deliverRank_plc : (deliverRank rank code data s).plc = s.plc := by simp [deliverRank]
@[simp] theorem deliverRank_vx : (deliverRank rank code data s).vx = s.vx := by simp [deliverRank]
@[simp] theorem deliverRank_arb : (deliverRank rank code data s).arb = s.arb := by simp [deliverRank]
@[simp] theorem deliverRank_rrw : (deliverRank rank code data s).rrw = s.rrw := by simp [deliverRank]
@[simp] theorem deliverRank_pwr : (deliverRank rank code data s).pwr = s.pwr := by simp [deliverRank]
@[simp] theorem deliverRank_cel : (deliverRank rank code data s).cel = s.cel := by simp [deliverRank]
@[simp] theorem deliverRank_bgt : (deliverRank rank code data s).bgt = s.bgt := by simp [deliverRank]
@[simp] theorem deliverRank_slp : (deliverRank rank code data s).slp = s.slp := by simp [deliverRank]
@[simp] theorem deliverRank_red : (deliverRank rank code data s).red = s.red := by simp [deliverRank]
@[simp] theorem deliverRank_sec : (deliverRank rank code data s).sec = s.sec := by simp [deliverRank]
@[simp] theorem deliverRank_ids : (deliverRank rank code data s).ids = s.ids := by simp [deliverRank]
@[simp] theorem deliverRank_srm : (deliverRank rank code data s).srm = s.srm := by simp [deliverRank]
@[simp] theorem deliverRank_ldg : (deliverRank rank code data s).ldg = s.ldg := by simp [deliverRank]
@[simp] theorem deliverRank_hif_ctxs : (deliverRank rank code data s).hif.ctxs = s.hif.ctxs := by simp [deliverRank]
@[simp] theorem deliverRank_hif_cqs : (deliverRank rank code data s).hif.cqs = s.hif.cqs := by simp [deliverRank]
@[simp] theorem deliverRank_hif_h2Base : (deliverRank rank code data s).hif.h2Base = s.hif.h2Base := by simp [deliverRank]
@[simp] theorem deliverRank_hif_epH1A : (deliverRank rank code data s).hif.epH1A = s.hif.epH1A := by simp [deliverRank]
@[simp] theorem deliverRank_hif_epH2A : (deliverRank rank code data s).hif.epH2A = s.hif.epH2A := by simp [deliverRank]
@[simp] theorem deliverRank_hif_epH1B : (deliverRank rank code data s).hif.epH1B = s.hif.epH1B := by simp [deliverRank]
@[simp] theorem deliverRank_hif_epH2B : (deliverRank rank code data s).hif.epH2B = s.hif.epH2B := by simp [deliverRank]
@[simp] theorem deliverRank_mgmtEn (x : Link) : (hlink x (deliverRank rank code data s)).mgmtEn = (hlink x s).mgmtEn := by simp [deliverRank]
@[simp] theorem deliverRank_db (x : Link) : (hlink x (deliverRank rank code data s)).db = (hlink x s).db := by simp [deliverRank]
@[simp] theorem deliverRank_shadow (x : Link) : (hlink x (deliverRank rank code data s)).shadow = (hlink x s).shadow := by simp [deliverRank]
@[simp] theorem deliverRank_ctx0 (x : Link) : (hlink x (deliverRank rank code data s)).ctx0 = (hlink x s).ctx0 := by simp [deliverRank]
@[simp] theorem deliverRank_hmem (x : Link) : (hlink x (deliverRank rank code data s)).hmem = (hlink x s).hmem := by simp [deliverRank]
@[simp] theorem deliverRank_reqs (x : Link) : (hlink x (deliverRank rank code data s)).reqs = (hlink x s).reqs := by simp [deliverRank]
@[simp] theorem deliverRank_scanNoted (x : Link) : (hlink x (deliverRank rank code data s)).scanNoted = (hlink x s).scanNoted := by simp [deliverRank]
@[simp] theorem deliverRank_readFailAt (x : Link) : (hlink x (deliverRank rank code data s)).readFailAt = (hlink x s).readFailAt := by simp [deliverRank]
@[simp] theorem deliverRank_wakeLatch (x : Link) : (hlink x (deliverRank rank code data s)).wakeLatch = (hlink x s).wakeLatch := by simp [deliverRank]
@[simp] theorem deliverRank_wakeDue (x : Link) : (hlink x (deliverRank rank code data s)).wakeDue = (hlink x s).wakeDue := by simp [deliverRank]

@[simp] theorem pendPush_pending : (pendPush r s).pending = s.pending := by unfold pendPush; split <;> first | rfl | (simp only []; split <;> rfl)
@[simp] theorem pendPush_now : (pendPush r s).now = s.now := by unfold pendPush; split <;> first | rfl | (simp only []; split <;> rfl)
@[simp] theorem pendPush_quantum : (pendPush r s).quantum = s.quantum := by unfold pendPush; split <;> first | rfl | (simp only []; split <;> rfl)
@[simp] theorem pendPush_freeCtr : (pendPush r s).freeCtr = s.freeCtr := by unfold pendPush; split <;> first | rfl | (simp only []; split <;> rfl)
@[simp] theorem pendPush_sys : (pendPush r s).sys = s.sys := by unfold pendPush; split <;> first | rfl | (simp only []; split <;> rfl)
@[simp] theorem pendPush_rlv : (pendPush r s).rlv = s.rlv := by unfold pendPush; split <;> first | rfl | (simp only []; split <;> rfl)
@[simp] theorem pendPush_bbn : (pendPush r s).bbn = s.bbn := by unfold pendPush; split <;> first | rfl | (simp only []; split <;> rfl)
@[simp] theorem pendPush_lp : (pendPush r s).lp = s.lp := by unfold pendPush; split <;> first | rfl | (simp only []; split <;> rfl)
@[simp] theorem pendPush_tc : (pendPush r s).tc = s.tc := by unfold pendPush; split <;> first | rfl | (simp only []; split <;> rfl)
@[simp] theorem pendPush_restores : (pendPush r s).restores = s.restores := by unfold pendPush; split <;> first | rfl | (simp only []; split <;> rfl)
@[simp] theorem pendPush_plc : (pendPush r s).plc = s.plc := by unfold pendPush; split <;> first | rfl | (simp only []; split <;> rfl)
@[simp] theorem pendPush_vx : (pendPush r s).vx = s.vx := by unfold pendPush; split <;> first | rfl | (simp only []; split <;> rfl)
@[simp] theorem pendPush_hif : (pendPush r s).hif = s.hif := by unfold pendPush; split <;> first | rfl | (simp only []; split <;> rfl)
@[simp] theorem pendPush_arb : (pendPush r s).arb = s.arb := by unfold pendPush; split <;> first | rfl | (simp only []; split <;> rfl)
@[simp] theorem pendPush_rrw : (pendPush r s).rrw = s.rrw := by unfold pendPush; split <;> first | rfl | (simp only []; split <;> rfl)
@[simp] theorem pendPush_pwr : (pendPush r s).pwr = s.pwr := by unfold pendPush; split <;> first | rfl | (simp only []; split <;> rfl)
@[simp] theorem pendPush_cel : (pendPush r s).cel = s.cel := by unfold pendPush; split <;> first | rfl | (simp only []; split <;> rfl)
@[simp] theorem pendPush_bgt : (pendPush r s).bgt = s.bgt := by unfold pendPush; split <;> first | rfl | (simp only []; split <;> rfl)
@[simp] theorem pendPush_slp : (pendPush r s).slp = s.slp := by unfold pendPush; split <;> first | rfl | (simp only []; split <;> rfl)
@[simp] theorem pendPush_red : (pendPush r s).red = s.red := by unfold pendPush; split <;> first | rfl | (simp only []; split <;> rfl)
@[simp] theorem pendPush_sec : (pendPush r s).sec = s.sec := by unfold pendPush; split <;> first | rfl | (simp only []; split <;> rfl)
@[simp] theorem pendPush_ids : (pendPush r s).ids = s.ids := by unfold pendPush; split <;> first | rfl | (simp only []; split <;> rfl)
@[simp] theorem pendPush_ldg : (pendPush r s).ldg = s.ldg := by unfold pendPush; split <;> first | rfl | (simp only []; split <;> rfl)
@[simp] theorem pendPush_svc : (pendPush r s).svc = s.svc := by unfold pendPush; split <;> first | rfl | (simp only []; split <;> rfl)
@[simp] theorem pendPush_out : (pendPush r s).out = s.out := by unfold pendPush; split <;> first | rfl | (simp only []; split <;> rfl)

@[simp] theorem writeRecord_pending : (writeRecord df code data s).pending = s.pending := by unfold writeRecord; simp only []; split <;> (try split) <;> simp
@[simp] theorem writeRecord_now : (writeRecord df code data s).now = s.now := by unfold writeRecord; simp only []; split <;> (try split) <;> simp
@[simp] theorem writeRecord_quantum : (writeRecord df code data s).quantum = s.quantum := by unfold writeRecord; simp only []; split <;> (try split) <;> simp
@[simp] theorem writeRecord_freeCtr : (writeRecord df code data s).freeCtr = s.freeCtr := by unfold writeRecord; simp only []; split <;> (try split) <;> simp
@[simp] theorem writeRecord_sys : (writeRecord df code data s).sys = s.sys := by unfold writeRecord; simp only []; split <;> (try split) <;> simp
@[simp] theorem writeRecord_rlv : (writeRecord df code data s).rlv = s.rlv := by unfold writeRecord; simp only []; split <;> (try split) <;> simp
@[simp] theorem writeRecord_bbn : (writeRecord df code data s).bbn = s.bbn := by unfold writeRecord; simp only []; split <;> (try split) <;> simp
@[simp] theorem writeRecord_lp : (writeRecord df code data s).lp = s.lp := by unfold writeRecord; simp only []; split <;> (try split) <;> simp
@[simp] theorem writeRecord_tc : (writeRecord df code data s).tc = s.tc := by unfold writeRecord; simp only []; split <;> (try split) <;> simp
@[simp] theorem writeRecord_restores : (writeRecord df code data s).restores = s.restores := by unfold writeRecord; simp only []; split <;> (try split) <;> simp
@[simp] theorem writeRecord_plc : (writeRecord df code data s).plc = s.plc := by unfold writeRecord; simp only []; split <;> (try split) <;> simp
@[simp] theorem writeRecord_vx : (writeRecord df code data s).vx = s.vx := by unfold writeRecord; simp only []; split <;> (try split) <;> simp
@[simp] theorem writeRecord_hif : (writeRecord df code data s).hif = s.hif := by unfold writeRecord; simp only []; split <;> (try split) <;> simp
@[simp] theorem writeRecord_arb : (writeRecord df code data s).arb = s.arb := by unfold writeRecord; simp only []; split <;> (try split) <;> simp
@[simp] theorem writeRecord_rrw : (writeRecord df code data s).rrw = s.rrw := by unfold writeRecord; simp only []; split <;> (try split) <;> simp
@[simp] theorem writeRecord_pwr : (writeRecord df code data s).pwr = s.pwr := by unfold writeRecord; simp only []; split <;> (try split) <;> simp
@[simp] theorem writeRecord_cel : (writeRecord df code data s).cel = s.cel := by unfold writeRecord; simp only []; split <;> (try split) <;> simp
@[simp] theorem writeRecord_bgt : (writeRecord df code data s).bgt = s.bgt := by unfold writeRecord; simp only []; split <;> (try split) <;> simp
@[simp] theorem writeRecord_slp : (writeRecord df code data s).slp = s.slp := by unfold writeRecord; simp only []; split <;> (try split) <;> simp
@[simp] theorem writeRecord_red : (writeRecord df code data s).red = s.red := by unfold writeRecord; simp only []; split <;> (try split) <;> simp
@[simp] theorem writeRecord_sec : (writeRecord df code data s).sec = s.sec := by unfold writeRecord; simp only []; split <;> (try split) <;> simp
@[simp] theorem writeRecord_ids : (writeRecord df code data s).ids = s.ids := by unfold writeRecord; simp only []; split <;> (try split) <;> simp
@[simp] theorem writeRecord_ldg : (writeRecord df code data s).ldg = s.ldg := by unfold writeRecord; simp only []; split <;> (try split) <;> simp
@[simp] theorem writeRecord_svc : (writeRecord df code data s).svc = s.svc := by unfold writeRecord; simp only []; split <;> (try split) <;> simp
@[simp] theorem writeRecord_out : (writeRecord df code data s).out = s.out := by unfold writeRecord; simp only []; split <;> (try split) <;> simp

@[simp] theorem record_pending : (record code data s).pending = s.pending := by unfold record; split <;> simp
@[simp] theorem record_now : (record code data s).now = s.now := by unfold record; split <;> simp
@[simp] theorem record_quantum : (record code data s).quantum = s.quantum := by unfold record; split <;> simp
@[simp] theorem record_freeCtr : (record code data s).freeCtr = s.freeCtr := by unfold record; split <;> simp
@[simp] theorem record_sys : (record code data s).sys = s.sys := by unfold record; split <;> simp
@[simp] theorem record_rlv : (record code data s).rlv = s.rlv := by unfold record; split <;> simp
@[simp] theorem record_bbn : (record code data s).bbn = s.bbn := by unfold record; split <;> simp
@[simp] theorem record_lp : (record code data s).lp = s.lp := by unfold record; split <;> simp
@[simp] theorem record_tc : (record code data s).tc = s.tc := by unfold record; split <;> simp
@[simp] theorem record_restores : (record code data s).restores = s.restores := by unfold record; split <;> simp
@[simp] theorem record_plc : (record code data s).plc = s.plc := by unfold record; split <;> simp
@[simp] theorem record_vx : (record code data s).vx = s.vx := by unfold record; split <;> simp
@[simp] theorem record_hif : (record code data s).hif = s.hif := by unfold record; split <;> simp
@[simp] theorem record_arb : (record code data s).arb = s.arb := by unfold record; split <;> simp
@[simp] theorem record_rrw : (record code data s).rrw = s.rrw := by unfold record; split <;> simp
@[simp] theorem record_pwr : (record code data s).pwr = s.pwr := by unfold record; split <;> simp
@[simp] theorem record_cel : (record code data s).cel = s.cel := by unfold record; split <;> simp
@[simp] theorem record_bgt : (record code data s).bgt = s.bgt := by unfold record; split <;> simp
@[simp] theorem record_slp : (record code data s).slp = s.slp := by unfold record; split <;> simp
@[simp] theorem record_red : (record code data s).red = s.red := by unfold record; split <;> simp
@[simp] theorem record_sec : (record code data s).sec = s.sec := by unfold record; split <;> simp
@[simp] theorem record_ids : (record code data s).ids = s.ids := by unfold record; split <;> simp
@[simp] theorem record_ldg : (record code data s).ldg = s.ldg := by unfold record; split <;> simp
@[simp] theorem record_svc : (record code data s).svc = s.svc := by unfold record; split <;> simp
@[simp] theorem record_out : (record code data s).out = s.out := by unfold record; split <;> simp

@[simp] theorem record_hlink (x : Link) : hlink x (record code data s) = hlink x s := by cases x <;> simp [hlink]
@[simp] theorem raiseRank_pending : (raiseRank rank code data s).pending = s.pending := by unfold raiseRank; split <;> simp
@[simp] theorem raiseRank_now : (raiseRank rank code data s).now = s.now := by unfold raiseRank; split <;> simp
@[simp] theorem raiseRank_quantum : (raiseRank rank code data s).quantum = s.quantum := by unfold raiseRank; split <;> simp
@[simp] theorem raiseRank_freeCtr : (raiseRank rank code data s).freeCtr = s.freeCtr := by unfold raiseRank; split <;> simp
@[simp] theorem raiseRank_sys : (raiseRank rank code data s).sys = s.sys := by unfold raiseRank; split <;> simp
@[simp] theorem raiseRank_rlv : (raiseRank rank code data s).rlv = s.rlv := by unfold raiseRank; split <;> simp
@[simp] theorem raiseRank_bbn : (raiseRank rank code data s).bbn = s.bbn := by unfold raiseRank; split <;> simp
@[simp] theorem raiseRank_lp : (raiseRank rank code data s).lp = s.lp := by unfold raiseRank; split <;> simp
@[simp] theorem raiseRank_tc : (raiseRank rank code data s).tc = s.tc := by unfold raiseRank; split <;> simp
@[simp] theorem raiseRank_restores : (raiseRank rank code data s).restores = s.restores := by unfold raiseRank; split <;> simp
@[simp] theorem raiseRank_plc : (raiseRank rank code data s).plc = s.plc := by unfold raiseRank; split <;> simp
@[simp] theorem raiseRank_vx : (raiseRank rank code data s).vx = s.vx := by unfold raiseRank; split <;> simp
@[simp] theorem raiseRank_arb : (raiseRank rank code data s).arb = s.arb := by unfold raiseRank; split <;> simp
@[simp] theorem raiseRank_rrw : (raiseRank rank code data s).rrw = s.rrw := by unfold raiseRank; split <;> simp
@[simp] theorem raiseRank_pwr : (raiseRank rank code data s).pwr = s.pwr := by unfold raiseRank; split <;> simp
@[simp] theorem raiseRank_cel : (raiseRank rank code data s).cel = s.cel := by unfold raiseRank; split <;> simp
@[simp] theorem raiseRank_bgt : (raiseRank rank code data s).bgt = s.bgt := by unfold raiseRank; split <;> simp
@[simp] theorem raiseRank_slp : (raiseRank rank code data s).slp = s.slp := by unfold raiseRank; split <;> simp
@[simp] theorem raiseRank_red : (raiseRank rank code data s).red = s.red := by unfold raiseRank; split <;> simp
@[simp] theorem raiseRank_sec : (raiseRank rank code data s).sec = s.sec := by unfold raiseRank; split <;> simp
@[simp] theorem raiseRank_ids : (raiseRank rank code data s).ids = s.ids := by unfold raiseRank; split <;> simp
@[simp] theorem raiseRank_ldg : (raiseRank rank code data s).ldg = s.ldg := by unfold raiseRank; split <;> simp
@[simp] theorem raiseRank_hif_ctxs : (raiseRank rank code data s).hif.ctxs = s.hif.ctxs := by unfold raiseRank; split <;> simp
@[simp] theorem raiseRank_hif_cqs : (raiseRank rank code data s).hif.cqs = s.hif.cqs := by unfold raiseRank; split <;> simp
@[simp] theorem raiseRank_hif_h2Base : (raiseRank rank code data s).hif.h2Base = s.hif.h2Base := by unfold raiseRank; split <;> simp
@[simp] theorem raiseRank_hif_epH1A : (raiseRank rank code data s).hif.epH1A = s.hif.epH1A := by unfold raiseRank; split <;> simp
@[simp] theorem raiseRank_hif_epH2A : (raiseRank rank code data s).hif.epH2A = s.hif.epH2A := by unfold raiseRank; split <;> simp
@[simp] theorem raiseRank_hif_epH1B : (raiseRank rank code data s).hif.epH1B = s.hif.epH1B := by unfold raiseRank; split <;> simp
@[simp] theorem raiseRank_hif_epH2B : (raiseRank rank code data s).hif.epH2B = s.hif.epH2B := by unfold raiseRank; split <;> simp
@[simp] theorem raiseRank_mgmtEn (x : Link) : (hlink x (raiseRank rank code data s)).mgmtEn = (hlink x s).mgmtEn := by unfold raiseRank; split <;> simp
@[simp] theorem raiseRank_db (x : Link) : (hlink x (raiseRank rank code data s)).db = (hlink x s).db := by unfold raiseRank; split <;> simp
@[simp] theorem raiseRank_shadow (x : Link) : (hlink x (raiseRank rank code data s)).shadow = (hlink x s).shadow := by unfold raiseRank; split <;> simp
@[simp] theorem raiseRank_ctx0 (x : Link) : (hlink x (raiseRank rank code data s)).ctx0 = (hlink x s).ctx0 := by unfold raiseRank; split <;> simp
@[simp] theorem raiseRank_hmem (x : Link) : (hlink x (raiseRank rank code data s)).hmem = (hlink x s).hmem := by unfold raiseRank; split <;> simp
@[simp] theorem raiseRank_reqs (x : Link) : (hlink x (raiseRank rank code data s)).reqs = (hlink x s).reqs := by unfold raiseRank; split <;> simp
@[simp] theorem raiseRank_scanNoted (x : Link) : (hlink x (raiseRank rank code data s)).scanNoted = (hlink x s).scanNoted := by unfold raiseRank; split <;> simp
@[simp] theorem raiseRank_readFailAt (x : Link) : (hlink x (raiseRank rank code data s)).readFailAt = (hlink x s).readFailAt := by unfold raiseRank; split <;> simp
@[simp] theorem raiseRank_wakeLatch (x : Link) : (hlink x (raiseRank rank code data s)).wakeLatch = (hlink x s).wakeLatch := by unfold raiseRank; split <;> simp
@[simp] theorem raiseRank_wakeDue (x : Link) : (hlink x (raiseRank rank code data s)).wakeDue = (hlink x s).wakeDue := by unfold raiseRank; split <;> simp

@[simp] theorem raise_pending : (raise code data s).pending = s.pending := by simp [raise]
@[simp] theorem raise_now : (raise code data s).now = s.now := by simp [raise]
@[simp] theorem raise_quantum : (raise code data s).quantum = s.quantum := by simp [raise]
@[simp] theorem raise_freeCtr : (raise code data s).freeCtr = s.freeCtr := by simp [raise]
@[simp] theorem raise_sys : (raise code data s).sys = s.sys := by simp [raise]
@[simp] theorem raise_rlv : (raise code data s).rlv = s.rlv := by simp [raise]
@[simp] theorem raise_bbn : (raise code data s).bbn = s.bbn := by simp [raise]
@[simp] theorem raise_lp : (raise code data s).lp = s.lp := by simp [raise]
@[simp] theorem raise_tc : (raise code data s).tc = s.tc := by simp [raise]
@[simp] theorem raise_restores : (raise code data s).restores = s.restores := by simp [raise]
@[simp] theorem raise_plc : (raise code data s).plc = s.plc := by simp [raise]
@[simp] theorem raise_vx : (raise code data s).vx = s.vx := by simp [raise]
@[simp] theorem raise_arb : (raise code data s).arb = s.arb := by simp [raise]
@[simp] theorem raise_rrw : (raise code data s).rrw = s.rrw := by simp [raise]
@[simp] theorem raise_pwr : (raise code data s).pwr = s.pwr := by simp [raise]
@[simp] theorem raise_cel : (raise code data s).cel = s.cel := by simp [raise]
@[simp] theorem raise_bgt : (raise code data s).bgt = s.bgt := by simp [raise]
@[simp] theorem raise_slp : (raise code data s).slp = s.slp := by simp [raise]
@[simp] theorem raise_red : (raise code data s).red = s.red := by simp [raise]
@[simp] theorem raise_sec : (raise code data s).sec = s.sec := by simp [raise]
@[simp] theorem raise_ids : (raise code data s).ids = s.ids := by simp [raise]
@[simp] theorem raise_ldg : (raise code data s).ldg = s.ldg := by simp [raise]
@[simp] theorem raise_hif_ctxs : (raise code data s).hif.ctxs = s.hif.ctxs := by simp [raise]
@[simp] theorem raise_hif_cqs : (raise code data s).hif.cqs = s.hif.cqs := by simp [raise]
@[simp] theorem raise_hif_h2Base : (raise code data s).hif.h2Base = s.hif.h2Base := by simp [raise]
@[simp] theorem raise_hif_epH1A : (raise code data s).hif.epH1A = s.hif.epH1A := by simp [raise]
@[simp] theorem raise_hif_epH2A : (raise code data s).hif.epH2A = s.hif.epH2A := by simp [raise]
@[simp] theorem raise_hif_epH1B : (raise code data s).hif.epH1B = s.hif.epH1B := by simp [raise]
@[simp] theorem raise_hif_epH2B : (raise code data s).hif.epH2B = s.hif.epH2B := by simp [raise]
@[simp] theorem raise_mgmtEn (x : Link) : (hlink x (raise code data s)).mgmtEn = (hlink x s).mgmtEn := by simp [raise]
@[simp] theorem raise_db (x : Link) : (hlink x (raise code data s)).db = (hlink x s).db := by simp [raise]
@[simp] theorem raise_shadow (x : Link) : (hlink x (raise code data s)).shadow = (hlink x s).shadow := by simp [raise]
@[simp] theorem raise_ctx0 (x : Link) : (hlink x (raise code data s)).ctx0 = (hlink x s).ctx0 := by simp [raise]
@[simp] theorem raise_hmem (x : Link) : (hlink x (raise code data s)).hmem = (hlink x s).hmem := by simp [raise]
@[simp] theorem raise_reqs (x : Link) : (hlink x (raise code data s)).reqs = (hlink x s).reqs := by simp [raise]
@[simp] theorem raise_scanNoted (x : Link) : (hlink x (raise code data s)).scanNoted = (hlink x s).scanNoted := by simp [raise]
@[simp] theorem raise_readFailAt (x : Link) : (hlink x (raise code data s)).readFailAt = (hlink x s).readFailAt := by simp [raise]
@[simp] theorem raise_wakeLatch (x : Link) : (hlink x (raise code data s)).wakeLatch = (hlink x s).wakeLatch := by simp [raise]
@[simp] theorem raise_wakeDue (x : Link) : (hlink x (raise code data s)).wakeDue = (hlink x s).wakeDue := by simp [raise]

end Sys2Proof.Machine
end

