-- ==== Sys2Proof/Machine/Leds.lean ====
section
/-! DEFINITION. The cartridge LEDs (R63 to R65, Table 2.11): what each shows, as a function of the state. They are outputs and no
state of their own. -/
namespace Sys2Proof.Machine

/-- What an LED shows. Slow is 1 Hz, fast 4 Hz, half of the time on (R63). -/
inductive Led
  | off
  | green
  | greenSlow
  | greenTraffic
  | red
  | greenRedFast
  | amber
  | amberFast
  | blue
  | blueSlow
  deriving DecidableEq, Repr

/-- Every LED but SWAP is dark: in CELLAR (R64), and where nothing is powered. -/
def ledsDark (s : State) : Bool := s.cel.pstate == .cellar || s.cel.pstate == .off

/-- The CT-8 in a slot is the standby of a pair. -/
def isStandby (n : Slot) (s : State) : Bool := n == ctSlot (otherCt s) && s.red.pair == .duplex

/-- STAT of a slot's cartridge; locate shows on every one while it runs (R65). -/
def statLed (n : Slot) (s : State) : Led :=
  if ledsDark s || (slot n s).st == 0 then .off
  else if s.sys.locateUntil.isSome then .greenRedFast
  else match (slot n s).st.toNat with
    | 3 => .red
    | 2 => if isStandby n s then .greenSlow else .green
    | _ => .greenSlow

/-- SWAP of a slot's cartridge (R611). -/
def swapLed (n : Slot) (s : State) : Led :=
  match s.red.lever[n] with
  | .safe => .blue
  | .preparing => .blueSlow
  | _ => .off

/-- ACT of a CT-8. -/
def actLed (c : Ct) (s : State) : Led :=
  if ledsDark s then .off else if c == activeCt s && slotReady (ctSlot c) s then .green else .off

/-- LINK of a line port. -/
def linkLed (n : PortNo) (s : State) : Led :=
  if ledsDark s || (slot (portSlot n) s).st == 0 then .off
  else if s.sys.fvLive.getLsbD n.val then .red
  else if (port n s).link then .greenTraffic
  else .off

/-- BYP of the line-port cartridge of a lane's relay set. -/
def bypLed (l : Lane) (s : State) : Led := if !ledsDark s && (bypOf l s).bridged then .amber else .off

/-- ATT of a power-line channel. -/
def attLed (c : Chan) (s : State) : Led :=
  if ledsDark s then .off
  else match (plc c s).att with
    | .detached | .sensing => .off
    | .ramp => .greenSlow
    | _ => .green

/-- CAN0 and CAN1 of the VX-2. -/
def canLed (c : Chan) (s : State) : Led :=
  if ledsDark s || !slotReady vxSlot s then .off
  else if (can c s).busFault then .red
  else match canState c s with
    | .errActive => .green
    | .errPassive => .greenSlow
    | .busOff => .red
    | _ => .off

/-- WR of the SR-1: a flash of 20 ms for a record, at most 5 flashes per second. -/
def wrLed (s : State) : Led :=
  match s.srm.flashAt with
  | some t => if !ledsDark s && slotReady srSlot s && s.now < t + ms 20 then .green else .off
  | none => .off

/-- SRC of a PW-2 that carries load; one that stands by shows none (R499). -/
def srcLed (m : PwNo) (s : State) : Led :=
  if ledsDark s || !pwCarries m s then .off
  else match (pw m s).st with
    | .mains => .green
    | .battery => .amber
    | .bank => .amberFast
    | _ => .off

end Sys2Proof.Machine
end

