-- ==== Sys2Proof/Tests/Slice0.lean ====
section
/-! SUPPORT. The model's own tests: worked cases of the spec, ill-formed commands, and for every statement a state and operands
that meet its hypotheses. -/
open Sys2Proof Sys2Proof.Machine

set_option Elab.async false

/-! ### Well-formedness: one ill-formed term for each check, refused -/

/-- A request from H1 with a body of `n` bytes. -/
def reqOfSize (n : Nat) : Req := ⟨.h1, 1, List.replicate n 0⟩

/-- A CAN frame with data length code `dlc` and `n` data bytes. -/
def canOfSize (rtr : Bool) (dlc : BitVec 4) (n : Nat) : CanRx := ⟨false, rtr, false, 0x123, false, false, dlc, List.replicate n 0, 0⟩

theorem test_wf_body : (Instr.rlvQuery (reqOfSize 4088)).wf = true ∧ (Instr.rlvQuery (reqOfSize 4089)).wf = false := by decide +kernel

theorem test_wf_host_address :
    (Instr.urgentPoll .h1 [(2 ^ 64 - 1, 1)]).wf = true ∧ (Instr.urgentPoll .h1 [(2 ^ 64, 1)]).wf = false := by decide +kernel

theorem test_wf_offset_aligned : (Instr.writeLo ⟨.h1, .a⟩ 0x1002 0).wf = false ∧ (Instr.readHi ⟨.h2, .b⟩ 0x1001).wf = false := by decide

theorem test_wf_misaligned : (Instr.misalignedAccess ⟨.h1, .a⟩ true 0x1000 4).wf = false := by decide

theorem test_wf_pci_size : (Instr.configSpaceWrite ⟨.h1, .a⟩ ⟨false, false, true, true, true, 100, 512⟩).wf = false := by decide

theorem test_wf_can : (Instr.canFrameReceived 0 (canOfSize false 9 8) []).wf = true
    ∧ (Instr.canFrameReceived 0 (canOfSize false 4 5) []).wf = false ∧ (Instr.canFrameReceived 0 (canOfSize true 1 1) []).wf = false := by decide

theorem test_wf_port_item : (Instr.portFrameReceived 0 (.frame (List.replicate 13 0) true true false)).wf = false
    ∧ (Instr.portFrameReceived 0 (.fragment true 0 0 [] 0)).wf = false := by decide

theorem test_wf_codeword : codewordOk ⟨List.replicate 223 0, some 16⟩ = true ∧ codewordOk ⟨List.replicate 223 0, some 17⟩ = false
    ∧ codewordOk ⟨List.replicate 222 0, none⟩ = false := by decide +kernel

theorem test_wf_plc_item : (Instr.dataFrameReceived 0 ⟨0, .tmRsp []⟩).wf = false
    ∧ (Instr.dataFrameReceived 0 ⟨0, .sounding [] []⟩).wf = false ∧ (Instr.dataFrameReceived 0 ⟨0, .report [1]⟩).wf = false := by decide

theorem test_wf_sr1 : (Instr.sr1Ready none).wf = true ∧ (Instr.sr1Ready (some ⟨0, 1, ⟨false, 0, 0, 0, []⟩, [], 0, false⟩)).wf = false := by decide

theorem test_wf_link : (Instr.linkUp 0 .down false false false).wf = false ∧ (Instr.linkL0Reached ⟨.h1, .a⟩ ⟨0, 1⟩ true).wf = false
    ∧ (Instr.linkL0Reached ⟨.h1, .a⟩ ⟨1, 0⟩ true).wf = false := by decide

theorem test_wf_bounds : (Instr.loadShareUnequal 0 101).wf = false ∧ (Instr.zeroCrossing 0 0 ⟨0, 0, 0, 0⟩).wf = false
    ∧ (Instr.cableTestDone 0 .normal [.normal, .normal, .normal, .normal]).wf = false
    ∧ (Instr.spFrameReceived .a ⟨0, 0, 0x88B6, List.replicate 1501 0⟩).wf = false := by decide +kernel

/-! ### Worked cases of the spec -/

/-- Table 4.4 and R163 on a 1 Gbit/s lane: the frames from ordinals 2, 5 and 15, ns from the start of the cycle. -/
theorem test_release_instants_of_table_4_4 :
    let at_ := fun (v : Nat) => { State.reset with rlv.ord := v, bbn.speedA := 2 }
    releaseI .a 2 (at_ 5) = 22700 ∧ releaseI .a 5 (at_ 8) = 32300 ∧ releaseI .a 2 (at_ 13) = 74700
      ∧ releaseI .a 15 (at_ 8) = 90300 ∧ releaseI .a 15 (at_ 2) = 129300 := by decide +kernel

/-- The wake pattern case of chapter 5: the CRC register after each of the four bytes. -/
theorem test_wake_crc_case : crc16 [0x08] = 0x60F8 ∧ crc16 [0x08, 0x42] = 0xFC20 ∧ crc16 [0x08, 0x42, 0xFF] = 0x1063
    ∧ crc16 [0x08, 0x42, 0xFF, 0xFF] = 0x6FC1 := by decide +kernel

/-- The same case: mask bits 12 to 15, check value 0x6FC1, a frame of 16 bytes that ends in the string; one of 15 bytes does not
match (R234). -/
theorem test_wake_pattern_case :
    let p := { port 4 State.reset with wake := (port 4 State.reset).wake.set 0 ⟨true, 0xF000, 0x6FC1⟩ }
    let b : List Byte := List.replicate 12 1 ++ [0x08, 0x42, 0xFF, 0xFF]
    patternOf p b = some 0 ∧ patternOf p (b.take 15) = none := by decide +kernel

/-- The Send descriptor case of chapter 9: dwords 2 to 5. -/
theorem test_send_descriptor_case :
    let d := sendDesc (toLE 8 0 ++ toLE 4 0x28 ++ toLE 4 0xF0210000 ++ toLE 4 9 ++ toLE 4 0x00050A41 ++ toLE 8 0)
    d.len = 40 ∧ d.cls = 0 ∧ d.dstPort = 15 ∧ d.label = 0x021 ∧ d.guardEn = false ∧ d.dst = 0x0A4100000009 ∧ d.dstCqp = 5
      ∧ sendMalformed d true State.reset = false := by decide +kernel

/-- The Send completion of that case: CQP 17, STATUS OK, LANE A; ring index 4. -/
theorem test_send_completion_case :
    let c := txCompletion .h1 17 (newPend 4 0 40 State.reset) 0
    c.d2 = 0x00000011 ∧ c.d3 &&& 0xFFFF = 0x0004 := by decide +kernel

/-- The GAP completion of that case: dwords 0 to 3 and 6, and dword 7 without PHASE and the source of the frame behind it. -/
theorem test_gap_completion_case :
    let f : NatFrame := ⟨3, false, false, 0, false, false, 0, 0x0A4100000003, 0x0A5700000002, 9, 12, 4, 42, []⟩
    let c := rxCompletion .h1 12 (gapItem f 40 2 State.reset) 0x0A 0x51 true 0
    c.d0 = 0x00000003 ∧ c.d1 = 0x00090A41 ∧ c.d2 = 0x100A040C ∧ c.d3 = 0x00280051 ∧ c.d6 = 2 ∧ c.d7 = 0x0004003F := by decide +kernel

/-- The arbiter of the case of chapter 10: AGE_N 4, class 3 pointer 15. -/
def arbCase (count : Nat) (since : List (Nat × Nat)) : State :=
  { State.reset with
    arb.fixed := false, arb.ageN := 4, arb.cls := 0xFFFA9400, arb.ageCount := count, arb.decisions := 10,
    arb.pointers := State.reset.arb.pointers.set 3 15,
    arb.waitSince := Vector.ofFn fun (i : Fin 16) => Tab.find i.val since }

/-- Decision 1 of the case: 14, the first below pointer 15 in class 3. -/
theorem test_arbiter_case_1 :
    let t := decideArb [] 0x5058 0xFFFF false (arbCase 0 [])
    t.arb.grant = 14 ∧ t.arb.grantValid = true ∧ t.arb.ageCount = 1 := by decide +kernel

/-- Decision 2: 12 wins and withdraws, a dead cycle that leaves the count at 1. -/
theorem test_arbiter_case_2 :
    let t := decideArb [] 0x1058 0xFFFF true { arbCase 1 [] with arb.pointers := (arbCase 1 []).arb.pointers.set 3 14 }
    t.arb.grantValid = false ∧ t.arb.ageCount = 1 ∧ t.arb.req.getLsbD 12 = false := by decide +kernel

/-- Decision 4: the age grant, to input 4 which has waited longest, although 6 outranks it. -/
theorem test_arbiter_case_4 :
    let t := decideArb [] 0x0050 0xFFFF false (arbCase 3 [(4, 1), (6, 9)])
    t.arb.grant = 4 ∧ t.arb.grantValid = true ∧ t.arb.ageCount = 0 := by decide +kernel

/-- The input case of chapter 8: DISC_MS 100 gives N = 103 ticks. -/
theorem test_disc_ticks_case : discTicks { State.reset.vx.pairs[3] with discMs := 100 } = 103 := by decide +kernel

/-- The ledger case of chapter 18, P = 15 min: 930 s and 1,200 s are STRETCHED, 300 s and 780 s SHORTENED, 900 s neither. -/
theorem test_ledger_case : lengthFlags 2 (930 * 1024) = 1 ∧ lengthFlags 2 (1200 * 1024) = 1 ∧ lengthFlags 2 (300 * 1024) = 2
    ∧ lengthFlags 2 (780 * 1024) = 2 ∧ lengthFlags 2 (900 * 1024) = 0 := by decide +kernel

/-- The defaults of ARB_CFG and ARB_CLASS as the cases of chapters 10 and 11 read them. -/
theorem test_arb_defaults_read : readWord ⟨.h1, .a⟩ 0x3000 State.reset = 0x00000410
    ∧ readWord ⟨.h1, .a⟩ 0x3004 State.reset = 0xFFFA9400 := by decide +kernel

/-! ### States that meet the hypotheses of the statements -/

/-- A cartridge that is ready. -/
def cartReady (k : Nat) : SlotState := ⟨2, false, BitVec.ofNat 48 (256 + k), 1, 2, 0⟩

/-- A node in RUN with every cartridge ready, mains on both power units, its own key 5, a settled polyline of 5 and 7. -/
def inRun (s : State) : State :=
  { s with
    cel.pstate := .run, sys.vkey := 5, sys.slots := Vector.ofFn fun i => cartReady i.val, red.token := true,
    pwr.a := { s.pwr.a with st := .mains, mainsPres := true, mainsQual := true, serial := 256 },
    pwr.b := { s.pwr.b with st := .mains, mainsPres := true, mainsQual := true, serial := 257 },
    bbn.speedA := 2, bbn.speedB := 2, bbn.syncOk := true,
    rlv.st := .settled, rlv.refKey := 5, rlv.ord := 1, rlv.refEnd := 2,
    rlv.poly := [⟨5, 1, false, false, false, true, true, false, 1, 0, 2, 2, true⟩,
                 ⟨7, 2, false, false, false, true, true, false, 1, 0, 2, 2, true⟩] }

/-- Both host links of the active controller in L0 with bus mastering and AtomicOps. -/
def hostUp (s : State) : State :=
  let up := fun (e : EndpointState) => { e with power := .l0, gen := 3, width := 2, busMaster := true, atomicOp := true }
  modEndpoint ⟨.h2, .a⟩ up (modEndpoint ⟨.h1, .a⟩ up { s with sys.hostPrsntA := true, sys.hostPrsntB := true })

/-- Pages, completion queue 0 and both rings of CQP 1 set up and running. -/
def ringsOn (s : State) : State :=
  modCtx .h1 1 (fun x => { x with txBase := 0x200000, rxBase := 0x300000, ctrl := 0x00000404, txState := .running, rxState := .running })
    (modCq 0 (fun q => { q with base := 0x180000, en := true, sizeLog2 := 4 })
      (modLink .h1 (fun h => { h with db := 0x100000, shadow := 0x110000 }) s))

/-- A consist port, changed. -/
def portTest (f : LinePort → LinePort) (s : State) : State := modPort 4 f s

/-- Vertex 7 beside this one at End 1 on lane A: link, span sweeps, both coupling pairs active. -/
def besideTwo (s : State) : State :=
  let on := fun (p : PairInput) => { p with st := .agreed, value := true, hasA := true, hasB := true, debA := true, debB := true,
                                            everAgreed := true }
  let s1 := modPort 0 (fun p => { p with link := true, los := false, phyOn := true, speed := .s1000 }) s
  modEnd .e1 (fun y =>
      { y with
        spanA := { y.spanA with watch := some ⟨7, true, false, 0, 63, 10000000000⟩, nbrAt := some 10000000000 },
        condSince := some 0, condKey := 7, inputsSince := some 0 })
    { s1 with now := 10000000000, vx.pairs := s1.vx.pairs.map on }

/-- Power-line channel 0 attached to an AC line as a coordinator that may relay. -/
def plcOn (f : PlcChan → PlcChan) (s : State) : State :=
  modPlc 0 (fun p => f { p with cfg := 1 + 0x20 + 15 * 512 + 10 * 32768, att := .associated, line := .ac, halfCycle := 10000000,
                                w := 15, stn := 3, access := 1, rotation := 1 }) s

/-- CAN channel 0 enabled and error active. -/
def canOn (f : CanChan → CanChan) (s : State) : State := modCan 0 (fun c => f { c with cfg := 1, st := .errActive }) s


/-- Profile area 0 with a profile of one item: class B_MASK and quotas as item 0x06 holds them. -/
def profiled (s : State) : State :=
  let stream : List Byte := [0x06, 0xFF, 8, 0, 16, 0, 0, 0, 0, 0, 0, 0]
  let head : List Byte := [1, 0, 0, 0, 12, 0, 0, 0] ++ toLE 4 (crc32c stream).toNat ++ [5, 0, 0, 0] ++ List.replicate 32 0
  { s with ids.flash := memStore flashFill (memStore flashFill s.ids.flash 0x100000 (head ++ toLE 4 (crc32c head).toNat)) 0x100100 stream }

theorem witness_StepRunsTheFrontCommand : State.reset.pending = [] := by decide +kernel

theorem witness_CommandsLeaveQueueAndClock : ∃ t, exec .locateExpiry State.reset = .next t := ⟨_, rfl⟩

theorem witness_EveryStepKeepsMemoryCanonical : State.reset.memOk = true ∧ ∃ t, step State.reset = .next t :=
  ⟨by decide +kernel, _, rfl⟩

theorem witness_HostMemoryReadsBackWhatIsWritten : memWf hostFill (hlink .h1 State.reset).hmem = true := by decide +kernel

theorem witness_EventsReachLinksAndStoreRoom :
    (inRun State.reset).cel.pstate ≠ .off ∧ ∀ l, (hlink l (inRun State.reset)).items.length < 256 := by
  refine ⟨by decide +kernel, fun l => ?_⟩; cases l <;> decide

theorem witness_WrongWidthOrAlignmentIsDiscarded :
    badAccess 0x1002 4 = true ∧ badAccess 0x1000 2 = true ∧ inL0 ⟨.h1, .a⟩ (hostUp State.reset) = true := by decide +kernel

theorem witness_ReadOfLoLatchesHi : inL0 ⟨.h1, .a⟩ (hostUp State.reset) = true ∧ readLo (0x18 : Offset).toNat = true := by decide +kernel

theorem witness_PairTakesEffectWithItsHiHalf :
    let s := hostUp State.reset
    inL0 ⟨.h1, .a⟩ s = true ∧ epActive ⟨.h1, .a⟩ s = true ∧ (hlink .h1 s).mgmtEn = false ∧ s.rrw.locked = false
      ∧ Tab.find 0x1008 (endpoint ⟨.h1, .a⟩ s).pendingLo = none := by decide +kernel

theorem witness_RegisterWritesFollowTheirAccessType :
    let s := hostUp State.reset
    epActive ⟨.h1, .a⟩ s = true ∧ inL0 ⟨.h1, .a⟩ s = true ∧ s.rrw.locked = false ∧ inL0 ⟨.h2, .a⟩ s = true
      ∧ ({ s with rrw.locked := true } : State).rrw.locked = true := by decide +kernel

theorem witness_MakerRangeReadsZeroAndIsRecorded :
    inL0 ⟨.h1, .a⟩ (hostUp State.reset) = true ∧ (0x0010 : Half).toNat % 4 = 0 := by decide +kernel

theorem witness_LocateRunsSixtySeconds :
    let s := hostUp State.reset
    inL0 ⟨.h2, .a⟩ s = true ∧ epActive ⟨.h2, .a⟩ s = true ∧ s.rrw.locked = false ∧ flagOf 1 0 = true ∧ flagOf 2 0 = false
      ∧ ({ s with sys.locateUntil := some 0 } : State).sys.locateUntil = some 0 ∧ 0 ≤ s.now
      ∧ ({ s with sys.locateUntil := some 1 } : State).sys.locateUntil = some 1 ∧ s.now < 1 := by decide +kernel

theorem witness_BypassRelaysFollowTheirPulses :
    let s := inRun State.reset
    drives s = true ∧ guarded .a s = true ∧ (slot (laneLoop .a) s).st ≠ 0 ∧ s.cel.pstate ≠ .off
      ∧ (bypOf .a { s with sys.bypA.holdUntil := some 0 }).holdUntil = some 0 ∧ 0 ≤ s.now := by decide +kernel

theorem witness_SeatingAndUnseatingAreRecorded :
    let s := inRun State.reset
    s.cel.pstate ≠ .off ∧ (slot 8 (modSlot 8 (fun _ => SlotState.empty) s)).st = 0 ∧ (slot 4 s).st ≠ 0 ∧ leverSafe 4 s = false := by decide +kernel

theorem witness_StrapsForeignVoltageAndReversedBattery :
    let s := inRun State.reset
    s.cel.pstate ≠ .off ∧ ({ s with sys.strapDue := some 0 } : State).sys.strapDue = some 0 ∧ 0 ≤ s.now
      ∧ connected 4 s = true ∧ (slot (portSlot 4) s).st ≠ 0
      ∧ ({ s with sys.fvLive := 4 } : State).sys.fvLive.getLsbD 2 = true ∧ (pw 0 s).st ≠ .absent ∧ (pw 0 s).battRev = false := by
  decide

theorem witness_NeighboursAreAcceptedLostAndHeld :
    let s := besideTwo (inRun State.reset)
    let x := modEnd .e1 (fun y => { y with accepted := some 7, corrDue := some 0, lost := some (7, 0), hold := some ⟨2, 2, 0, false⟩ }) s
    let d := modEnd .e1 (fun y => { y with spanA.watch := none, inputsSince := some 0 }) s
    let g := modEnd .e1 (fun y => { y with spanA.nbrAt := none }) x
    shownKey .e1 (refreshEnd .e1 s) = some 7 ∧ (endOf .e1 (refreshEnd .e1 s)).condSince = some 0
      ∧ (endOf .e1 s).accepted = none ∧ (endOf .e1 s).lost = none ∧ isNative (refreshEnd .e1 s) = true
      ∧ lanesRun (refreshEnd .e1 s) = true ∧ 0 + 50000000 ≤ s.now
      ∧ (endOf .e1 x).accepted = some 7 ∧ neighbourGone .e1 x = false ∧ (endOf .e1 g).accepted = some 7
      ∧ neighbourGone .e1 g = true ∧ heardOnPlc 7 x = false
      ∧ heardOnPlc 7 (modPlc 0 (fun p => { p with heard := [(7, 0)] }) x) = true ∧ (endOf .e1 x).corrDue = some 0 ∧ 0 ≤ x.now ∧ (endOf .e1 x).lost = some (7, 0)
      ∧ isNative x = true ∧ lostRange .e1 7 x = some (2, 2) ∧ anyInactive .e1 x = false
      ∧ (endOf .e1 x).hold = some ⟨2, 2, 0, false⟩
      ∧ (endOf .e1 (refreshEnd .e1 d)).disagreeSince = some 0 ∧ 0 + 5000000000 ≤ d.now
      ∧ (endOf .e1 (refreshEnd .e1 d)).disagree = false := by decide +kernel

theorem witness_RenumberingTimersAndTheSwitch :
    let r := besideTwo (inRun State.reset)
    let x : Tally := committedTally r
    let p : State := modEnd .e1 (fun y => { y with accepted := some 7 }) { r with
      rlv.st := .pending, rlv.pendingDue := some 0, rlv.backoffAt := some 0, rlv.commitAt := some 0, rlv.pending := some x,
      rlv.deferredSweepAt := some 0, rlv.graceUntil := some 0, bbn.cycleChangeAt := some 0 }
    let g : State := { p with rlv.st := .gather, rlv.gatherDue := some 0 }
    g.rlv.gatherDue = some 0 ∧ g.rlv.st = .gather ∧ 0 ≤ g.now ∧ p.rlv.pendingDue = some 0 ∧ p.rlv.st = .pending
      ∧ p.rlv.backoffAt = some 0 ∧ isNative p = true ∧ noOne p = false ∧ g.rlv.st ≠ .pending
      ∧ p.rlv.deferredSweepAt = some 0 ∧ sweepEnd p = some .e1 ∧ p.rlv.commitAt = some 0 ∧ p.rlv.pending = some x
      ∧ p.rlv.end1.barredHere = false ∧ p.rlv.end2.barredHere = false ∧ hasNbr .e1 p = true
      ∧ ({ p with rlv.gatherAtSwitch := false } : State).rlv.gatherAtSwitch = false ∧ 0 ≤ cycleIdx p ∧ p.rlv.graceUntil = some 0
      ∧ p.bbn.cycleChangeAt = some 0 ∧ 0 ≤ ttime p
      ∧ ({ p with rlv.commitAt := some 100000 } : State).rlv.commitAt = some 100000 ∧ cycleIdx p < 100000 := by decide +kernel

theorem witness_SweepsJoinsInteropAndThePin :
    let r := besideTwo (inRun State.reset)
    let s : State := { r with rlv.sweepDue := Vector.replicate 8 (some 0) }
    let j := modPlc 0 (fun p => { p with att := .associated, coord := 9, heard := [(9, 0)], namedSince := some 0 }) (inRun State.reset)
    let h : State := modEnd .e1 (fun y => { y with spanA.hello := some 0, spanA.helloLast := some 9950000000 }) s
    let i : State := { r with rlv.st := .interop, rlv.foreignQuietSince := some 0, now := 10000000000 }
    portLane 0 s = some (.a, .e1) ∧ s.rlv.sweepDue[(0 : PortNo)] = some 0 ∧ 0 ≤ s.now ∧ (port 0 s).link = true
      ∧ (plc 0 j).att = .associated ∧ (plc 0 j).role = 0 ∧ noNeighbour j = true ∧ j.rlv.plcOnly = false ∧ isNative j = true
      ∧ heardLong 0 { j with now := 2000000000 } = true ∧ j.rlv.st ≠ .pending
      ∧ (spanOf .a .e1 h).hello = some 0 ∧ carriesHello .a .e1 h = true ∧ 0 + 30000000 ≤ h.now ∧ ({ h with rlv.interopAllow := true } : State).rlv.interopAllow = true
      ∧ ({ h with rlv.interopAllow := false } : State).rlv.interopAllow = false ∧ isNative i = false ∧ (refreshDist i).rlv.foreignQuietSince = some 0 ∧ isNative s = true ∧ 0 + 10000000000 ≤ i.now
      ∧ allowedAt 0x0501 (authorityOf .h1 s) = some true ∧ allowedAt 0x0502 (authorityOf .h1 s) = some true
      ∧ (List.replicate 6 (0 : Byte)).length = 6 := by decide +kernel

theorem witness_RolavoMessagesRoundTrip :
    (RlvBody.commit ⟨1, 2, 3⟩).wf = true ∧ (RlvBody.holdOpen ⟨2, 1, 3, 4, 5, 6⟩).wf = true
      ∧ (RlvBody.tally (committedTally (inRun State.reset))).wf = true
      ∧ (RlvBody.sweep (sweepBody 0 .e1 (inRun State.reset))).wf = true := by decide +kernel

theorem witness_PortFramesAreClassified :
    let s := portTest (fun p => { p with link := true, bind := 9, verify := .verifying, preempt := 1 }) (inRun State.reset)
    let l := besideTwo (inRun State.reset)
    (port 4 s).link = true ∧ watchQuiet s = false ∧ wireLen [0] < 64 ∧ 64 ≤ wireLen (List.replicate 60 0)
      ∧ wireLen (List.replicate 60 0) ≤ effMaxLen 4 s ∧ macControl (List.replicate 60 0) = none ∧ portLane 4 s = none
      ∧ (port 4 s).role = 1 ∧ (port 4 s).watch = false ∧ (port 4 s).assembly = none ∧ (port 4 s).verify = .verifying
      ∧ preemptOn 4 s = true ∧ (port 0 l).link = true ∧ (port 0 l).role ≠ 1 ∧ portLane 0 l = some (.a, .e1) := by decide +kernel

theorem witness_AnArrivingFrameKeepsItsFlowInOrder :
    let f : NatFrame := ⟨2, false, false, 0, false, false, 0, 7, 5, 1, 1, 0, 3, []⟩
    let h : HeldFrame := ⟨f, false, false, 0, 0, none, 3⟩
    let r : RxFlow := ⟨flowOf f, 1, [h], [], none, 0⟩
    r.held.Pairwise (fun a b => ahead r.next a.frame.fseq < ahead r.next b.frame.fseq)
      ∧ (∀ y ∈ r.held, 1 ≤ ahead r.next y.frame.fseq ∧ ahead r.next y.frame.fseq ≤ 63)
      ∧ 32768 ≤ ahead 5 (3 : Half) := by decide +kernel

theorem witness_FlowStateIsGivenUpAndAgesOut :
    let id : FlowId := ⟨7, 1, 0⟩
    let f : NatFrame := ⟨2, false, false, 0, false, false, 0, 7, 5, 1, 1, 0, 3, []⟩
    let r : RxFlow := ⟨id, 1, [⟨f, false, false, 0, 0, none, 3⟩], [], none, 0⟩
    let s : State := { inRun State.reset with now := 10000000000, bbn.rxFlows := [r], bbn.txFlows := [⟨id, 0, true, 0, none⟩] }
    let e : State := { s with bbn.rxFlows := [{ r with held := [] }] }
    findRx id s.bbn.rxFlows = some r ∧ 0 + 2000000 ≤ s.now ∧ findRx id e.bbn.rxFlows = some { r with held := [] }
      ∧ 0 + 10000000000 ≤ e.now ∧ findTx id s.bbn.txFlows = some ⟨id, 0, true, 0, none⟩ := by decide +kernel

theorem witness_ClassULeavesInItsSlotOnly :
    let f : NatFrame := ⟨0, false, false, 7, false, false, 0, 5, 7, 1, 1, 0, 0, [1]⟩
    let o : OutFrame := ⟨encodeNative f, some f, none, 0, 7, 0, 0, none, false, none, 0⟩
    let b : State := { besideTwo (inRun State.reset) with now := 1000001000 }
    let s := modPort 0 (fun p => { p with sweepSince := some 0, verify := .succeeded })
      (modEnd .e1 (fun y => { y with accepted := some 7, spanA.watch := some ⟨7, true, false, 0, 63, 1000000000⟩, spanA.nbrAt := some 1000000000 })
      { b with bbn.uq := [(.a, o)], bbn.transit := [⟨.a, true, f, encodeNative f, false, 0, 5, 1⟩] })
    nativeRun s = true ∧ 2 ≤ s.rlv.poly.length ∧ slotW .a s * (s.rlv.ord - 1) ≤ cyclePos s
      ∧ cyclePos s < slotW .a s * s.rlv.ord ∧ quietNow s = false ∧ heldOrd s.rlv.ord s = false
      ∧ lastUrgent .a s ≠ some (cycleIdx s) ∧ urgentRuns s = true ∧ noticesOn .a s = [] ∧ uQueue .a s = [o]
      ∧ ordOf f.dst s = some 2 ∧ endTowards 2 s = some .e1 ∧ lanePort .a .e1 s = some 0 ∧ spanIsUp .a .e1 s = true
      ∧ (nbrOrd .e1 s).isSome = true ∧ lanesRun s = true ∧ egressEnd true s = .e1
      ∧ ({ s with bbn.lastUA := some (cycleIdx s) } : State).bbn.lastUA = some (cycleIdx s)
      ∧ (port 0 s).link = true ∧ (port 0 s).los = false ∧ viewsOk 0 s = true ∧ leverBusy (portSlot 0) s = false
      ∧ sweepsOn .a .e1 s = true ∧ (port 0 s).sweepSince = some 0 ∧ slowSpan .a .e1 s = false
      ∧ verifyBad (port 0 s) = false ∧ barredAt .e1 s = false ∧ 0 + 1000000000 ≤ s.now := by decide +kernel

theorem witness_TrainTimeIsLostSetAndSettled :
    let r : State := { inRun State.reset with now := 3000000000, bbn.lastSync := some 0, bbn.gm := false }
    let x : TimeSetRef := ⟨5, 1, some .h1, 1000000, 0, none⟩
    let y : TimeSetRef := { x with settleBy := some 0 }
    let o : TimeSetOpen := ⟨.h1, 1, 0⟩
    let a : State := { r with bbn.setRef := [x], bbn.setOpen := [o] }
    let b : State := { a with bbn.setRef := [y] }
    r.bbn.gm = false ∧ r.bbn.lastSync = some 0 ∧ 0 + 3000000000 ≤ r.now
      ∧ allowedAt 0x0401 (authorityOf .h1 r) = some true ∧ (List.replicate 8 (1 : Byte)).length = 8 ∧ isReference r = true
      ∧ beaconSource r = none ∧ a.bbn.stepDue = none ∧ a.rlv.pending = none ∧ isReference a = true ∧ asksCoordinator a = false
      ∧ (a.bbn.setRef.find? fun y => y.settleBy.isNone && decide (y.at_ ≤ ttime a)) = some x ∧ (b.bbn.setRef.find? fun y => y.settleBy.isSome) = some y
      ∧ (b.bbn.setOpen.find? fun z => z.tag == y.tag) = some o
      ∧ (b.bbn.setOpen.find? fun z => decide (z.deadline ≤ b.now)) = some o := by decide +kernel

theorem witness_NativeFramesRoundTrip :
    (⟨0, true, true, 7, true, true, 0xFFFF, 5, 7, 1023, 1023, 0xFFF, 0xFFFF, [1, 2]⟩ : NatFrame).wf = true := by decide +kernel

theorem witness_LinkUpAndDown :
    let s := portTest (fun p => { p with phyOn := true, target := .s1000 }) (inRun State.reset)
    let u := portTest (fun p => { p with link := true, los := false }) (inRun State.reset)
    mayLink 4 .s1000 s = true ∧ (port 4 u).link = true ∧ (port 4 u).los = false
      ∧ (port 4 (portTest (fun p => { p with los := true }) s)).los = true := by decide +kernel

theorem witness_SpeedChangesAbortRetryAndEnd :
    let s := portTest (fun p => { p with changing := true, phyOn := true, overdueAt := some 0, retryAt := some 0 }) (inRun State.reset)
    (port 4 s).changing = true ∧ (port 4 s).phyOn = true ∧ (port 4 s).link = false ∧ (port 4 s).overdueAt = some 0
      ∧ (port 4 s).retryAt = some 0 ∧ 0 ≤ s.now ∧ phyWanted 4 s = true := by decide +kernel

theorem witness_LaneSpeedRestore :
    let s := inRun State.reset
    allowedAt 0x0302 (authorityOf .h1 s) = some true ∧ nativeRun s = true ∧ spansUp .b s = true
      ∧ spansUp .b { s with bbn.downSpans := [⟨.b, 1, 2⟩] } = false ∧ (([0] : List Byte).length ≠ 4)
      ∧ (⟨.a, 0, false, none⟩ : RestoreState) ∈ ({ s with restores := [⟨.a, 0, false, none⟩] } : State).restores ∧ 0 ≤ cycleIdx s
      ∧ portLane 0 s = some (.a, .e1) := by decide +kernel

theorem witness_WakePatternAndCableTest :
    let s := inRun State.reset
    let w := portTest (fun p => { p with watch := true, link := true, wake := Vector.replicate 4 ⟨true, 0, crc16 []⟩ })
      { s with cel.pstate := .cellar }
    (port 4 w).watch = true ∧ (port 4 w).role = 1 ∧ (port 4 w).link = true ∧ w.cel.pstate = .cellar
      ∧ patternOf (port 4 w) [] = some 0
      ∧ allowedAt 0x0301 (authorityOf .h1 s) = some true ∧ ((portLane 4 s).isSome = true → (port 4 s).link = false) ∧ (port 4 s).test = none
      ∧ (port 4 s).changing = false ∧ s.bgt.level.val < 3 ∧ fvLiveAt 4 s = false ∧ slotReady (portSlot 4) s = true
      ∧ (port 4 (portTest (fun p => { p with test := some ⟨.h1, 0, []⟩ }) s)).test = some ⟨.h1, 0, []⟩ := by decide +kernel

theorem witness_APortStartsTheChosenFrame :
    let f : OutFrame := ⟨List.replicate 60 0, none, none, 3, 0, 0, 0, none, false, none, 3⟩
    let s := portTest (fun p => { p with
      link := true, speed := .s1000, queues := p.queues.set 0 [f], gateEn := true, preemptActive := true, gcl0 := ⟨1, 1, [word (0xFF * 16777216 + 4194304 + 62500)]⟩ }) (inRun State.reset)
    let e := portTest (fun p => { p with queues := Vector.replicate 8 [] }) s
    (port 4 s).sending = none ∧ mayTransmit 4 s = true ∧ choose 4 (readyPort 4 s) = some (.head 0 f 60 true) ∧ f.sent = 0
      ∧ choose 4 (readyPort 4 e) = none ∧ (port 4 s).gateEn = true ∧ (gateNow (port 4 s) s).isSome = true
      ∧ (port 4 s).preemptActive = true ∧ entryOp ((listEntries (activeList (port 4 s))).getD 0 0) = 1
      ∧ (port 4 (inRun State.reset)).gateEn = false := by decide +kernel

theorem witness_VerifyAndPauseTimers :
    let s := portTest (fun p => { p with
      link := true, speed := .s1000, verify := .verifying, verifyTries := 1, verifyDue := some 0, fcMode := 1, rxPauseUntil := some 600000000, txPauseXoff := true, pauseRepeatAt := some 0, quanta := 2,
      xon := 0, xoff := 1, stoppedSince := Vector.replicate 8 (some 0), stormUntil := some 0 }) { inRun State.reset with now := 500000000 }
    let l := modPort 0 (fun p => { p with verify := .failed, verifyDue := some 0 }) (besideTwo (inRun State.reset))
    let i : RxItemDue := ⟨5, 0, 4, true, false, false, false, 3, 0, 0, 0, false, false, 0, 0, 1, [1], 0, 0, 0, some 4, 3, none⟩
    let x : State := { s with hif.ctxs := [(9, { Ctx.reset with rxWait := [i] })] }
    let y := portTest (fun p => { p with fcMode := 2, pfcEn := 0xFF, txXoff := 1, xoffRepeatAt := p.xoffRepeatAt.set 0 (some 0) }) x
    (port 4 s).verify = .verifying ∧ (port 4 s).verifyDue = some 0 ∧ 0 ≤ s.now ∧ (port 4 s).verifyTries % 3 ≠ 0
      ∧ (port 4 (portTest (fun p => { p with verifyTries := 3 }) s)).verifyTries % 3 = 0
      ∧ (port 0 l).link = true ∧ (port 0 l).verify = .failed ∧ laneMode 0 l = true
      ∧ (port 0 l).verifyDue = some 0 ∧ (port 4 s).rxPauseUntil = some 600000000 ∧ (port 4 (flowCheck 4 x)).txPauseXoff = true
      ∧ (port 4 (flowCheck 4 x)).pauseRepeatAt = some 0
      ∧ (port 4 (flowCheck 4 y)).txXoff.getLsbD 0 = true ∧ (port 4 (flowCheck 4 y)).xoffRepeatAt[0] = some 0
      ∧ (port 4 s).stoppedSince[0] = some 0 ∧ 0 + 500000000 ≤ s.now ∧ queueStopped 4 0 s = true
      ∧ (port 4 s).stormUntil = some 0 := by decide +kernel

theorem witness_APowerLineChannelAttachesInSteps :
    let s := fun (a : AttState) => plcOn (fun p => { p with att := a, retryAt := some 0 }) (inRun State.reset)
    (plc 0 (s .sensing)).att = .sensing
      ∧ classifyLine (plc 0 (s .sensing)) ⟨230, 5000, 0, 10⟩ = .ac ∧ classifyLine (plc 0 (s .sensing)) ⟨0, 0, 110, 0⟩ = .dc
      ∧ classifyLine (plc 0 (s .sensing)) ⟨0, 0, 0, 0⟩ = .absent ∧ (plc 0 (s .ramp)).att = .ramp
      ∧ classifyLine (plc 0 (s .ramp)) ⟨0, 0, 0, 0⟩ ≠ (plc 0 (s .ramp)).line ∧ (plc 0 (s .detached)).retryAt = some 0
      ∧ plcWanted 0 (s .detached) = true ∧ (plc 0 (s .closing)).att = .closing ∧ (plc 0 (s .locking)).att = .locking
      ∧ (plc 0 (s .listening)).att = .listening ∧ (plc 0 (s .listening)).role = 0 ∧ (plc 0 (s .listening)).coord = 0
      ∧ (plc 0 (s .listening)).stepAt ≤ (s .listening).now ∧ coordOkCfg (plc 0 (s .listening)) = true
      ∧ coordOkCfg (plc 0 (plcOn (fun p => { p with att := .listening, cfg := 1 }) (inRun State.reset))) = false := by decide +kernel

theorem witness_LineLossHoldOffCrossingsAndCalibration :
    let s := { plcOn (fun p => p) (inRun State.reset) with now := 1000000000 }
    let d := plcOn (fun p => { p with line := .absent, cal := some ⟨.h1, 1, 0⟩ }) (inRun State.reset)
    relayClosed (plc 0 s) = true ∧ (plc 0 s).line ≠ .absent ∧ (plc 0 s).lastFrame + 3 * superframe (plc 0 s) ≤ s.now
      ∧ d.now < (plc 0 d).lastFrame + 3 * superframe (plc 0 d) ∧ slotReady pcSlot s = true
      ∧ classifyLine (plc 0 s) ⟨230, 5000, 0, 10⟩ = .ac ∧ (plc 0 s).att ≠ .locking
      ∧ allowedAt 0x0602 (authorityOf .h1 s) = some true ∧ slotReady pcSlot State.reset = false
      ∧ allowedAt 0x0601 (authorityOf .h1 s) = some true ∧ (plc 0 s).cal = none ∧ (plc 0 d).cal = some ⟨.h1, 1, 0⟩ := by decide +kernel

theorem witness_PowerLineWindowsStationsAndSoundings :
    let fcOf := fun (v : Nat) => BitVec.ofNat 121 (natOfBits (fcBits v))
    let w := { plcOn (fun p => { p with stn := 0, att := .listening }) (inRun State.reset) with now := 20000000000 }
    let a : Alloc := ⟨1, 0, 10, 3, 2, 0⟩
    let s := plcOn (fun p => { p with soundDue := some 0, freeAllocs := [a] }) (inRun State.reset)
    let m := plcOn (fun p => { p with role := 1, stn := 1, cfg := p.cfg, stations := [⟨2, 9, false, false, 0, none⟩], w := 35 })
      { inRun State.reset with now := 1000000000 }
    let p := plcOn (fun q => { q with access := 2, coord := 9, stations := [⟨1, 9, false, false, 0, none⟩] }) (inRun State.reset)
    let bcn := fcHead 3 1 127
    let join := fcHead 8 0 127
    let poll := fcHead 6 1 3 + fcField 34 6 10
    let jb : List Byte := [0, 0, 0, 0, 0, 11, 64]
    plcRuns 0 s = true ∧ (plc 0 s).att ≠ .locking ∧ (plc 0 s).winAt ≤ s.now ∧ (plc 0 s).urgents = [] ∧ (plc 0 s).winIdx ≠ 31
      ∧ s.now < (plc 0 s).winAt + 180000 * 15 ∧ (winnersOf [4, 9] (plc 0 s).rotation 2).getLast? = some 9
      ∧ (plc 0 s).role = 0 ∧ (plc 0 s).gotBeacon = false ∧ nearestCopy 0 1 s = true
      ∧ (fcRead (fcOf bcn)).map (fun x => (fcGet x 0 4, fcGet x 18 87, fcTx x)) = some (3, 0, 1)
      ∧ plcRuns 0 w = true ∧ (plc 0 w).role = 0 ∧ (plc 0 w).att = .listening
      ∧ (plc 0 w).lastBeacon + (5 + (vkey w).toNat % 32) * superframe (plc 0 w) ≤ w.now
      ∧ (fcRead (fcOf join)).map (fun x => (fcGet x 0 4, fcGet x 18 87)) = some (8, 0)
      ∧ plcRuns 0 m = true ∧ (plc 0 m).role ≠ 0 ∧ byteAt jb 6 % 64 = 0 ∧ mkKey (beAt jb 0 6) = 11 ∧ vkey m ≠ 11
      ∧ ((plc 0 m).stations.find? fun x => x.key == 11) = none ∧ freeStn (plc 0 m) = some 3
      ∧ (liveStns (plc 0 m)).length < mostStations (plc 0 m)
      ∧ ((plc 0 m).stations.find? fun y => y.stn == 2 && y.reservedUntil.isNone) = some ⟨2, 9, false, false, 0, none⟩
      ∧ 0 + 3 * superframe (plc 0 m) ≤ m.now
      ∧ (fcRead (fcOf poll)).map (fun x => (fcGet x 0 4, fcGet x 18 16, fcGet x 40 65, fcDst x)) = some (6, 0, 0, 3)
      ∧ plcRuns 0 p = true ∧ (plc 0 p).access = 2 ∧ (plc 0 p).role = 0 ∧ (plc 0 p).stn = 3 ∧ (plc 0 p).ctlQ = []
      ∧ (plc 0 p).reported = false ∧ coordStn (plc 0 p) = 1 ∧ (plc 0 p).winStart ≤ 180000
      ∧ p.now ≤ symbolAt (plc 0 p) ((180000 + 90000 - (plc 0 p).winStart) / 180000 + 3)
      ∧ (plc 0 s).att = .associated ∧ (plc 0 s).soundDue = some 0
      ∧ ((plc 0 s).freeAllocs.find? fun y => decide (s.now ≤ symbolAt (plc 0 s) (dataStart (plc 0 s) + y.start.toNat))
          && decide (4 ≤ min y.len.toNat ((plc 0 s).w.toNat - (dataStart (plc 0 s) + y.start.toNat)))) = some a := by decide +kernel

theorem witness_PowerLineBeacon :
    (readBeacon (beaconBody 0 15 1 0 7 (plcOn (fun p => { p with role := 1, stn := 1, access := 1 }) (inRun State.reset)))).map
      (fun b => (b.access, b.stations.map (·.key))) = some (1, [5]) := by decide +kernel

theorem witness_UrgentAndDataFramesOfThePowerLine :
    let fcOf := fun (v : Nat) => BitVec.ofNat 121 (natOfBits (fcBits v))
    let s := plcOn (fun p => { p with stations := [⟨2, 7, false, false, 0, none⟩, ⟨4, 9, false, false, 0, none⟩],
                                      chords := [⟨2, 4, [3]⟩], role := 1 }) (inRun State.reset)
    let f : NatFrame := ⟨0, false, false, 7, false, false, 0, 7, 5, 0, 1, 0, 0, [1]⟩
    let pay : BitVec 249 := BitVec.ofNat 249 (natOfBits (urgentPayload f))
    let urg := fun (dst : Nat) => fcHead 1 2 dst + fcField 18 7 2 + fcField 95 5 1
    plcRuns 0 s = true ∧ fcRead (fcOf (urg 3) ^^^ 1) = none ∧ (urgentBytes pay).isSome = true ∧ urgentBytes (pay ^^^ 1) = none
      ∧ (fcRead (fcOf (urg 3))).map (fun x => (fcGet x 0 4, fcGet x 100 5, fcDst x)) = some (1, 0, 3)
      ∧ (fcRead (fcOf (urg 4))).map (fun x => (fcGet x 0 4, fcGet x 100 5, fcDst x)) = some (1, 0, 4) ∧ (plc 0 s).stn = 3
      ∧ (urgentNative 0 (BitVec.ofNat 105 (urg 3)) (List.replicate 30 0) s).isSome = true
      ∧ (urgentNative 0 (BitVec.ofNat 105 (urg 4)) (List.replicate 30 0) s).isSome = true ∧ repeats 0 2 4 2 0 s = true
      ∧ (fcRead (fcOf (fcHead 5 2 127 + fcField 40 8 9))).map (fun x => (fcGet x 0 4, fcGet x 48 57)) = some (5, 0)
      ∧ (fcRead (fcOf (fcHead 2 2 127))).map (fun x => (fcGet x 0 4, fcGet x 40 65, fcDst x)) = some (2, 0, 127)
      ∧ (List.replicate 100 (0 : Byte)).length = 100 ∧ (plc 0 s).role = 1 := by decide +kernel

theorem witness_ScramblingAndSegmentsRoundTrip :
    0 < ([1] : List Byte).length ∧ ([1] : List Byte).length < 2048 ∧ (∀ x ∈ [false], x = false)
      ∧ ([] : List Byte).length + 2 + ([1] : List Byte).length ≤ 223 * [false].length := by decide +kernel

theorem witness_CanFramesLoadAndLeave :
    let b : TxBuffer := ⟨none, false, 5, false, false, false, 1, [7], 0⟩
    let s := canOn (fun c => { c with cqp := 9, txto := 100, bufs := c.bufs.set 1 (some b) }) (hostUp (inRun State.reset))
    let u := { s with now := 100000000, hif.ctxs := [(9, { Ctx.reset with txState := .running, txProd := 1 })], hif.h2Base := 1000 }
    canOf 9 u = some 0 ∧ fetchAllowed .h1 9 u = true ∧ canEn (can 0 u) = true ∧ canListen (can 0 u) = false ∧ canSends 0 u = true
      ∧ canFetches 0 u = true ∧ canFree (can 0 u) = some 0
      ∧ (canRecord false (List.replicate 16 0) ⟨.h1, 9, 0⟩ u).isSome = true ∧ canSameId (can 0 u) b = true
      ∧ canSameId (can 0 u) { b with id := 6 } = false ∧ canOffered (can 0 u) u.now = some (1, b)
      ∧ (can 0 u).bufs[(1 : Fin 3)] = some b ∧ (can 0 u).txto ≠ 0 ∧ 0 + (can 0 u).txto.toNat * 1000000 ≤ u.now
      ∧ s.now < 0 + (can 0 s).txto.toNat * 1000000 := by decide +kernel

theorem witness_CanReceptionErrorsAndBusOff :
    let s := canOn (fun c => { c with mbxCtrl := 0x80000000, flts := c.flts.set 0 ⟨0xC0000005, 0x7FF⟩ }) (hostUp (inRun State.reset))
    let o := canOn (fun c => { c with st := .busOff, recovering := true }) (inRun State.reset)
    let r : CanRx := ⟨false, false, false, 5, false, false, 1, [7], 0⟩
    canState 0 s = .errActive ∧ (can 0 s).busFault = false ∧ canFilterOf (can 0 s) r = some (0, true)
      ∧ flagOf (can 0 s).mbxCtrl 31 = true ∧ dmaOk .h1 s = true
      ∧ readHost32 .h1 (mbxAddr (can 0 s) (can 0 s).mbxPos + 124) s = 0 ∧ (can 0 s).tec + 8 ≤ 255 ∧ 255 < (can 0 s).tec + 256
      ∧ canState 0 o = .busOff ∧ (can 0 o).recovering = true ∧ allowedAt 0x0701 (authorityOf .h1 o) = some true
      ∧ (can 0 (canOn (fun c => { c with st := .busOff }) s)).recovering = false ∧ canState 0 s ≠ .stopped := by decide +kernel

theorem witness_CouplingPairsFollowTheirChannels :
    let s := modPair 0 (fun c => { c with st := .agreed, hasA := true, hasB := true, value := true, debB := true, debA := true,
                                          onLevel := 50, debounce := 2 }) { inRun State.reset with cel.monoBase := 100000 }
    let d := modPair 0 (fun c => { c with st := .discrepant, debB := false, sinceTick := some 0 }) s
    let e := modPair 0 (fun c => { c with sinceTick := some (mono d) }) d
    let u := modPair 0 (fun c => { c with st := .unknown, debB := true }) d
    monitorsRun s = true ∧ s.vx.pairs[(0 : PairNo)].st = .agreed ∧ s.vx.pairs[(0 : PairNo)].sinceTick = none
      ∧ readings 50 true [600, 0, 0] = (false, 2) ∧ readings 50 true [600, 470, 0] = (false, 1) ∧ (2 : BitVec 8).toNat ≤ 2
      ∧ e.vx.pairs[(0 : PairNo)].st ≠ .unknown ∧ e.vx.pairs[(0 : PairNo)].sinceTick = some (mono e)
      ∧ e.vx.pairs[(0 : PairNo)].debA ≠ e.vx.pairs[(0 : PairNo)].debB ∧ mono e - mono e < discTicks e.vx.pairs[(0 : PairNo)] + 2
      ∧ d.vx.pairs[(0 : PairNo)].sinceTick = some 0 ∧ d.vx.pairs[(0 : PairNo)].st ≠ .unknown
      ∧ discTicks d.vx.pairs[(0 : PairNo)] ≤ mono d - 0 + 1 ∧ u.vx.pairs[(0 : PairNo)].st = .unknown
      ∧ u.vx.pairs[(0 : PairNo)].debA = u.vx.pairs[(0 : PairNo)].debB ∧ mono State.reset - 0 + 1 < 2 := by decide +kernel

theorem witness_ContactsFollowTheirDrives :
    let s : State := { inRun State.reset with vx.out0HoldUntil := some 0, vx.out1Until := some 0, vx.out0Test := some (0, true),
                                              vx.out1Test := some (0, true), vx.healthMask := 0 }
    let h : State := { s with vx.healthMask := 0xFF, bbn.syncOk := false }
    s.cel.pstate = .run ∧ slotReady vxSlot s = true ∧ leverSafe vxSlot s = false ∧ handingOver 2 s = false
      ∧ maskedHealth s = false ∧ s.vx.out0HoldUntil = some 0 ∧ 0 ≤ s.now ∧ (healthNow h).getLsbD 7 = true
      ∧ h.vx.healthMask.getLsbD 7 = true ∧ s.vx.out1Until = some 0 ∧ allowedAt 0x0702 (authorityOf .h1 s) = some true
      ∧ 100 ≤ ofLE [100, 0] ∧ ofLE [100, 0] ≤ 10000 ∧ s.vx.out0Test = some (0, true) ∧ s.vx.out1Test = some (0, true) := by decide +kernel

theorem witness_PollsSwapTheSummaryAndReadProducers :
    let s := ringsOn (hostUp (inRun State.reset))
    let c := modEndpoint ⟨.h1, .a⟩ (fun e => { e with atomicOp := false }) s
    let w := writeHost .h1 0x101000 [2, 0, 0, 0] s
    polls .h1 State.reset = false ∧ polls .h1 s = true ∧ scanMode .h1 s = false ∧ scanMode .h1 c = true ∧ polls .h1 c = true
      ∧ memWf hostFill (hlink .h1 w).hmem = true ∧ readHost32 .h1 (dbAddr .h1 0x1000 w) w = BitVec.ofNat 32 (2 ^ 1)
      ∧ (∀ j : Fin 32, readHost32 .h1 (dbAddr .h1 (0x1000 + 4 * j.val) s) s = 0) ∧ polls .h1 w = true ∧ scanMode .h1 w = false
      ∧ ownsCqp .h1 1 s = true ∧ (ctx .h1 1 s).txState = .running ∧ (ctx .h1 1 s).rxState = .running
      ∧ overruns (ctx .h1 1 s).txDone (ctx .h1 1 s).txProd 1 (ctxSize .tx (ctx .h1 1 s)) = false
      ∧ overruns (ctx .h1 1 s).txDone (ctx .h1 1 s).txProd 0xFFF0 (ctxSize .tx (ctx .h1 1 s)) = true := by decide +kernel

theorem witness_DescriptorsAreFetchedJudgedAndDelivered :
    let s := ringsOn (hostUp (inRun State.reset))
    let p := modCtx .h1 1 (fun x => { x with txProd := 1, rxProd := 1 }) s
    let m := writeHost .h1 0x200000 (List.replicate 32 0xFF) (writeHost .h1 0x300000 (List.replicate 32 0xFF) p)
    let g := writeHost .h1 0x300000 ([0, 0, 0x40, 0, 0, 0, 0, 0, 64, 0] ++ List.replicate 22 0) p
    let i : RxItemDue := ⟨5, 0, 4, true, false, false, false, 3, 0, 0, 0, false, false, 0, 0, 2, [7, 8], 0, 0, 0, some 4, 3, none⟩
    let d := modCtx .h1 1 (fun x => { x with rxWait := [i], rxFree := [⟨0, 0x400000, 64⟩] }) s
    let e := modCtx .h1 1 (fun x => { x with rxWait := [i] }) s
    let n := modCtx .h1 1 (fun x => { x with rxWait := [{ i with waitUntil := 1 }] }) s
    let b := modCtx .h1 1 (fun x => { x with rxWait := [{ i with gapCount := 1 }] }) s
    (ownsCqp .h1 1 s && fetchAllowed .h1 1 s) = false ∧ ownsCqp .h1 1 p = true ∧ fetchAllowed .h1 1 p = true
      ∧ canOf 1 p = none ∧ bindOf 1 p = none
      ∧ sendMalformed (sendDesc (ringEntry .h1 1 .tx 0 m)) (ctxUrg (ctx .h1 1 m)) m = true
      ∧ rxFetchAllowed .h1 1 s = false ∧ rxFetchAllowed .h1 1 m = true ∧ recvDesc (ringEntry .h1 1 .rx 0 m) = none
      ∧ (ctx .h1 1 m).rxFree = [] ∧ (recvDesc (ringEntry .h1 1 .rx 0 g)).isSome = true
      ∧ (ctx .h1 1 d).rxWait = [i] ∧ (ownsCqp .h1 1 d && dmaOk .h1 d && ringsRun d) = true
      ∧ (cq (ctxCq .rx (ctx .h1 1 d)) d).full = false ∧ i.gapCount = 0 ∧ (ctx .h1 1 d).rxFree = [⟨0, 0x400000, 64⟩]
      ∧ memWf hostFill (hlink .h1 d).hmem = true ∧ (ctx .h1 1 e).rxFree = [] ∧ i.waitUntil ≤ e.now
      ∧ (∀ y ∈ (ctx .h1 1 n).rxWait, n.now < y.waitUntil) ∧ (∀ y ∈ (ctx .h1 1 b).rxWait, y.gapCount ≠ 0) := by decide +kernel

theorem witness_SendsWithNoWayWaitOrGo :
    let s := ringsOn (hostUp (inRun State.reset))
    let p := modCtx .h1 1 (fun x => { x with txProd := 1 }) s
    let d := fun (dst : Byte) => [0, 0, 0x40, 0, 0, 0, 0, 0, 64, 0, 0x20, 0, 0, 0, 0, 0xF0] ++ [dst, 0, 0, 0, 0, 0] ++ List.replicate 10 0
    let no := writeHost .h1 0x200000 (d 9) p
    let z := writeHost .h1 0x200000 (d 5) p
    let e := fun (t : State) => sendDesc (ringEntry .h1 1 .tx 0 t)
    sendMalformed (e no) false no = false ∧ (routeDesc (e no) no).2 = some stNoRoute ∧ (ctx .h1 1 no).txPend = []
      ∧ sendMalformed (e z) false z = false ∧ (routeDesc (e z) z).2 = none
      ∧ admission .h1 1 (e z).cls (e z).raw (routeLane (routeDesc (e z) z).1) (42 + (e z).len) false z = .accept := by decide +kernel

theorem witness_CompletionsRingsAndTheManagementRing :
    let s := ringsOn (hostUp (inRun State.reset))
    let p : CqPend := ⟨.h1, 1, true, 0, 0, 0, 0, 0, 0, 0, 0, true, false, 0, 0, none⟩
    let a := modCq 0 (fun q => { q with pend := [p] }) s
    let f := writeHost .h1 0x101100 [1] a
    let m := modCq 0 (fun q => { q with since := 1, count := 1 }) s
    let u := modEndpoint ⟨.h1, .a⟩ (fun e => { e with msix := [(3, 0)] }) m
    (cq 0 s).pend = [] ∧ (cq 0 a).pend = [p] ∧ ((cq 0 a).en && dmaOk .h1 a && ringsWrite a) = true ∧ cqIsFull 0 a = false
      ∧ cqIsFull 0 f = true ∧ (cq 0 f).pend = [p] ∧ p.localTx = none ∧ memWf hostFill (hlink .h1 a).hmem = true
      ∧ cqModerated (cq 0 s) s = false ∧ cqModerated (cq 0 m) m = true ∧ inL0 (activeEp (cq 0 m).link m) m = true
      ∧ flagOf (msixWord (endpoint ⟨.h1, .a⟩ u) 3) 0 = false ∧ flagOf (msixWord (endpoint ⟨.h1, .a⟩ m) 3) 0 = true := by decide +kernel

theorem witness_RingsStartStopAndReset :
    let s := ringsOn (hostUp (inRun State.reset))
    let st := modCtx .h1 1 (fun x => { x with txState := .stopped, rxState := .stopped }) s
    let h := modCtx .h1 1 (fun x => { x with txState := .halted, rxState := .halted, haltTx := true, haltWhy := .malformed }) s
    let x := modCtx .h1 1 (fun y => { y with txBase := 1 }) st
    let g := modCtx .h1 1 (fun y => { y with txState := .stopping }) s
    let b := modCtx .h1 1 (fun y => { y with txPend := [newPend 0 0 0 s] }) g
    let nd := modEndpoint ⟨.h1, .a⟩ (fun e => { e with busMaster := false }) st
    ringBody [1, 0, 3, 0] = some (1, 3) ∧ ownsCqp .h1 1 s = true ∧ allowedAt 0x0801 (authorityOf .h1 s) = some true
      ∧ allowedAt 0x0802 (authorityOf .h1 s) = some true ∧ allowedAt 0x0803 (authorityOf .h1 s) = some true
      ∧ ringBusy .h1 1 3 s = true ∧ ringBusy .h1 1 3 x = false ∧ ringUnusable .h1 1 3 x = some 1
      ∧ ringBusy .h1 1 3 st = false ∧ ringUnusable .h1 1 3 st = none ∧ named .tx 3 = true ∧ named .rx 3 = true
      ∧ dmaOk .h1 nd = false ∧ ringUnusable .h1 1 3 nd = none ∧ ringUnusable .h1 1 3 h = none ∧ ringBusy .h1 1 3 h = false
      ∧ (ctx .h1 1 h).haltTx = true ∧ (ctx .h1 1 h).haltWhy ≠ .overrun ∧ ringIdle .h1 1 .tx s = true ∧ ringIdle .h1 1 .rx s = true
      ∧ (ctx .h1 1 g).txState = .stopping ∧ ringIdle .h1 1 .tx g = true ∧ ringIdle .h1 1 .tx b = false
      ∧ (ctx .h1 1 s).txState = .running := by decide +kernel

theorem witness_ItemsReachCqpZero :
    let s := modLink .h1 (fun h => { h with ctx0 := { h.ctx0 with rxState := .running, rxFree := [⟨0, 0x400000, 256⟩] } })
      (ringsOn (hostUp (inRun State.reset)))
    let it := eventItem 4 0x8030 [0] s
    let i := modLink .h1 (fun h => { h with items := [it] }) s
    let w := modLink .h1 (fun h => { h with wakeDue := true }) i
    (dmaOk .h1 s && ringsRun s) = true ∧ (ctx .h1 0 s).rxState = .running ∧ (cq (ctxCq .rx (ctx .h1 0 s)) s).full = false
      ∧ (ctx .h1 0 i).rxFree = [⟨0, 0x400000, 256⟩] ∧ (hlink .h1 i).items = [it] ∧ (it.event && (hlink .h1 i).wakeDue) = false
      ∧ (hlink .h1 i).dropped = 0 ∧ (hlink .h1 w).wakeDue = true ∧ (hlink .h1 w).items = [it] ∧ it.event = true := by decide +kernel

theorem witness_AFailedSummaryReadIsSkipped :
    let s := modLink .h1 (fun h => { h with readFailAt := some 0 }) State.reset
    ((∃ d, (hlink .h1 s).readFailAt = some d ∧ s.now < d + 1000000000)
      ∧ ∀ d, (hlink .h1 State.reset).readFailAt = some d → d + 1000000000 ≤ State.reset.now) :=
  ⟨⟨0, rfl, by decide +kernel⟩, fun _ h => nomatch h⟩

theorem witness_LinkResetsConfigSpaceAndEnables :
    let s := ringsOn (hostUp (inRun State.reset))
    let d := modEndpoint ⟨.h1, .a⟩ (fun e => { e with power := .l2 }) s
    let n := modCq 3 (fun q => { q with en := false }) s
    (endpoint ⟨.h1, .a⟩ State.reset).power = .down ∧ (endpoint ⟨.h1, .a⟩ s).power ≠ .down ∧ epActive ⟨.h1, .b⟩ s = false
      ∧ epActive ⟨.h1, .a⟩ s = true ∧ ownsCqp .h1 1 s = true ∧ (cq 0 s).link = .h1 ∧ linksPowered State.reset = false
      ∧ linksPowered d = true ∧ (endpoint ⟨.h1, .a⟩ d).power ≠ .l0 ∧ configServed s = true ∧ configServed State.reset = false ∧ inL0 ⟨.h1, .a⟩ s = true
      ∧ (endpoint ⟨.h1, .a⟩ s).busMaster = true ∧ s.rrw.locked = false ∧ (cq 3 n).link = .h1 ∧ (cq 3 n).en = false
      ∧ flagOf 0x80000004 31 = true ∧ flagOf 0x80000004 30 = false := by decide +kernel

theorem witness_ArbiterGrantsFollowClassModeAndAge :
    let s := hostUp (inRun State.reset)
    let a : State := { s with arb.ageCount := 15 }
    let f : State := { s with arb.fixed := true }
    (∀ i : Fin 16, ((0 : BitVec 16).getLsbD i.val && (0xFFFF : BitVec 16).getLsbD i.val) = false)
      ∧ ((5 : BitVec 16).getLsbD (2 : Fin 16).val && (0xFFFF : BitVec 16).getLsbD (2 : Fin 16).val) = true
      ∧ s.arb.fixed = false ∧ ageGrant s = false ∧ ageGrant a = true ∧ f.arb.fixed = true
      ∧ inL0 ⟨.h1, .a⟩ s = true ∧ epActive ⟨.h1, .a⟩ s = true ∧ s.rrw.locked = false ∧ arbCfgBad 16 = false := by decide +kernel

theorem witness_RemoteWindowRequestsLeaseAndTimeout :
    let s := inRun State.reset
    let b := fun (far region : Byte) => ([far, 0, 0, 0, 0, 0, 0, 0, region, 1, 4, 0, 0, 0, 0, 0] : List Byte)
    let o : RrwOpen := ⟨1, .h1, 1, 0x0A01, 7, 5⟩
    let l : State := { s with rrw.locked := true, rrw.leaseEnd := 0, rrw.open_ := [o] }
    let e : State := { s with rrw.locked := true, rrw.leaseEnd := 5 }
    allowedAt 0x0A01 (authorityOf .h1 s) = some true ∧ allowedAt 0x0A02 (authorityOf .h1 s) = some true
      ∧ allowedAt 0x0A03 (authorityOf .h1 s) = some true ∧ allowedAt 0x0A04 (authorityOf .h1 s) = some true
      ∧ rrwRequestOf 1 [] s = none ∧ rrwRequestOf 2 [] s = none ∧ rrwRequestOf 3 [] s = none ∧ rrwRequestOf 4 [] s = none
      ∧ (rrwRequestOf 1 (b 7 0) s).isSome = true ∧ ((rrwRequestOf 1 (b 7 15) s).map (·.region)) = some 15
      ∧ ordOf (rrwHost (b 9 0)).far s = none ∧ (rrwRequestOf 1 (b 9 0) s).isSome = true
      ∧ ordOf (rrwHost (b 7 0)).far s = some 2 ∧ beyondForeign 2 s = false
      ∧ (l.rrw.open_.find? fun o => o.reqId == 1) = some o ∧ l.now < o.deadline ∧ (s.rrw.open_.find? fun o => o.reqId == 1) = none
      ∧ l.rrw.leaseEnd ≤ l.now ∧ e.now < e.rrw.leaseEnd := by decide +kernel

theorem witness_BeyondAForeignSpan :
    let r := inRun State.reset
    let s : State := { r with rlv.st := .interop, rlv.end1.spanA.foreign := true, rlv.end1.spanA.helloLast := some 0, rlv.etb.runs := true }
    ordOf 7 s = some 2 ∧ beyondForeign 2 s = true := by decide +kernel

theorem witness_SourceLossHandsOver :
    let s := inRun State.reset
    (pw 0 s).moving = none ∧ (pw 0 s).st = .mains ∧ (pw 0 s).mainsPres = true
      ∧ (if (pw 0 s).slowLine then 36000000 else 12000000) ≤ 12000000 ∧ (pw 1 (modPw 1 (fun x => { x with st := .battery, battPres := true }) s)).st = .battery
      ∧ (pw 1 (modPw 1 (fun x => { x with st := .battery, battPres := true }) s)).battPres = true
      ∧ (pw 1 (modPw 1 (fun x => { x with st := .battery, battPres := true }) s)).moving = none
      ∧ (pw 0 State.reset).mainsPres = false := by decide +kernel

theorem witness_QualificationHandoverAndHandback :
    let s := modPw 0 (fun x => { x with st := .bank, battSince := some 0, hbWait := true, mainsQual := true })
      { inRun State.reset with now := 130000000 }
    (pw 0 s).st ≠ .absent ∧ bandAllowed s.pwr.mainsBand (halfBand 10000000) = true ∧ (pw 0 s).battSince = some 0 ∧ 0 + 120000000 ≤ s.now ∧ (pw 0 s).hbWait = true
      ∧ (pw 0 s).moving = none ∧ (pw 0 s).outFault = false ∧ ranksBelow (pw 0 s).st (bestSource (pw 0 s)) = true
      ∧ spaced (pw 0 s).lastHandback (sec 1) s = true ∧ (pw 0 s).mainsInvalid = false
      ∧ (pw 0 (modPw 0 (fun x => { x with moving := some (.battery, true) }) s)).moving = some (.battery, true)
      ∧ (pw 0 (modPw 0 (fun x => { x with moving := some (.mains, false) }) s)).moving = some (.mains, false)
      ∧ ({ s with now := 5 } : State).now < 0 + 120000000 := by decide +kernel

theorem witness_LoadBanksAndOutputFault :
    let s := modPw 0 (fun x => { x with bankFull := true }) (inRun State.reset)
    charging 0 s = true ∧ allowedAt 0x0110 (authorityOf .h1 s) = some true ∧ s.cel.pstate = .run ∧ pwReady 0 s = true
      ∧ pwFed 0 s = true ∧ (pw 0 s).bankFull = true ∧ pwReady 1 s = true ∧ pwFed 1 s = true ∧ (pw 0 s).test = none
      ∧ (pw 1 s).test = none ∧ pwCarries 0 s = true ∧ pwCarries 1 s = true ∧ (pw 0 s).st ≠ .absent ∧ (pw 0 s).outFault = false
      ∧ (pw 0 (modPw 0 (fun x => { x with test := some (.h1, 0) }) s)).test = some (.h1, 0) := by decide +kernel

theorem witness_OffAndCellar :
    let r := inRun State.reset
    let s : State := { r with cel.pstate := .off, pwr.a.mainsQual := true }
    s.cel.pstate = .off ∧ s.cel.step = 0 ∧ railFed s = true ∧ ctSeated s = true ∧ spaced s.cel.offSince (ms 200) s = true
      ∧ s.cel.stepAt + ms 800 ≤ ({ s with cel.step := 2, now := ms 800 } : State).now
      ∧ s.cel.stepAt + ticksNs 16 ≤ ({ s with cel.step := 3, now := ticksNs 16 } : State).now ∧ r.cel.pstate ≠ .off ∧ r.cel.xtalFault = false ∧ atticRuns r = true
      ∧ (5 : Half).toInt.natAbs ≤ 500 := by decide +kernel

theorem witness_WakeCausesStartARise :
    let s : State := { inRun State.reset with cel.pstate := .cellar, cel.energyHold := true, cel.retryAt := some 0,
                                              cel.timerAt := some 0, sys.hostPrsntA := true }
    prsnt .a s = true ∧ s.cel.pstate = .cellar ∧ flagOf s.cel.wakeCause 1 = false ∧ riseAllowed s = true
      ∧ (s.cel.energyHold = true ∨ s.cel.heatHold = true) ∧ s.cel.retryAt = some 0 ∧ s.cel.timerAt = some 0 ∧ 0 ≤ s.now := by decide +kernel

theorem witness_RisesAndFallsRunStepByStep :
    let s : State := { inRun State.reset with cel.pstate := .rising, cel.step := 1, now := 20000000 }
    let f : State := { s with cel.pstate := .falling }
    s.cel.pstate = .rising ∧ s.cel.step = 1 ∧ riseDone s.cel.step s = true ∧ heldForRemoval s = false
      ∧ s.cel.latch ≠ .offReq ∧ ({ s with cel.latch := .offReq } : State).cel.latch = .offReq
      ∧ riseDone 7 { s with cel.step := 7, rlv.st := .settled } = true
      ∧ f.cel.pstate = .falling ∧ heldForRemoval f = false ∧ fetchedLeft { f with cel.step := 7 } = true
      ∧ f.cel.latch ≠ .onReq ∧ ({ f with cel.latch := .onReq } : State).cel.latch = .onReq
      ∧ s.cel.stepAt + 2 * riseLasts s.cel.step s.cel.warm ≤ s.now := by decide +kernel

theorem witness_PowerRequestAndLastGasp :
    let s := inRun State.reset
    let b := modPw 1 (fun x => { x with st := .bank }) (modPw 0 (fun x => { x with st := .bank }) s)
    allowedAt 0x0101 (authorityOf .h1 s) = some true ∧ s.cel.pstate = .run ∧ authorityOf .h1 s ≠ .peer
      ∧ riseAllowed { s with cel.pstate := .cellar } = true ∧ ({ s with cel.pstate := .cellar } : State).cel.pstate = .cellar
      ∧ ({ s with cel.pstate := .falling } : State).cel.pstate = .falling
      ∧ b.cel.pstate ≠ .off ∧ b.cel.pstate ≠ .lastGasp ∧ onBanks b = true
      ∧ ({ s with cel.pstate := .lastGasp, cel.step := 3 } : State).cel.step = 3 := by decide +kernel

theorem witness_BudgetLevelFollowsTheCaps :
    let r : State := { inRun State.reset with now := 500000000 }
    let c := fun (n : Nat) (k : Fin 6) => ({ r with bgt.hostCap := n, bgt.level := k, bgt.holdUntil := some 0 } : State)
    let u := fun (s : State) => takeCaps { s with bgt.tChassis := 20, bgt.tCx2 := 40, pwr.load := sat 1023 90 }
    let o := modPw 1 (fun x => { x with st := .battery }) (modPw 0 (fun x => { x with st := .battery })
      { r with bgt.overSince := some 0, pwr.load := 1000 })
    levelsAct { r with cel.pstate := .cellar } = false ∧ r.bgt.hotOff = false
      ∧ ({ r with cel.pstate := .cellar } : State).cel.pstate ≠ .off ∧ ({ r with cel.pstate := .cellar } : State).cel.pstate ≠ .lastGasp
      ∧ levelsAct r = true ∧ levelsAct (c 3 1) = true ∧ (c 3 1).bgt.level.val < capLevel (u (c 3 1))
      ∧ (c 3 3).bgt.level.val = capLevel (u (c 3 3)) ∧ capLevel (u (c 1 3)) < (c 1 3).bgt.level.val
      ∧ (c 1 3).bgt.holdUntil = some 0 ∧ 0 ≤ (c 1 3).now ∧ capLevel (c 1 3) < (c 1 3).bgt.level.val
      ∧ levelsAct o = true ∧ o.bgt.overSince = some 0 ∧ 0 + 500000000 ≤ o.now ∧ sourceCode o ≠ 0
      ∧ 10 * ceilingW o.bgt.level.val < o.pwr.load := by decide +kernel

theorem witness_HeatOffAndTheHostCap :
    let r : State := { inRun State.reset with now := 1000000000, bgt.hotSince := some 0, bgt.hostCapUntil := some 5 }
    r.bgt.hotSince = some 0 ∧ 0 + 1000000000 ≤ r.now ∧ r.bgt.hotOff = false ∧ r.cel.pstate = .run
      ∧ ({ r with cel.pstate := .rising } : State).cel.pstate = .rising
      ∧ allowedAt 0x0120 (authorityOf .h1 r) = some true ∧ ofLE [10, 0, 0, 0] ≤ 86400
      ∧ 1 ≤ (4 : Byte).toNat ∧ (4 : Byte).toNat ≤ 4 ∧ 4 < (5 : Byte).toNat ∧ r.bgt.hostCapUntil = some 5 ∧ 5 ≤ r.now
      ∧ ({ r with now := 4 } : State).now < 5 := by decide +kernel

theorem witness_KeepAlivesNoticesAndTheSleepInstant :
    let s : State := { inRun State.reset with now := 60000000000, slp.st := .awake, slp.agree := 1, slp.kaSince := 0, slp.kaDue := none,
                                              slp.holdH1 := true, slp.sleepDelay := 5 }
    let k : State := { s with slp.kaDue := some 60000000001 }
    let w : State := { s with slp.st := .settling, slp.localWake := true, slp.localWakeDue := some 0 }
    let w2 : State := { w with slp.localWakeDue := some 60000000001 }
    let b : State := { s with slp.agree := 3, slp.masterArmed := true, slp.st := .settling, slp.armedAt := some 7, slp.sleepAt := none }
    let i : State := { b with slp.sleepAt := some 0 }
    let i2 : State := { b with slp.sleepAt := some 0xFFFFFFFFFFFFFFFF }
    let y : State := { s with slp.kaSince := 59000000000 }
    let u : State := { s with slp.agree := 3, slp.masterArmed := false }
    sleepRuns s = true ∧ isNative s = true ∧ s.slp.st ≠ .asleep ∧ demand s = true ∧ s.slp.localWake = false ∧ s.slp.kaDue = none
      ∧ k.slp.kaDue = some 60000000001 ∧ k.now < 60000000001 ∧ w.slp.localWake = true ∧ w.slp.localWakeDue = some 0
      ∧ w2.now < 60000000001 ∧ s.slp.agree ≠ 2 ∧ s.slp.kaSince + 3000000000 ≤ s.now ∧ y.now < y.slp.kaSince + 3000000000
      ∧ u.slp.agree = 3 ∧ u.slp.masterArmed = false ∧ b.slp.noticeMade = false ∧ sleepRuns b = true ∧ b.slp.sleepAt = none
      ∧ b.slp.kaSince + b.slp.sleepDelay.toNat * 1000000000 ≤ b.now ∧ i.slp.sleepAt = some 0 ∧ (0 : Dword).toNat ≤ ttime i
      ∧ ttime i2 < (0xFFFFFFFFFFFFFFFF : Dword).toNat ∧ s.cel.pstate = .run := by decide +kernel

theorem witness_SleepCommandsAndWake :
    let s : State := { inRun State.reset with slp.st := .awake, slp.agree := 2 }
    let n : State := { s with rlv.st := .interop }
    let w : State := { s with slp.st := .settling, slp.wakeSend := s.slp.wakeSend.set 0 (some (5, 0)) }
    let h := plcOn (fun p => { p with cfg := p.cfg ||| 64 }) { s with cel.pstate := .falling }
    let d := plcOn (fun p => { p with cfg := p.cfg ||| 64, line := .dc }) { s with cel.pstate := .falling }
    allowedAt 0x0B01 (authorityOf .h1 s) = some true ∧ allowedAt 0x0B01 (authorityOf .h2 s) = some true
      ∧ ownAction (authorityOf .h1 s) = true ∧ ofLE [10, 0, 0, 0] = 10 ∧ isNative s = true ∧ isNative n = false
      ∧ s.slp.agree ≠ 1 ∧ w.slp.st = .settling ∧ (2 : Byte).toNat ≤ 3 ∧ relayClosed (plc 0 h) = true
      ∧ relayClosed (plc 1 s) = false ∧ w.slp.wakeSend[(0 : Chan)] = some (5, 0) ∧ w.now < 5
      ∧ wakeListen (plc 0 h) = true ∧ h.cel.pstate = .falling ∧ (plc 0 h).line = .ac
      ∧ ((2200000 : Int) - wakeSlotNs (plc 0 h) h.slp.group).natAbs ≤ 350000
      ∧ 350000 < ((5000000 : Int) - wakeSlotNs (plc 0 h) h.slp.group).natAbs
      ∧ (plc 0 d).line ≠ .ac ∧ relayClosed (plc 0 d) = true := by decide +kernel

theorem witness_ControllersKeepHandOverAndJoin :
    let r := inRun State.reset
    let s : State := { r with now := 5000000, red.pair := .duplex, red.lastToken := 0, red.hbNextAt := 0 }
    let q : State := { s with red.lastToken := 5000000 }
    let f : State := { s with red.hbLinkFault := true }
    let o : State := { s with red.pair := .none, red.rejoinAt := some 0 }
    let m : State := { s with ids.fwB := { s.ids.fwB with major0 := s.ids.fwB.major0 + 1 } }
    partnerUp s = true ∧ partnerUp o = false ∧ s.now < q.red.lastToken + 3000000 ∧ controls s = true ∧ s.red.yield = false ∧ s.red.hbNextAt ≤ s.now ∧ s.red.pair = .duplex ∧ s.red.hbLinkFault = false
      ∧ s.red.toStep ≤ 1 ∧ s.red.lastToken + 3000000 ≤ s.now ∧ q.now < q.red.lastToken + 3000000 ∧ f.red.hbLinkFault = true
      ∧ o.red.pair ≠ .duplex ∧ s.red.toStep = 0 ∧ s.cel.pstate = .run
      ∧ ({ s with red.toStep := 1, red.toAt := 0 } : State).red.toAt ≤ s.now
      ∧ runMajor (fwOf .a m) ≠ runMajor (fwOf .b m) ∧ runMajor (fwOf .a s) = runMajor (fwOf .b s)
      ∧ s.cel.pstate ≠ .off ∧ o.red.rejoinAt = some 0 ∧ (slot (ctSlot (otherCt o)) o).st ≠ 0
      ∧ allowedAt 0x0C02 (authorityOf .h1 s) = some true := by decide +kernel

theorem witness_RemovalsArePreparedAndViewsCompared :
    let s := inRun State.reset
    let p := fun (n : Slot) (v : LeverState) => ({ s with red.lever := s.red.lever.set n v } : State)
    let b : State := { s with rlv.plcOnly := true, red.lever := s.red.lever.set 8 .preparing }
    let e := modSlot 9 (fun _ => SlotState.empty) s
    let d : State := { s with red.differs := 1 }
    s.cel.pstate ≠ .off ∧ (slot 9 s).st ≠ 0 ∧ leverBusy 9 s = false ∧ (slot 9 e).st = 0 ∧ s.red.lever[(9 : Slot)] = .none
      ∧ (p 9 .preparing).red.lever[(9 : Slot)] = .preparing ∧ (p 9 .safe).red.lever[(9 : Slot)] = .safe
      ∧ leverBusy 9 (p 9 .safe) = true ∧ slotCt 9 = none ∧ unsafeReason 9 (p 9 .preparing) = 0 ∧ unsafeReason 8 b ≠ 0
      ∧ slotCt 3 = some .b ∧ slotCt 2 = some (activeCt s) ∧ ({ s with red.pair := .duplex } : State).red.pair = .duplex
      ∧ s.cel.pstate = .run ∧ Ct.b ≠ activeCt s ∧ s.red.toStep = 0
      ∧ allowedAt 0x0C01 (authorityOf .h1 s) = some true ∧ releaseBody [9, 0, 0] = some 9
      ∧ s.red.differs.getLsbD (0 : Fin 15).val = false ∧ d.red.differs.getLsbD (0 : Fin 15).val = true := by decide +kernel

theorem witness_ConfigSetsAreStagedCommittedAndApplied :
    let s := inRun State.reset
    let i : CfgItem := ⟨0x06, 0xFF, [16, 0, 0, 0, 0, 0, 0, 0]⟩
    let f : CfgItem := ⟨0x10, 0xFF, [0, 0, 0, 0]⟩
    let g : State := { s with red.cfgState := .staged, red.cfgItems := [i], red.cfgOwner := .h1 }
    let o : State := { g with red.cfgOwner := .h2 }
    let n : State := { g with red.cfgItems := [f] }
    let c : State := { g with red.cfgState := .committing, red.cfgCycle := 0 }
    let w : State := { g with red.cfgState := .forcing, red.itemAt := some 0, red.cfgCycle := 0 }
    let h : State := { n with red.cfgState := .forcing, red.itemAt := some 0, tc.fetchHold := some 5 }
    let x : State := { w with red.itemAt := none, red.orderWait := some (0, 0) }
    allowedAt 0x0C10 (authorityOf .h1 s) = some true ∧ allowedAt 0x0C11 (authorityOf .h1 s) = some true
      ∧ allowedAt 0x0C12 (authorityOf .h1 s) = some true
      ∧ foreignSet ⟨.h1, 0, []⟩ g = false ∧ foreignSet ⟨.h1, 0, []⟩ o = true ∧ committing g = false ∧ committing c = true
      ∧ s.red.cfgState = .empty ∧ g.red.cfgState ≠ .empty ∧ swappable f = false
      ∧ c.red.cfgCycle ≤ cycleIdx c ∧ c.red.itemAt = none ∧ c.red.orderWait = none ∧ c.red.cfgNext = 0 ∧ c.rrw.locked = false
      ∧ ({ c with rrw.locked := true } : State).rrw.locked = true
      ∧ cycleIdx c < ({ c with red.cfgCycle := 100000000000 } : State).red.cfgCycle
      ∧ w.rrw.locked = false ∧ w.red.cfgItems[w.red.cfgNext]? = some i ∧ itemReady i (retireAll w) = true ∧ quiet i (retireAll w) = true
      ∧ w.red.cfgNext + 1 = w.red.cfgItems.length ∧ quiet f (retireAll h) = false ∧ w.now < 0 + 10000000000
      ∧ 0 + 10000000000 ≤ ({ w with now := 10000000000 } : State).now
      ∧ x.red.orderWait = some (0, 0) ∧ itemReady i x = true ∧ 0 ≤ x.now := by decide +kernel

theorem witness_AnItemIsStaged :
    let s := inRun State.reset
    let i : CfgItem := ⟨0x06, 0xFF, [16, 0, 0, 0, 0, 0, 0, 0]⟩
    let j : CfgItem := ⟨0x06, 0xFF, [16, 0, 0, 0]⟩
    let b : List Byte := [1, 0, 0, 0, 0x06, 0xFF, 8, 0, 16, 0, 0, 0, 0, 0, 0, 0]
    let k : List Byte := [1, 0, 0, 0, 0x06, 0xFF, 4, 0, 16, 0, 0, 0]
    readItems b.length (b.drop 4) = some [i] ∧ leAt b 0 2 = 1 ∧ zeros b 2 4 = true ∧ itemBad false i = false
      ∧ itemsBad false ([i].foldl stageItem s.red.cfgItems) s = none ∧ setBytes ([i].foldl stageItem s.red.cfgItems) ≤ 1048576
      ∧ readItems k.length (k.drop 4) = some [j] ∧ leAt k 0 2 = 1 ∧ itemBad false j = true := by decide +kernel

theorem witness_AuthorityProfilesIdentityAndFirmware :
    let s := inRun State.reset
    let l : State := { s with sys.plock := true }
    let c : State := { s with red.cfgState := .forcing }
    let v : State := { s with ids.fwA := { s.ids.fwA with valid1 := true } }
    let t : State := { s with ids.fwA := { s.ids.fwA with trial := some s.ids.fwA.running } }
    let j : State := { s with red.joinStep := 1, ids.fwB := { s.ids.fwB with trial := some s.ids.fwB.running } }
    let e : FlashOp := ⟨.h1, 1, 0x0D11, 0x2000, [], 4096, 0⟩
    let p : FlashOp := ⟨.h1, 1, 0x0D12, 0x2000, [7], 0, 0⟩
    allowedAt 0x0D01 (authorityOf .h2 s) = some false ∧ allowedAt 0x0D01 (authorityOf .h1 s) = some true ∧ l.sys.plock = true
      ∧ s.sys.plock = false ∧ committing c = true ∧ committing s = false
      ∧ allowedAt 0x0D10 (authorityOf .h1 s) = some true ∧ zeros [0, 32, 0, 0, 4, 0, 0, 0] 6 8 = true
      ∧ allowedAt 0x0D11 (authorityOf .h1 s) = some true ∧ allowedAt 0x0D12 (authorityOf .h1 s) = some true
      ∧ (touched 0x2000 4096).all (fun x => mayChange true .owner x s) = true
      ∧ (touched 0x2000 4096).contains (.profile s.ids.activeProf.toNat) = false ∧ s.ids.op = none ∧ s.ids.flash = []
      ∧ ({ s with ids.op := some e } : State).ids.op = some e ∧ ({ s with ids.op := some p } : State).ids.op = some p
      ∧ memWf flashFill s.ids.flash = true ∧ s.ids.held = []
      ∧ (fwOf .a { s with ids.fwA := { s.ids.fwA with op := some e } }).op = some e
      ∧ (fwOf .a { t with cel.pstate := .rising }).trial = some (fwOf .a t).running ∧ Ct.a = activeCt t
      ∧ ctOfSlot (2 : Byte).toNat = some .a ∧ (slot (ctSlot .a) s).st ≠ 0 ∧ bankInUse (fwOf .a s) 1 = false ∧ (fwOf .a s).op = none
      ∧ allowedAt 0x0D21 (authorityOf .h1 s) = some true ∧ allowedAt 0x0D22 (authorityOf .h1 s) = some true
      ∧ firstUsed 0 1 (bankCells (fwOf .a s) 1) = none ∧ allowedAt 0x0D23 (authorityOf .h1 s) = some true
      ∧ (fwOf .a s).running = false ∧ (fwOf .a s).valid1 = false ∧ (fwOf .a v).valid1 = true ∧ (fwOf .a s).trial = none
      ∧ (fwOf .a t).trial = some (fwOf .a t).running ∧ Ct.b ≠ activeCt j ∧ j.red.joinStep ≠ 0
      ∧ (fwOf .b j).trial = some (fwOf .b j).running ∧ (fwOf .b j).failedStarts < 2 := by decide +kernel

theorem witness_AProfileIsRead :
    let s := inRun State.reset
    let p := profiled s
    let m := modCtx .h1 1 (fun x => { x with txState := .running }) { p with hif.h2Base := 1 }
    profileValid 0 s = false ∧ profileValid 0 p = true ∧ p.sys.plock = false ∧ committing p = false
      ∧ (match readProfile 0 p with | .inl f => basesMove (profileBase f) p | .inr _ => true) = false
      ∧ (match readProfile 0 m with | .inl f => basesMove (profileBase f) m | .inr _ => false) = true := by decide +kernel

theorem witness_TheStoreRoomCommitsAndReads :
    let s := inRun State.reset
    let p : PendRec := ⟨0x2001, false, false, false, none, []⟩
    let w : State := { s with srm.pend := [p] }
    let x : Sr1 := { s.srm.sr1 with nextSeq := 0xFFFFFFF0 }
    let e : State := { w with srm.sr1 := x }
    let l : State := { w with srm.sr1 := { s.srm.sr1 with nextSeq := 0xFFFFFFEF } }
    let b : State := { s with srm.buckets := Tab.put 0x2001 ⟨0, 0, some 0⟩ [] }
    let m : State := { s with srm.writerOn := true, srm.markDue := some 0 }
    let n := modSlot srSlot (fun y => { y with st := 1 }) s
    let o := modLink .h1 (fun h => { h with items := List.replicate 4 ⟨0x0E01, 0, 0, false, false, 0, 0, []⟩ }) s
    s.srm.pend = [] ∧ w.srm.pend = [p] ∧ srWritable w = true ∧ lastSeq < e.srm.sr1.nextSeq.toNat
      ∧ w.srm.sr1.nextSeq.toNat ≤ lastSeq ∧ l.srm.sr1.nextSeq.toNat = lastSeq ∧ p.perm = false
      ∧ w.srm.sr1.detail.length = 7 ∧ w.srm.sr1.cur < 7 ∧ due (bucket 0x2001 s).refillAt s = false
      ∧ due (bucket 0x2001 b).refillAt b = true ∧ m.srm.writerOn = true ∧ due m.srm.markDue m = true
      ∧ due s.srm.markDue s = false ∧ (slot srSlot s).st ≠ 1 ∧ (slot srSlot n).st = 1
      ∧ allowedAt 0x0E01 (authorityOf .h1 s) = some true ∧ slotReady srSlot s = true ∧ slotReady srSlot n = false
      ∧ s.cel.pstate = .run ∧ openReads s < 4 ∧ 4 ≤ openReads o := by decide +kernel

theorem witness_TheLedgerTurnsAtItsBoundaries :
    let s := hostUp (inRun State.reset)
    let i : Interval := ⟨1, 0, 0, 1, 0, 0, shareOpens 0 s, shareOpens 1 s, [], 0, 0, true, false⟩
    let j : Interval := { i with pwA := shareBegins 0 s i.pwA, pwB := shareBegins 1 s i.pwB }
    let o : State := { s with ldg.open_ := some i, ldg.due := 0 }
    let b : State := { o with ldg.open_ := some { i with back := true } }
    let k : State := { o with ldg.kept := List.replicate 63 i }
    let c : State := { s with ldg.copyDue := some 0 }
    s.ldg.open_ = none ∧ ttime { o with ldg.due := 0xFFFFFFFFFFFFFFFF } < (0xFFFFFFFFFFFFFFFF : Dword).toNat
      ∧ o.ldg.open_ = some i ∧ o.ldg.due.toNat ≤ ttime o ∧ b.ldg.open_ = some { i with back := true }
      ∧ mono b - i.startMono.toNat < ldgSecs i.lenCode * 1024 ∧ i.back = false ∧ o.srm.writerOn = false ∧ 63 ≤ k.ldg.kept.length + k.ldg.closing.length
      ∧ o.ldg.kept.length + o.ldg.closing.length < 63 ∧ o.ldg.closing = [] ∧ awaits (closedAs i 0 s) = false
      ∧ awaits (closedAs j 0 s) = true ∧ ttime { o with ldg.due := 5 } < (5 : Dword).toNat ∧ c.ldg.copyDue = some 0 ∧ 0 ≤ c.now
      ∧ ({ c with ldg.copyDue := some (c.now + 1) } : State).ldg.copyDue = some (c.now + 1)
      ∧ inL0 ⟨.h1, .a⟩ s = true ∧ epActive ⟨.h1, .a⟩ s = true ∧ s.rrw.locked = false
      ∧ (decide (fieldOf 1 0 2 = s.ldg.len.toNat) && decide (fieldOf 1 8 8 = s.ldg.offsetS.toNat)) = true
      ∧ (decide (fieldOf 2 0 2 = s.ldg.len.toNat) && decide (fieldOf 2 8 8 = s.ldg.offsetS.toNat)) = false := by decide +kernel

theorem witness_ServicePortsAndTheReturnCapsule :
    let s := inRun State.reset
    let seg := fun (b1 : Byte) (m : List Byte) => (0x21 :: b1 :: 0 :: BitVec.ofNat 8 m.length :: m : List Byte)
    let msg : List Byte := [0x20, 0x0C, 5, 0, 8, 0, 0, 0, 0, 0, 0, 0, 1, 2, 3, 4]
    let f := fun (b1 : Byte) => (⟨spBroadcast, 9, 0x88B5, seg b1 msg⟩ : SpFrame)
    let p := modSp .a (fun x => { x with peer := some 9, partsAt := some 0 }) s
    let q : State := { p with now := 10000000000 }
    let k : CapsuleState := ⟨.h1, 0, false, 0, 0⟩
    let c : State := { s with svc.capsule := some k }
    (slot (ctSlot .a) s).st ≠ 0 ∧ spServes s = true ∧ spSegment .a ⟨0, 9, 0x0800, []⟩ = none
      ∧ spSegment .a (f 0) = some (false, 0, msg) ∧ spSegment .a (f 0x80) = some (true, 0, msg)
      ∧ (mgmtMsg msg).ok = true ∧ spUnpaired .a s = false ∧ allowedAt (mgmtMsg msg).opcode.toNat .maintainer = some true
      ∧ reservedAction (mgmtMsg msg).opcode (mgmtMsg msg).body = false
      ∧ (spOf .a s).answered = [] ∧ (spOf .a p).partsAt = some 0 ∧ p.now < 0 + 100000000 ∧ 0 + 100000000 ≤ q.now
      ∧ (spOf .a p).peer = some 9 ∧ (spOf .a q).lastFrame + 10000000000 ≤ q.now ∧ p.now < (spOf .a p).lastFrame + 10000000000
      ∧ allowedAt 0x0C20 (authorityOf .h1 s) = some true ∧ c.svc.capsule.isSome = true ∧ s.svc.capsule = none
      ∧ slotReady srSlot s = true ∧ s.cel.pstate = .run ∧ s.svc.capsuleEnd = none
      ∧ s.now < 0 + 60000000000 ∧ ({ s with svc.capsuleEnd := some 0 } : State).svc.capsuleEnd = some 0
      ∧ slotReady srSlot (modSlot srSlot (fun y => { y with st := 1 }) s) = false
      ∧ c.svc.capsule = some k ∧ k.startAt ≤ ttime c
      ∧ ttime { c with svc.capsule := some { k with startAt := 10 ^ 30 } } < 10 ^ 30 := by decide +kernel
end

section
/-! SUPPORT. How frames compose, the frames of the shared operations, and what the tables, the endpoints and the offsets of register pairs
answer. -/
namespace Sys2Proof.Machine

/-! ### Frames compose -/

theorem samePart_refl (p : Part) (s : State) : samePart p s s := by cases p <;> rfl

theorem samePart_trans {p : Part} {s t u : State} (h : samePart p s t) (k : samePart p t u) : samePart p s u := by
  cases p <;> exact Eq.trans k h

theorem onlyChanges_refl (ps : List Part) (s : State) : onlyChanges ps s s :=
  ⟨rfl, rfl, rfl, fun p _ => samePart_refl p s⟩

theorem onlyChanges_mono {ps qs : List Part} {s t : State} (h : onlyChanges ps s t) (hs : ps ⊆ qs) : onlyChanges qs s t := by
  obtain ⟨hpending, hnow, hquantum, hparts⟩ := h
  exact ⟨hpending, hnow, hquantum, fun p hp => hparts p fun hq => hp (hs hq)⟩

theorem onlyChanges_trans {ps : List Part} {s t u : State} (h : onlyChanges ps s t) (k : onlyChanges ps t u) :
    onlyChanges ps s u := by
  obtain ⟨hpending, hnow, hquantum, hparts⟩ := h
  obtain ⟨kpending, know, kquantum, kparts⟩ := k
  exact ⟨kpending.trans hpending, know.trans hnow, kquantum.trans hquantum,
    fun p hp => samePart_trans (hparts p hp) (kparts p hp)⟩

theorem hostSame_refl (s : State) : hostSame s s := fun _ _ => rfl

theorem hostSame_trans {s t u : State} (h : hostSame s t) (k : hostSame t u) : hostSame s u :=
  fun l a => (k l a).trans (h l a)

/-- Host memory is as before where each link's memory is. -/
theorem hostSame_of_hmem {s t : State} (h : ∀ l, (hlink l t).hmem = (hlink l s).hmem) : hostSame s t :=
  fun l a => by rw [h l]

/-! ### Frames of the shared operations -/

theorem raise_onlyChanges (code : Half) (data : List Byte) (s : State) : onlyChanges eventParts s (raise code data s) := by
  refine ⟨by simp, by simp, by simp, fun p hp => ?_⟩
  cases p <;> simp [samePart, eventParts] at hp ⊢

theorem raise_hostSame (code : Half) (data : List Byte) (s : State) : hostSame s (raise code data s) :=
  hostSame_of_hmem fun l => by simp

theorem emit_onlyChanges (x : Emission) (s : State) : onlyChanges [.out] s (emit x s) := by
  refine ⟨rfl, rfl, rfl, fun p hp => ?_⟩
  cases p <;> simp [samePart] at hp ⊢

theorem emit_hostSame (x : Emission) (s : State) : hostSame s (emit x s) := hostSame_of_hmem fun _ => rfl

theorem modEndpoint_onlyChanges (e : Endpoint) (g : EndpointState → EndpointState) (s : State) :
    onlyChanges [.hif] s (modEndpoint e g s) := by
  refine ⟨by simp, by simp, by simp, fun p hp => ?_⟩
  cases p <;> simp [samePart] at hp ⊢

@[simp] theorem hlink_modEndpoint (l : Link) (e : Endpoint) (g : EndpointState → EndpointState) (s : State) :
    hlink l (modEndpoint e g s) = hlink l s := by
  cases l <;> simp [hlink]

theorem modEndpoint_hostSame (e : Endpoint) (g : EndpointState → EndpointState) (s : State) :
    hostSame s (modEndpoint e g s) := hostSame_of_hmem fun l => by simp

theorem modLink_onlyChanges (l : Link) (g : HifLink → HifLink) (s : State) : onlyChanges [.hif] s (modLink l g s) := by
  refine ⟨by simp, by simp, by simp, fun p hp => ?_⟩
  cases p <;> simp [samePart] at hp ⊢

/-- A change of a link's state that keeps its memory keeps every host memory. -/
theorem modLink_hostSame (l : Link) (g : HifLink → HifLink) (s : State) (hg : ∀ h, (g h).hmem = h.hmem) :
    hostSame s (modLink l g s) := by
  refine hostSame_of_hmem fun x => ?_
  by_cases hx : x = l
  · subst hx; rw [hlink_modLink, hg]
  · rw [hlink_modLink_ne _ _ _ _ hx]

/-! ### Tables -/

@[simp] theorem Tab.find_put_same {α : Type} (k : Nat) (v : α) (t : Tab α) : Tab.find k (Tab.put k v t) = some v := by
  induction t with
  | nil => simp [Tab.put, Tab.find]
  | cons x rest ih =>
    obtain ⟨i, w⟩ := x
    rw [Tab.put]
    split
    · simp [Tab.find]
    · split
      · simp [Tab.find]
      · next hne => rw [Tab.find, if_neg fun h => hne h.symm, ih]

/-! ### Endpoints -/

/-- An endpoint's pending and latched halves do not decide whether its link is in L0. -/
theorem inL0_modEndpoint {e : Endpoint} {g : EndpointState → EndpointState} {s : State}
    (hg : ∀ x, (g x).power = x.power) : inL0 e (modEndpoint e g s) = inL0 e s := by
  simp [inL0, hg, prsnt]

@[simp] theorem epActive_modEndpoint (x e : Endpoint) (g : EndpointState → EndpointState) (s : State) :
    epActive x (modEndpoint e g s) = epActive x s := by
  simp [epActive, activeCt]

/-! ### Offsets of register pairs -/

theorem inTable_iff {base size n at_ a : Nat} :
    inTable base size n at_ a = true ↔ base ≤ a ∧ a < base + size * n ∧ (a - base) % size = at_ := by
  simp [inTable, and_assoc]

/-- The _LO half of a 64-bit register is an aligned word below the maker range. -/
theorem readLo_aligned {a : Nat} (h : readLo a = true) : a % 4 = 0 ∧ a < 0x38000 := by
  simp only [readLo, writeLo, Bool.or_eq_true, beq_iff_eq, inTable_iff] at h
  omega

/-- No _HI half is the _LO half of another register. -/
theorem readLo_add_four {a : Nat} (h : readLo a = true) : readLo (a + 4) = false := by
  rw [Bool.eq_false_iff]
  intro k
  simp only [readLo, writeLo, Bool.or_eq_true, beq_iff_eq, inTable_iff] at h k
  omega

end Sys2Proof.Machine
end

section
/-! SUPPORT. Host accesses to registers (R9 to R14, R477, R635): what a read latches, what a write holds, commits or is denied. Settles O8,
O9 and O10. -/
namespace Sys2Proof.Machine

/-! ### What the access commands do -/

theorem exec_writeLo (ep : Endpoint) (off : Offset) (v : Word) (s : State) :
    exec (.writeLo ep off v) s = .next (hostAccess ep true off v s) := rfl
theorem exec_writeHi (ep : Endpoint) (off : Offset) (v : Word) (s : State) :
    exec (.writeHi ep off v) s = .next (hostAccess ep true off v s) := rfl
theorem exec_readLo (ep : Endpoint) (off : Offset) (s : State) :
    exec (.readLo ep off) s = .next (hostAccess ep false off 0 s) := rfl
theorem exec_readHi (ep : Endpoint) (off : Offset) (s : State) :
    exec (.readHi ep off) s = .next (hostAccess ep false off 0 s) := rfl
theorem exec_registerWrite (ep : Endpoint) (off : Offset) (v : Word) (s : State) :
    exec (.registerWrite ep off v) s = .next (hostAccess ep true off v s) := rfl

/-- A bad access is none of the aligned accesses of 32 bits that the command passes over. -/
theorem exec_misalignedAccess_of_bad {off : Offset} {width : Nat} (ep : Endpoint) (isWrite : Bool) (s : State)
    (h : badAccess off width = true) :
    exec (.misalignedAccess ep isWrite off width) s = .next (misaligned ep isWrite off s) := by
  have hbad : ¬(width = 4 ∧ off.toNat % 4 = 0) := fun ⟨hw, ha⟩ => by
    rw [badAccess, hw, ha] at h
    exact absurd h (by decide)
  rw [exec, execMisalignedAccess, if_neg (by simpa only [Bool.and_eq_true, decide_eq_true_eq] using hbad)]

/-- An aligned write below the maker range, of any register but LDG_CFG, is a register write. -/
theorem hostAccess_write {ep : Endpoint} {off : Offset} (v : Word) (s : State) (hr : off.toNat < 0xF0000)
    (ha : off.toNat % 4 = 0) (hl : off.toNat ≠ 0x22000) : hostAccess ep true off v s = hostWrite ep off v s := by
  simp [hostAccess, Nat.not_le.mpr hr, ha, hl]

/-- An aligned read below the maker range is a register read. -/
theorem hostAccess_read {ep : Endpoint} {off : Offset} (v : Word) (s : State) (hr : off.toNat < 0xF0000)
    (ha : off.toNat % 4 = 0) : hostAccess ep false off v s = hostRead ep off s := by
  simp [hostAccess, Nat.not_le.mpr hr, ha]

/-! ### Reads (R11) -/

/-- A read of _LO answers the register and latches _HI. -/
theorem hostRead_lo {ep : Endpoint} {off : Offset} {s : State} (h : inL0 ep s = true) (hlo : readLo off.toNat = true) :
    hostRead ep off s = emit (.readReply ep off (readWord ep off.toNat s))
      (modEndpoint ep
        (fun e => { e with latchHi := Tab.put (off.toNat + 4) (readWord ep (off.toNat + 4) s) e.latchHi }) s) := by
  simp [hostRead, h, hlo]

/-- A read of _HI with a latch answers the latch and releases it. -/
theorem hostRead_latched {ep : Endpoint} {off : Offset} {w : Word} {s : State} (h : inL0 ep s = true)
    (hlo : readLo off.toNat = false) (hhi : readHi off.toNat = true)
    (hw : Tab.find off.toNat (endpoint ep s).latchHi = some w) :
    hostRead ep off s = emit (.readReply ep off w)
      (modEndpoint ep (fun e => { e with latchHi := Tab.erase off.toNat e.latchHi }) s) := by
  simp [hostRead, h, hlo, hhi, hw]

/-- A reply with a change of an endpoint's own state changes nothing else. -/
theorem emit_modEndpoint_frame (x : Emission) (e : Endpoint) (g : EndpointState → EndpointState) (s : State) :
    onlyChanges [.hif, .out] s (emit x (modEndpoint e g s)) ∧ hostSame s (emit x (modEndpoint e g s)) :=
  ⟨onlyChanges_trans (onlyChanges_mono (modEndpoint_onlyChanges e g s) (by simp))
      (onlyChanges_mono (emit_onlyChanges x _) (by simp)),
    hostSame_trans (modEndpoint_hostSame e g s) (emit_hostSame x _)⟩

/-- The offset of a _HI half, from that of its _LO half. -/
theorem hiOffset_toNat {off : Offset} (h : readLo off.toNat = true) : (off + 4).toNat = off.toNat + 4 := by
  have hb := (readLo_aligned h).2
  rw [BitVec.toNat_add]
  exact Nat.mod_eq_of_lt (by simp; omega)

/-! ### Writes (R10, R14, R477) -/

/-- A host's write at offset `a` gets past the checks of L0, of the link's authority, of the active controller and of ownership, outside
the MSI-X table. -/
structure WriteReaches (ep : Endpoint) (a : Nat) (s : State) : Prop where
  l0 : inL0 ep s = true
  active : epActive ep s = true
  allowed : ep.link = .h1 ∨ h2May a s = true
  notMsix : isMsix a = false
  own : foreignReg ep.link a s = false

theorem hostWrite_of_reaches {ep : Endpoint} {off : Offset} {s : State} (v : Word) (h : WriteReaches ep off.toNat s) :
    hostWrite ep off v s =
      if writeLo off.toNat then
        if lockedReg ep.link off.toNat s then s
        else modEndpoint ep (fun e => { e with pendingLo := Tab.put off.toNat v e.pendingLo }) s
      else if writeHi off.toNat then
        if lockedReg ep.link off.toNat s then s
        else commitWrite ep off (Tab.find (off.toNat - 4) (endpoint ep s).pendingLo) v
          (modEndpoint ep (fun e => { e with pendingLo := Tab.erase (off.toNat - 4) e.pendingLo }) s)
      else commitWrite ep off none v s := by
  obtain ⟨hl0, hact, hmay, hmsix, hown⟩ := h
  have hden : (ep.link == .h2 && !h2May off.toNat s) = false := by
    rcases hmay with hl | hm
    · simp [hl]
    · simp [hm]
  simp [hostWrite, hl0, hact, hden, hmsix, hown]

/-- The endpoint holds a write of a _LO half until that of its _HI half (R10). -/
def holdLo (a : Nat) (v : Word) (e : EndpointState) : EndpointState := { e with pendingLo := Tab.put a v e.pendingLo }
/-- The write of the _HI half takes the pending _LO with it. -/
def takeLo (a : Nat) (e : EndpointState) : EndpointState := { e with pendingLo := Tab.erase a e.pendingLo }

/-- A write of an unlocked _LO half is held by the endpoint. -/
theorem hostWrite_lo {ep : Endpoint} {off : Offset} {a : Nat} {s : State} (v : Word) (ha : off.toNat = a)
    (h : WriteReaches ep a s) (hlo : writeLo a = true) (hk : lockedReg ep.link a s = false) :
    hostWrite ep off v s = modEndpoint ep (holdLo a v) s := by
  subst ha
  rw [hostWrite_of_reaches v h, if_pos hlo, hk]
  rfl

/-- A write of an unlocked _HI half is committed with what is pending for its _LO half. -/
theorem hostWrite_hi {ep : Endpoint} {off : Offset} {a : Nat} {s : State} (v : Word) (ha : off.toNat = a + 4)
    (h : WriteReaches ep (a + 4) s) (hlo : writeLo a = true) (hhi : writeLo (a + 4) = false)
    (hk : lockedReg ep.link (a + 4) s = false) :
    hostWrite ep off v s
      = commitWrite ep off (Tab.find a (endpoint ep s).pendingLo) v (modEndpoint ep (takeLo a) s) := by
  have h' : WriteReaches ep off.toNat s := ha ▸ h
  have hpair : writeHi (a + 4) = true := by simp [writeHi, hlo]
  rw [hostWrite_of_reaches v h', ha, hhi, hpair, hk, Nat.add_sub_cancel]
  rfl

/-- Without a lock a write outside the MSI-X table takes effect at once. -/
theorem commitWrite_unlocked {ep : Endpoint} {off : Offset} {s : State} (lo : Option Word) (v : Word)
    (h : s.rrw.locked = false) (hm : isMsix off.toNat = false) :
    commitWrite ep off lo v s = regWrite ep.link off.toNat lo v s := by
  simp [commitWrite, h, writeNow, hm]

/-- Under a lock a write is held, in order, and changes nothing else. -/
theorem commitWrite_locked {ep : Endpoint} {off : Offset} {s : State} (lo : Option Word) (v : Word)
    (h : s.rrw.locked = true) :
    commitWrite ep off lo v s = { s with rrw.held := s.rrw.held ++ [⟨ep, off, v, lo⟩] } := by
  simp [commitWrite, h]

/-- Outside the completion queues and the contexts a register belongs to either link. -/
theorem foreignReg_of_none {a : Nat} (l : Link) (s : State) (hx : ctxAt a = none) (hq : cqAt a = none) :
    foreignReg l a s = false := by
  simp [foreignReg, hx, hq]

/-- Outside the page addresses, the completion queues, the contexts and the mailboxes no register is locked. -/
theorem lockedReg_of_none {a : Nat} (l : Link) (s : State) (hp : a < 0x1008 ∨ 0x1018 ≤ a) (hx : ctxAt a = none)
    (hq : cqAt a = none) (hm : mbxAt a = none) : lockedReg l a s = false := by
  have : ¬(0x1008 ≤ a ∧ a < 0x1018) := by omega
  simp [lockedReg, this, hx, hq, hm]

/-- The page addresses of a link are locked by its MGMT_EN. -/
theorem lockedReg_page {a : Nat} (l : Link) (s : State) (h : 0x1008 ≤ a ∧ a < 0x1018) :
    lockedReg l a s = (hlink l s).mgmtEn := by
  simp [lockedReg, h]

/-- A write of the _HI half of a pair that the link owns and nothing locks. -/
theorem regWrite_pair {l : Link} {a : Nat} {s : State} (lo : Option Word) (v : Word) (hf : foreignReg l a s = false)
    (hk : lockedReg l a s = false) (hhi : writeHi a = true) : regWrite l a lo v s = writePair l a lo v s := by
  simp [regWrite, hf, hk, hhi]

/-- A write that R635 denies through H2. -/
theorem hostWrite_denied {ep : Endpoint} {off : Offset} {s : State} (v : Word) (hl0 : inL0 ep s = true)
    (hl : ep.link = .h2) (hm : h2May off.toNat s = false) : hostWrite ep off v s = deniedWrite off.toNat s := by
  simp [hostWrite, hl0, hl, hm]

/-- An event of limited spacing is raised, on the state that notes it, or not. -/
theorem raiseSpaced_cases (last : Option Ns) (d : Ns) (note : State → State) (code : Half) (data : List Byte) (s : State) :
    raiseSpaced last d note code data s = s ∨ raiseSpaced last d note code data s = raise code data (note s) := by
  rw [raiseSpaced]
  split
  · exact .inr rfl
  · exact .inl rfl

/-- A denied write counts, latches the offset with port 1, H2 (Table 17.10), and may raise event 0xD002. -/
theorem deniedWrite_cases (a : Nat) (s : State) :
    ∃ x : SecUnit, x.cntDeniedWr = s.sec.cntDeniedWr + 1 ∧ x.lastDenied = word (putBits 12 20 a + putBits 0 4 1)
      ∧ (deniedWrite a s = { s with sec := x } ∨ deniedWrite a s = raise 0xD002 (d2 a) { s with sec := x }) := by
  obtain h | h := raiseSpaced_cases s.sec.wrEvAt (sec 1) (fun t => { t with sec.wrEvAt := some t.now }) 0xD002 (d2 a)
    { s with sec.cntDeniedWr := s.sec.cntDeniedWr + 1, sec.lastDenied := word (putBits 12 20 a + putBits 0 4 1) }
  · exact ⟨_, rfl, rfl, .inl h⟩
  · exact ⟨_, rfl, rfl, .inr h⟩

theorem sec_onlyChanges (x : SecUnit) (s : State) : onlyChanges [.sec] s { s with sec := x } := by
  refine ⟨rfl, rfl, rfl, fun p hp => ?_⟩
  cases p <;> simp [samePart] at hp ⊢

/-- An event on a state of which only the authority unit differs. -/
theorem raise_sec_frame (code : Half) (data : List Byte) (x : SecUnit) (s : State) :
    onlyChanges (.sec :: eventParts) s (raise code data { s with sec := x })
    ∧ hostSame s (raise code data { s with sec := x }) :=
  ⟨onlyChanges_trans (onlyChanges_mono (sec_onlyChanges x s) (by simp)) (onlyChanges_mono (raise_onlyChanges _ _ _) (by simp)),
    raise_hostSame code data { s with sec := x }⟩

theorem deniedWrite_spec (a : Nat) (s : State) :
    (deniedWrite a s).sec.cntDeniedWr = s.sec.cntDeniedWr + 1
    ∧ (deniedWrite a s).sec.lastDenied = word (putBits 12 20 a + putBits 0 4 1)
    ∧ onlyChanges (.sec :: eventParts) s (deniedWrite a s) ∧ hostSame s (deniedWrite a s) := by
  obtain ⟨x, hcnt, hlast, h | h⟩ := deniedWrite_cases a s
  · rw [h]
    exact ⟨hcnt, hlast, onlyChanges_mono (sec_onlyChanges x s) (by simp), hostSame_refl s⟩
  · rw [h, raise_sec]
    exact ⟨hcnt, hlast, raise_sec_frame 0xD002 (d2 a) x s⟩

/-! ### O8 -/

/-- Settles O8: a bad access is a `misaligned` one, whose two forms are a discarded write and a reply of all ones. -/
theorem wrongWidthOrAlignmentIsDiscarded : Obligations.WrongWidthOrAlignmentIsDiscarded := by
  intro ep off width s hbad hl0
  rw [exec_misalignedAccess_of_bad ep true s hbad, exec_misalignedAccess_of_bad ep false s hbad]
  exact ⟨by simp [misaligned], by simp [misaligned, hl0]⟩

/-! ### O10 -/

/-- H1's write below the page addresses reaches the node. -/
theorem sysWrite_reaches {ct : Ct} {a : Nat} {s : State} (ha : a < 0x1008) (hl0 : inL0 ⟨.h1, ct⟩ s = true)
    (hact : epActive ⟨.h1, ct⟩ s = true) : WriteReaches ⟨.h1, ct⟩ a s where
  l0 := hl0
  active := hact
  allowed := .inl rfl
  notMsix := by simp [isMsix]; omega
  own := foreignReg_of_none _ _ (by simp [ctxAt]; omega) (by simp [cqAt]; omega)

/-- Below the page addresses there is no _LO half that takes writes. -/
theorem writeLo_sys {a : Nat} (ha : a < 0x1008) : writeLo a = false := by
  rw [Bool.eq_false_iff]
  intro k
  simp only [writeLo, Bool.or_eq_true, beq_iff_eq, inTable_iff] at k
  omega

/-- H1's write to a register that is no half of a pair is committed. -/
theorem hostWrite_sys {ct : Ct} {off : Offset} {s : State} (v : Word) (ha : off.toNat < 0x1008)
    (hl0 : inL0 ⟨.h1, ct⟩ s = true) (hact : epActive ⟨.h1, ct⟩ s = true) :
    hostWrite ⟨.h1, ct⟩ off v s = commitWrite ⟨.h1, ct⟩ off none v s := by
  have hlo : writeLo off.toNat = false := writeLo_sys ha
  have hhi : writeHi off.toNat = false := by simp [writeHi, writeLo_sys (show off.toNat - 4 < 0x1008 by omega)]
  rw [hostWrite_of_reaches v (sysWrite_reaches ha hl0 hact), hlo, hhi]
  rfl

/-- The W1C bits of SYS_HFLT (Table 2.22). -/
theorem regWrite_hflt (l : Link) (v : Word) (s : State) :
    regWrite l 0x2C none v s
      = { s with sys.fvSeen := s.sys.fvSeen &&& ~~~(BitVec.ofNat 8 (fieldOf v 8 8)),
                 sys.battARev := s.sys.battARev && !flagOf v 4, sys.battBRev := s.sys.battBRev && !flagOf v 5 } := by
  have hf : foreignReg l 0x2C s = false := foreignReg_of_none l s rfl rfl
  have hk : lockedReg l 0x2C s = false := lockedReg_of_none l s (by decide) rfl rfl rfl
  have hhi : writeHi 0x2C = false := by decide
  simp [regWrite, hf, hk, hhi, writeSys, w1c]

/-- HIF_VERSION is read-only. -/
theorem regWrite_hifRo (l : Link) (v : Word) (s : State) : regWrite l 0x1000 none v s = s := by
  have hf : foreignReg l 0x1000 s = false := foreignReg_of_none l s rfl rfl
  have hk : lockedReg l 0x1000 s = false := lockedReg_of_none l s (by decide) rfl rfl rfl
  have hhi : writeHi 0x1000 = false := by decide
  simp [regWrite, hf, hk, hhi, cqAt, ctxAt, mbxAt]

/-- Settles O10: H1's writes of the SYS and HIF registers reach `regWrite` or the held list, H2's is denied. -/
theorem registerWritesFollowTheirAccessType : Obligations.RegisterWritesFollowTheirAccessType := by
  intro ct v s hact
  simp only [exec_registerWrite]
  rw [hostAccess_write v s (by decide) (by decide) (by decide), hostAccess_write v s (by decide) (by decide) (by decide),
    hostAccess_write v s (by decide) (by decide) (by decide)]
  refine ⟨fun hl0 hfree => ⟨?_, ?_⟩, fun hl0 hheld => ?_, fun hl0 => ?_⟩
  · rw [hostWrite_sys v (by decide) hl0 hact, commitWrite_unlocked none v hfree (by decide)]
    exact congrArg _ (regWrite_hflt .h1 v s)
  · rw [hostWrite_sys v (by decide) hl0 hact, commitWrite_unlocked none v hfree (by decide)]
    exact congrArg _ (regWrite_hifRo .h1 v s)
  · rw [hostWrite_sys v (by decide) hl0 hact, commitWrite_locked none v hheld]
  · have hdenied : h2May 0x2C s = false := rfl
    refine ⟨_, congrArg _ (hostWrite_denied v hl0 rfl hdenied), ?_⟩
    obtain ⟨hcnt, hlast, hframe, hhost⟩ := deniedWrite_spec 0x2C s
    exact ⟨hcnt, hlast.trans (by decide), hframe, hhost⟩

/-! ### O9 -/

/-- A host's write to a page address register of its link reaches the node. -/
theorem pageWrite_reaches {ep : Endpoint} {a : Nat} {s : State} (ha : 0x1008 ≤ a ∧ a < 0x1018) (hl0 : inL0 ep s = true)
    (hact : epActive ep s = true) : WriteReaches ep a s where
  l0 := hl0
  active := hact
  allowed := .inr (by simp [h2May]; omega)
  notMsix := by simp [isMsix]; omega
  own := foreignReg_of_none _ _ (by simp [ctxAt]; omega) (by simp [cqAt]; omega)

/-- A host's write of a link's page addresses takes effect at once: its endpoint carries traffic, MGMT_EN is 0, no remote-window lock
is held. -/
structure PageOpen (ep : Endpoint) (s : State) : Prop where
  l0 : inL0 ep s = true
  active : epActive ep s = true
  stopped : (hlink ep.link s).mgmtEn = false
  unlocked : s.rrw.locked = false

/-- Pending and latched halves leave the page open. -/
theorem PageOpen.modEndpoint {ep : Endpoint} {s : State} {g : EndpointState → EndpointState} (h : PageOpen ep s)
    (hg : ∀ x, (g x).power = x.power) : PageOpen ep (modEndpoint ep g s) where
  l0 := (inL0_modEndpoint hg).trans h.l0
  active := by rw [epActive_modEndpoint, h.active]
  stopped := by rw [hlink_modEndpoint, h.stopped]
  unlocked := by rw [modEndpoint_rrw, h.unlocked]

/-- HIF_DB takes both halves, its own low half where none is pending; a page's low address bits are 0 (R393). -/
def setDb (lo : Option Word) (hi : Word) (h : HifLink) : HifLink :=
  { h with db := join64 hi (lo.getD (lo32 h.db)) &&& ~~~0x1FFF }

theorem HifLink.db_update_db (h : HifLink) (d : Dword) : ({ h with db := d } : HifLink).db = d := rfl

theorem HifLink.hmem_update_db (h : HifLink) (d : Dword) : ({ h with db := d } : HifLink).hmem = h.hmem := rfl

theorem setDb_db (lo : Option Word) (hi : Word) (h : HifLink) :
    (setDb lo hi h).db = join64 hi (lo.getD (lo32 h.db)) &&& ~~~0x1FFF := HifLink.db_update_db h _
theorem setDb_hmem (lo : Option Word) (hi : Word) (h : HifLink) : (setDb lo hi h).hmem = h.hmem :=
  HifLink.hmem_update_db h _

/-- A write of HIF_DB_LO is held by the endpoint. -/
theorem hostAccess_dbLo {ep : Endpoint} {s : State} (v : Word) (h : PageOpen ep s) :
    hostAccess ep true 0x1008 v s = modEndpoint ep (holdLo 0x1008 v) s := by
  have hk : lockedReg ep.link 0x1008 s = false := (lockedReg_page ep.link s (by decide)).trans h.stopped
  rw [hostAccess_write v s (by decide) (by decide) (by decide)]
  exact hostWrite_lo v (by decide) (pageWrite_reaches (by decide) h.l0 h.active) (by decide) hk

/-- HIF_DB_HI written on an open page takes effect with the _LO value it is given. -/
theorem regWrite_dbHi {l : Link} {s : State} (lo : Option Word) (v : Word) (h : (hlink l s).mgmtEn = false) :
    regWrite l 0x100C lo v s = modLink l (setDb lo v) s := by
  have hf : foreignReg l 0x100C s = false := foreignReg_of_none l s rfl rfl
  have hk : lockedReg l 0x100C s = false := (lockedReg_page l s (by decide)).trans h
  rw [regWrite_pair lo v hf hk (by decide), writePair]
  exact if_pos rfl

/-- A write of HIF_DB_HI sets the doorbell page with what is pending for its _LO half. -/
theorem hostAccess_dbHi {ep : Endpoint} {s : State} (v : Word) (h : PageOpen ep s) :
    hostAccess ep true 0x100C v s
      = modLink ep.link (setDb (Tab.find 0x1008 (endpoint ep s).pendingLo) v) (modEndpoint ep (takeLo 0x1008) s) := by
  have hk : lockedReg ep.link (0x1008 + 4) s = false := (lockedReg_page ep.link s (by decide)).trans h.stopped
  have hoff : (0x100C : Offset).toNat = 0x100C := by decide
  have hopen : PageOpen ep (modEndpoint ep (takeLo 0x1008) s) := h.modEndpoint fun _ => rfl
  rw [hostAccess_write v s (by decide) (by decide) (by decide),
    hostWrite_hi (a := 0x1008) v (by decide) (pageWrite_reaches (by decide) h.l0 h.active) (by decide) (by decide) hk,
    commitWrite_unlocked _ v hopen.unlocked (by decide),
    hoff, regWrite_dbHi _ v hopen.stopped]

/-- The doorbell page after a write of HIF_DB_HI. -/
theorem hostAccess_dbHi_db {ep : Endpoint} {s : State} (v : Word) (h : PageOpen ep s) :
    (hlink ep.link (hostAccess ep true 0x100C v s)).db
      = join64 v ((Tab.find 0x1008 (endpoint ep s).pendingLo).getD (lo32 (hlink ep.link s).db)) &&& ~~~0x1FFF := by
  rw [hostAccess_dbHi v h, hlink_modLink, hlink_modEndpoint, setDb_db]

/-- Writing both halves of HIF_DB changes the host interface only, and no host memory. -/
theorem hostAccess_dbHi_frame {ep : Endpoint} {s : State} (v : Word) (h : PageOpen ep s) :
    onlyChanges [.hif] s (hostAccess ep true 0x100C v s) ∧ hostSame s (hostAccess ep true 0x100C v s) := by
  rw [hostAccess_dbHi v h]
  exact ⟨onlyChanges_trans (modEndpoint_onlyChanges _ _ _) (modLink_onlyChanges _ _ _),
    hostSame_trans (modEndpoint_hostSame _ _ _) (modLink_hostSame _ _ _ (setDb_hmem _ v))⟩

/-- The latch that a read of _LO leaves is what the next read of _HI answers. -/
theorem hostAccess_readHi_latched {ep : Endpoint} {off : Offset} {w : Word} {u : State} (hlo : readLo off.toNat = true)
    (hl0 : inL0 ep u = true) (hw : Tab.find (off.toNat + 4) (endpoint ep u).latchHi = some w) :
    hostAccess ep false (off + 4) 0 u = emit (.readReply ep (off + 4) w)
      (modEndpoint ep (fun e => { e with latchHi := Tab.erase (off.toNat + 4) e.latchHi }) u) := by
  have hoff : (off + 4).toNat = off.toNat + 4 := hiOffset_toNat hlo
  obtain ⟨halign, hbound⟩ := readLo_aligned hlo
  have hhi : readHi (off.toNat + 4) = true := by simp [readHi, hlo]
  rw [hostAccess_read 0 u (by omega) (by omega), ← hoff,
    hostRead_latched hl0 (by rw [hoff]; exact readLo_add_four hlo) (by rw [hoff]; exact hhi) (by rw [hoff]; exact hw)]

/-- Settles O9: a read of _LO leaves the latch that a read of _HI finds; a write of HIF_DB_HI finds what the last write of HIF_DB_LO
left pending. -/
theorem halvesOfAPairLatchAndTakeEffect : Obligations.HalvesOfAPairLatchAndTakeEffect := by
  refine ⟨fun ep off s hl0 hlo => ?_, fun ep lo lo2 hi s hl0 hact hmg hfree => ?_⟩
  · obtain ⟨halign, hbound⟩ := readLo_aligned hlo
    refine ⟨_, exec_readLo ep off s, ?_⟩
    rw [hostAccess_read 0 s (by omega) halign, hostRead_lo hl0 hlo]
    obtain ⟨hframe, hhost⟩ := emit_modEndpoint_frame (.readReply ep off (readWord ep off.toNat s)) ep
      (fun e => { e with latchHi := Tab.put (off.toNat + 4) (readWord ep (off.toNat + 4) s) e.latchHi }) s
    refine ⟨by simp, hframe, hhost, fun u hu hlatch => ⟨_, exec_readHi ep (off + 4) u, ?_⟩⟩
    have hw : Tab.find (off.toNat + 4) (endpoint ep u).latchHi = some (readWord ep (off.toNat + 4) s) := by
      rw [hlatch, show endpoint ep (emit _ _) = _ from endpoint_modEndpoint ep s _, Tab.find_put_same]
    rw [hostAccess_readHi_latched hlo hu hw]
    exact ⟨by simp, emit_modEndpoint_frame _ _ _ _⟩
  · have hopen : PageOpen ep s := ⟨hl0, hact, hmg, hfree⟩
    have held (v : Word) {x : State} (hx : PageOpen ep x) : PageOpen ep (modEndpoint ep (holdLo 0x1008 v) x) :=
      hx.modEndpoint fun _ => rfl
    have hdb (v : Word) {x : State} (hx : PageOpen ep x) :
        (hlink ep.link (hostAccess ep true 0x100C hi (modEndpoint ep (holdLo 0x1008 v) x))).db
          = join64 hi v &&& ~~~0x1FFF := by
      rw [hostAccess_dbHi_db hi (held v hx), endpoint_modEndpoint, holdLo, Tab.find_put_same, Option.getD_some]
    have hwrite (v : Word) {x : State} (hx : PageOpen ep x) :
        exec (.writeLo ep 0x1008 v) x = .next (modEndpoint ep (holdLo 0x1008 v) x) := by
      rw [exec_writeLo, hostAccess_dbLo v hx]
    refine ⟨?_, fun hnone => ⟨_, exec_writeHi ep _ hi s, ?_⟩, ?_⟩
    · obtain ⟨hframe, hhost⟩ := hostAccess_dbHi_frame hi (held lo hopen)
      exact ⟨_, _, hwrite lo hopen, hlink_modEndpoint _ _ _ _, exec_writeHi ep _ hi _, hdb lo hopen,
        onlyChanges_trans (modEndpoint_onlyChanges _ _ _) hframe, hostSame_trans (modEndpoint_hostSame _ _ _) hhost⟩
    · rw [hostAccess_dbHi_db hi hopen, hnone, Option.getD_none]
    · exact ⟨_, _, _, hwrite lo hopen, hwrite lo2 (held lo hopen), exec_writeHi ep _ hi _, hdb lo2 (held lo hopen)⟩

end Sys2Proof.Machine
end

section
/-! SUPPORT. Train time (R5, R188 to R191): the frames of the ledger, what a step adds, what each command of `bbn_time_set` does. Settles
O23. -/
namespace Sys2Proof.Machine

/-! ### The ledger and the store-room writer change only their own parts -/

/-- The parts a record or a boundary of the ledger can change. -/
def ledgerParts : List Part := [.srm, .ldg]

theorem ldg_onlyChanges (x : LdgUnit) (s : State) : onlyChanges ledgerParts s { s with ldg := x } := by
  refine ⟨rfl, rfl, rfl, fun p hp => ?_⟩
  cases p <;> simp [samePart, ledgerParts] at hp ⊢

theorem writeRecord_onlyChanges (df : Bool) (code : Half) (payload : List Byte) (s : State) :
    onlyChanges ledgerParts s (writeRecord df code payload s) := by
  refine ⟨by simp, by simp, by simp, fun p hp => ?_⟩
  cases p <;> simp [samePart, ledgerParts] at hp ⊢

theorem ldgRecord_onlyChanges (code : Half) (payload : List Byte) (s : State) :
    onlyChanges ledgerParts s (ldgRecord code payload s) := by
  rw [ldgRecord]
  split
  · exact writeRecord_onlyChanges _ _ _ _
  · exact onlyChanges_refl _ _

theorem timeMark_onlyChanges (cause : Nat) (step : Int) (s : State) :
    onlyChanges ledgerParts s (timeMark cause step s) := by
  rw [timeMark]
  split
  · exact writeRecord_onlyChanges _ _ _ _
  · exact onlyChanges_refl _ _

/-- A frame that every step of a fold keeps, the fold keeps. -/
theorem foldl_onlyChanges {α : Type} {ps : List Part} {f : State → α → State} (hf : ∀ s x, onlyChanges ps s (f s x))
    (l : List α) (s : State) : onlyChanges ps s (l.foldl f s) := by
  induction l generalizing s with
  | nil => exact onlyChanges_refl _ _
  | cons x l ih => exact onlyChanges_trans (hf s x) (ih _)

theorem writeClosed_onlyChanges (i : Interval) (s : State) : onlyChanges ledgerParts s (writeClosed i s) := by
  rw [writeClosed]
  refine onlyChanges_trans ?_ (foldl_onlyChanges (fun t p => ldgRecord_onlyChanges _ p t) _ _)
  split
  · exact onlyChanges_refl _ _
  · exact ldgRecord_onlyChanges _ _ _

theorem writeOpen_onlyChanges (s : State) : onlyChanges ledgerParts s (writeOpen s) := by
  rw [writeOpen]
  split
  · split
    · exact onlyChanges_refl _ _
    · exact onlyChanges_trans (ldg_onlyChanges _ s) (ldgRecord_onlyChanges _ _ _)
  · exact onlyChanges_refl _ _

theorem settleClosed_onlyChanges (l : List Interval) (s : State) : onlyChanges ledgerParts s (settleClosed l s) := by
  induction l generalizing s with
  | nil => exact ldg_onlyChanges _ s
  | cons i rest ih =>
    rw [settleClosed]
    split
    · exact ldg_onlyChanges _ s
    · refine onlyChanges_trans ?_ (ih _)
      split
      · exact writeClosed_onlyChanges i s
      · exact ldg_onlyChanges _ s

theorem settleLedger_onlyChanges (s : State) : onlyChanges ledgerParts s (settleLedger s) :=
  onlyChanges_trans (settleClosed_onlyChanges _ s) (writeOpen_onlyChanges _)

theorem openInterval_onlyChanges (flags : Half) (s : State) : onlyChanges ledgerParts s (openInterval flags s) :=
  onlyChanges_trans (ldg_onlyChanges _ s) (writeOpen_onlyChanges _)

theorem closeInterval_onlyChanges (flags : Half) (s : State) : onlyChanges ledgerParts s (closeInterval flags s) := by
  rw [closeInterval]
  split
  · exact onlyChanges_refl _ _
  · exact onlyChanges_trans (ldg_onlyChanges _ s) (settleLedger_onlyChanges _)

theorem turnInterval_onlyChanges (flags : Half) (s : State) : onlyChanges ledgerParts s (turnInterval flags s) :=
  onlyChanges_trans (closeInterval_onlyChanges flags s) (openInterval_onlyChanges 0 _)

/-- The next boundary after the present train time becomes the one that is due. -/
def moveDue (s : State) : State :=
  { s with ldg.due := BitVec.ofNat 64 (nextBoundary s.ldg.len s.ldg.offsetS (ttime s)) }

theorem moveDue_onlyChanges (s : State) : onlyChanges ledgerParts s (moveDue s) := ldg_onlyChanges _ s

theorem boundary_of_open {i : Interval} {s : State} (h : s.ldg.open_ = some i) :
    boundary s =
      if ttime s < s.ldg.due.toNat then s
      else if i.back && decide (mono s - i.startMono.toNat < ldgSecs i.lenCode * 1024) then moveDue s
      else if !s.srm.writerOn && decide (63 ≤ s.ldg.kept.length + s.ldg.closing.length) then
        { moveDue s with ldg.open_ := some { i with flags := i.flags ||| 0x0100 } }
      else turnInterval 0 s := by
  rw [boundary, h]
  rfl

theorem boundary_onlyChanges (s : State) : onlyChanges ledgerParts s (boundary s) := by
  cases h : s.ldg.open_ with
  | none => rw [boundary, h]; exact onlyChanges_refl _ _
  | some i =>
    rw [boundary_of_open h]
    split
    · exact onlyChanges_refl _ _
    · split
      · exact moveDue_onlyChanges s
      · split
        · exact onlyChanges_trans (moveDue_onlyChanges s) (ldg_onlyChanges _ (moveDue s))
        · exact turnInterval_onlyChanges 0 s

/-! ### A step of train time -/

/-- A step as the train time sees it: what has been slewed is settled, then the offset moves. -/
def addStep (step : Int) (s : State) : State :=
  { settleSlew s with bbn.timeOff := (settleSlew s).bbn.timeOff + BitVec.ofInt 64 step }

/-- The open interval notes a step: more than 1 s, or backwards. -/
def noteStep (step : Int) (s : State) : State :=
  { s with ldg.open_ := s.ldg.open_.map fun i =>
      { i with flags := if decide (1000000000 < step.natAbs) then i.flags ||| 0x0004 else i.flags,
               back := i.back || decide (step < 0) } }

/-- Record 0xE102 of a step of more than 1 s. -/
def recordStep (step : Int) (s : State) : State :=
  let (run, start) := match s.ldg.open_ with | some i => (i.runId.toNat, i.startMono.toNat) | none => (s.ldg.runId.toNat, 0)
  if decide (1000000000 < step.natAbs) then ldgRecord 0xE102 (toLE 8 (twos 64 step) ++ toLE 4 run ++ toLE 8 start) s else s

/-- The ledger goes on after a step: a boundary passed turns the interval, after a step back the boundary moves. -/
def ledgerAfterStep (step : Int) (s : State) : State :=
  if s.ldg.open_.isNone then s
  else if 0 < step && s.ldg.due.toNat ≤ ttime s then turnInterval 0 s
  else if step < 0 then moveDue s
  else s

/-- The parts of `stepTime`, in order. -/
theorem stepTime_eq (step : Int) (s : State) :
    stepTime step s
      = ledgerAfterStep step (timeMark 3 step (recordStep step (noteStep step (addStep step (boundary s))))) := rfl

theorem noteStep_onlyChanges (step : Int) (s : State) : onlyChanges ledgerParts s (noteStep step s) :=
  ldg_onlyChanges _ s

theorem recordStep_onlyChanges (step : Int) (s : State) : onlyChanges ledgerParts s (recordStep step s) := by
  rw [recordStep]
  split
  · split
    · exact ldgRecord_onlyChanges _ _ s
    · exact onlyChanges_refl _ _

theorem ledgerAfterStep_onlyChanges (step : Int) (s : State) : onlyChanges ledgerParts s (ledgerAfterStep step s) := by
  rw [ledgerAfterStep]
  split
  · exact onlyChanges_refl _ _
  · split
    · exact turnInterval_onlyChanges 0 s
    · split
      · exact moveDue_onlyChanges s
      · exact onlyChanges_refl _ _

/-- Behind the step itself only the ledger and the writer change. -/
theorem stepTime_onlyChanges (step : Int) (s : State) :
    onlyChanges ledgerParts (addStep step (boundary s)) (stepTime step s) := by
  rw [stepTime_eq]
  exact onlyChanges_trans (noteStep_onlyChanges step _) (onlyChanges_trans (recordStep_onlyChanges step _)
    (onlyChanges_trans (timeMark_onlyChanges 3 step _) (ledgerAfterStep_onlyChanges step _)))

/-- The ledger and the writer leave the backbone and the clock, hence train time. -/
theorem bbn_now_of_ledger {s t : State} (h : onlyChanges ledgerParts s t) : t.bbn = s.bbn ∧ t.now = s.now := by
  obtain ⟨-, hnow, -, hparts⟩ := h
  exact ⟨hparts .bbn (by decide), hnow⟩

/-- Train time is a function of the clock and the backbone. -/
theorem trainTime_congr {s t : State} (hb : t.bbn = s.bbn) (hn : t.now = s.now) : trainTime t = trainTime s := by
  have hcycle : cycleNs t = cycleNs s := by simp only [cycleNs, hb]
  have hslew : slewDone t = slewDone s := by simp only [slewDone, hcycle, hb, hn]
  simp only [trainTime, hslew, hb, hn]

/-- What has been slewed counts in the offset instead, so train time moves by the step alone. -/
theorem trainTime_addStep (step : Int) (s : State) : trainTime (addStep step s) = trainTime s + BitVec.ofInt 64 step := by
  have hslew : slewDone (addStep step s) = 0 := by simp [slewDone, addStep, settleSlew]
  rw [trainTime, hslew]
  simp [addStep, settleSlew, trainTime, BitVec.add_assoc]

theorem trainTime_stepTime (step : Int) (s : State) : trainTime (stepTime step s) = trainTime s + BitVec.ofInt 64 step := by
  obtain ⟨hb, hn⟩ := bbn_now_of_ledger (stepTime_onlyChanges step s)
  obtain ⟨hb', hn'⟩ := bbn_now_of_ledger (boundary_onlyChanges s)
  rw [trainTime_congr hb hn, trainTime_addStep, trainTime_congr hb' hn']

theorem stepTime_setRef (step : Int) (s : State) : (stepTime step s).bbn.setRef = s.bbn.setRef := by
  calc (stepTime step s).bbn.setRef = (addStep step (boundary s)).bbn.setRef :=
        congrArg BbnUnit.setRef (bbn_now_of_ledger (stepTime_onlyChanges step s)).1
    _ = (boundary s).bbn.setRef := rfl
    _ = s.bbn.setRef := congrArg BbnUnit.setRef (bbn_now_of_ledger (boundary_onlyChanges s)).1

theorem trainTime_stepped (step : Int) (s : State) : trainTime (stepped step s) = trainTime s + BitVec.ofInt 64 step := by
  rw [stepped]
  split
  · next h => simp [h]
  · exact trainTime_stepTime step s

theorem stepped_setRef (step : Int) (s : State) : (stepped step s).bbn.setRef = s.bbn.setRef := by
  rw [stepped]
  split
  · rfl
  · exact stepTime_setRef step s

/-! ### The commands of chapter 4 on train time -/

theorem exec_syncLoss (s : State) : exec .syncLoss s = .next (syncLoss s) := rfl
theorem exec_bbnTimeSet (r : Req) (s : State) : exec (.bbnTimeSet r) s = .next (timeSet r s) := rfl
theorem exec_timeSetStep (s : State) : exec .timeSetStep s = .next (timeSetStep s) := rfl
theorem exec_timeSetSettleTimeout (settled : Bool) (s : State) :
    exec (.timeSetSettleTimeout settled) s = .next (timeSetSettle settled s) := rfl
theorem exec_timeSetRequestTimeout (s : State) : exec .timeSetRequestTimeout s = .next (timeSetExpiry s) := rfl

/-- A vertex that follows loses the synchronisation 3 s after the last Sync (R191). -/
theorem syncLoss_of_silent {s : State} {d : Ns} (hgm : s.bbn.gm = false) (hlast : s.bbn.lastSync = some d)
    (hd : d + sec 3 ≤ s.now) :
    syncLoss s = raise 0x4032 []
      { s with bbn.syncOk := false, bbn.lastSync := none, bbn.firstSync := true, bbn.bmca := none } := by
  simp [syncLoss, hgm, hlast, hd]

theorem syncLoss_of_heard {s : State} {d : Ns} (hgm : s.bbn.gm = false) (hlast : s.bbn.lastSync = some d)
    (hd : s.now < d + sec 3) : syncLoss s = s := by
  simp [syncLoss, hgm, hlast, Nat.not_le.mpr hd]

/-- A raised event leaves train time. -/
@[simp] theorem trainTime_raise (code : Half) (data : List Byte) (s : State) :
    trainTime (raise code data s) = trainTime s := trainTime_congr (by simp) (by simp)

/-- With no beacon source the reference apex holds the rounded difference for its next cycle boundary (R189). -/
theorem refTakes_of_noBeacon {s : State} (origin : Key) (tag : Half) (p : Option MgmtPort) (diff : Int)
    (h : beaconSource s = none) :
    refTakes origin tag p diff s
      = { s with bbn.setRef := s.bbn.setRef ++ [⟨origin, tag, p, wholeMs diff, nextCycle s, none⟩] } := by
  have hb (l : List TimeSetRef) : beaconSource { s with bbn.setRef := l } = none := h
  simp only [refTakes, hb]

/-- A host's well-formed request at the reference apex, where time does not come from beacons (R189). -/
theorem timeSet_atReference {r : Req} {s : State} (hauth : allowedAt 0x0401 (authorityOf r.port s) = some true)
    (hlen : r.body.length = 8) (hport : r.port = .h1 ∨ r.port = .h2) (href : isReference s = true)
    (hbeacon : beaconSource s = none) :
    timeSet r s = { s with
      bbn.setOpen := s.bbn.setOpen ++ [⟨r.port, r.tag, s.now + sec 15⟩],
      bbn.setRef := s.bbn.setRef
        ++ [⟨vkey s, r.tag, some r.port, wholeMs ((leAt r.body 0 8 : Int) - (ttime s : Int)), nextCycle s, none⟩] } := by
  have htakes := refTakes_of_noBeacon (s := { s with bbn.setOpen := s.bbn.setOpen ++ [⟨r.port, r.tag, s.now + sec 15⟩] })
    (vkey s) r.tag (some r.port) ((leAt r.body 0 8 : Int) - (ttime s : Int)) hbeacon
  obtain ⟨port, tag, body⟩ := r
  obtain rfl | rfl := hport <;> simp [timeSet, authorised, hauth, hlen, href] <;> exact htakes

theorem takeStep_of_none {s : State} (h : s.bbn.stepDue = none) : takeStep s = s := by
  rw [takeStep, h]

/-- The reference applies the step it holds for a boundary that has come (R189). -/
theorem refStep_of_held {x : TimeSetRef} {s : State} (hpend : s.rlv.pending = none) (href : isReference s = true)
    (hask : asksCoordinator s = false)
    (hx : (s.bbn.setRef.find? fun y => y.settleBy.isNone && decide (y.at_ ≤ ttime s)) = some x) :
    refStep s = applySet x s := by
  simp only [refStep, hpend, href, hask, hx]
  rfl

/-- The step that is applied waits for every offset to settle, and the grandmaster's time base changes with it. -/
def awaitSettle (x : TimeSetRef) (s : State) : State :=
  { s with bbn.setRef := s.bbn.setRef.map fun z => if z == x then { x with settleBy := some (s.now + sec 10) } else z,
           bbn.gmBase := if x.step = 0 then s.bbn.gmBase else s.bbn.gmBase + 1 }

theorem applySet_eq (x : TimeSetRef) (s : State) :
    applySet x s = raise 0x4030 (d8 (twos 64 x.step)) (timeIsValid (stepped x.step (awaitSettle x s))) := rfl

theorem trainTime_awaitSettle (x : TimeSetRef) (s : State) : trainTime (awaitSettle x s) = trainTime s := rfl

theorem mem_setRef_awaitSettle {x : TimeSetRef} {s : State} (hx : x ∈ s.bbn.setRef) :
    { x with settleBy := some (s.now + sec 10) } ∈ (awaitSettle x s).bbn.setRef :=
  List.mem_map.mpr ⟨x, hx, if_pos (beq_self_eq_true x)⟩

theorem trainTime_timeIsValid (s : State) : trainTime (timeIsValid s) = trainTime s := rfl

/-- A held step applied: TIME_VALID, train time moved, 10 s to settle (R189, R190). -/
theorem applySet_spec {x : TimeSetRef} {s : State} (hx : x ∈ s.bbn.setRef) :
    (applySet x s).bbn.timeValid = true ∧ trainTime (applySet x s) = trainTime s + BitVec.ofInt 64 x.step
    ∧ { x with settleBy := some (s.now + sec 10) } ∈ (applySet x s).bbn.setRef := by
  rw [applySet_eq, trainTime_raise, raise_bbn, trainTime_timeIsValid, trainTime_stepped, trainTime_awaitSettle]
  refine ⟨rfl, rfl, ?_⟩
  have hkeep : (timeIsValid (stepped x.step (awaitSettle x s))).bbn.setRef = (awaitSettle x s).bbn.setRef :=
    stepped_setRef x.step _
  rw [hkeep]
  exact mem_setRef_awaitSettle hx

/-- The outcome of a step that this node's own request asked for answers that request (R189). -/
theorem setOutcome_own {x : TimeSetRef} {p : MgmtPort} {o : TimeSetOpen} {s : State} (status : Nat) (hp : x.port = some p)
    (ho : (s.bbn.setOpen.find? fun y => y.tag == x.tag) = some o) :
    setOutcome x status s
      = respond o.port x.tag 0x0401 status []
          { s with bbn.setRef := s.bbn.setRef.erase x, bbn.setOpen := s.bbn.setOpen.erase o } := by
  simp only [setOutcome, hp, timeSetDone, ho]

/-- What becomes of a step that settles: OK once it has, TIMEOUT when its 10 s are over, nothing before (R189). -/
theorem timeSetSettle_of_settling {x : TimeSetRef} {d : Ns} {s : State} (settled : Bool)
    (hx : (s.bbn.setRef.find? fun y => y.settleBy.isSome) = some x) (hd : x.settleBy = some d) :
    timeSetSettle settled s
      = if settled then setOutcome x stOk s else if d ≤ s.now then setOutcome x stTimeout s else s := by
  simp only [timeSetSettle, hx, due, hd, decide_eq_true_eq]

/-- A request without an outcome when its 15 s are over (R189). -/
theorem timeSetExpiry_of_overdue {o : TimeSetOpen} {s : State}
    (ho : (s.bbn.setOpen.find? fun y => decide (y.deadline ≤ s.now)) = some o) :
    timeSetExpiry s
      = respond o.port o.tag 0x0401 stTimeout [] { s with bbn.setOpen := s.bbn.setOpen.erase o } := by
  simp only [timeSetExpiry, ho]

/-- Settles O23: one clause for each command, from what its meaning does in the case the clause names. -/
theorem trainTimeIsLostSetAndSettled : Obligations.TrainTimeIsLostSetAndSettled := by
  intro s
  refine ⟨fun d hgm hlast => ⟨fun hd => ?_, fun hd => ?_⟩, fun r hauth hlen hport href hbeacon => ?_,
    fun x hdue hpend href hask hx => ?_, fun x p o d hx hp hd ho => ?_, fun o ho => ?_⟩
  · refine ⟨_, exec_syncLoss s, ?_⟩
    rw [syncLoss_of_silent hgm hlast hd, raise_bbn, trainTime_raise]
    exact ⟨rfl, rfl, rfl⟩
  · rw [exec_syncLoss, syncLoss_of_heard hgm hlast hd]
  · rw [exec_bbnTimeSet, timeSet_atReference hauth hlen hport href hbeacon]
    rfl
  · refine ⟨_, exec_timeSetStep s, ?_⟩
    rw [timeSetStep, takeStep_of_none hdue, refStep_of_held hpend href hask hx]
    exact applySet_spec (List.mem_of_find?_eq_some hx)
  · simp only [exec_timeSetSettleTimeout, timeSetSettle_of_settling _ hx hd, setOutcome_own _ hp ho]
    exact ⟨rfl, fun h => congrArg _ (if_pos h), fun h => congrArg _ (if_neg (Nat.not_le.mpr h))⟩
  · rw [exec_timeSetRequestTimeout, timeSetExpiry_of_overdue ho]

end Sys2Proof.Machine
end

section
/-! SUPPORT. What a stomped transit frame emits (R165, R228, R230, R719): the frame, and where a count of its port passes half range the
event in the open session of a service port. Refutes O22. -/
namespace Sys2Proof.Machine

/-! ### Events in an open session -/

/-- An event sent in an open session is a message in a frame of its own (R718, R719). -/
theorem spSend_out_length_lt (c : Ct) (dst : Key) (kind : Nat) (msg : List Byte) (s : State) :
    s.out.length < (spSend c dst kind msg s).out.length := by
  simp [spSend_eq, spSegments]

/-- A session of service port A is open and served (R719, R720). -/
def InSessionA (s : State) : Prop := (∃ mac, s.svc.spA.peer = some mac) ∧ spServes s = true

theorem InSessionA.congr {s t : State} (h : InSessionA s) (hsvc : t.svc = s.svc) (hserves : spServes t = spServes s) :
    InSessionA t := by
  simpa only [InSessionA, hsvc, hserves] using h

/-- Nothing is served in OFF. -/
theorem InSessionA.not_off {s : State} (h : InSessionA s) : (s.cel.pstate == .off) = false := by
  obtain ⟨-, hserves⟩ := h
  cases hp : s.cel.pstate with
  | off => simp [spServes, hp] at hserves
  | _ => rfl

theorem offerSp_out_length_le (c : Ct) (it : MgmtItem) (s : State) : s.out.length ≤ (offerSp c it s).out.length := by
  rw [offerSp]
  split
  · exact Nat.le_of_lt (spSend_out_length_lt _ _ _ _ _)
  · cases c <;> exact Nat.le_refl _

theorem offerSp_a_out_length_lt (it : MgmtItem) {s : State} (h : InSessionA s) :
    s.out.length < (offerSp .a it s).out.length := by
  obtain ⟨⟨mac, hpeer⟩, hserves⟩ := h
  have hsend : offerSp .a it s = spSend .a mac 3 (encodeMgmt it) s := by simp only [offerSp, spOf, hpeer, hserves]
  rw [hsend]
  exact spSend_out_length_lt _ _ _ _ _

theorem InSessionA.offerLink {s : State} (h : InSessionA s) (l : Link) (it : MgmtItem) : InSessionA (offerLink l it s) :=
  h.congr (by simp) (by simp [spServes, handingOver])

theorem InSessionA.modPort {s : State} (h : InSessionA s) (n : PortNo) (g : LinePort → LinePort) :
    InSessionA (modPort n g s) := h.congr rfl rfl

/-- An event raised during a session leaves in it (R719). -/
theorem raise_out_length_lt (code : Half) (data : List Byte) {s : State} (h : InSessionA s) :
    s.out.length < (raise code data s).out.length := by
  rw [raise, raiseRank, h.not_off, if_neg Bool.false_ne_true, record_out, deliverRank]
  calc s.out.length = (offerLink .h2 (eventItem 4 code data s) (offerLink .h1 (eventItem 4 code data s) s)).out.length := by
        simp only [offerLink_out]
    _ < _ := offerSp_a_out_length_lt _ ((h.offerLink .h1 _).offerLink .h2 _)
    _ ≤ _ := offerSp_out_length_le _ _ _

/-! ### A count that passes half range -/

/-- A count whose bit 31 changes raises event 0x3020 (R230), which leaves in an open session. -/
theorem bump_out_length_lt {n : PortNo} {off : Nat} {s : State} (h : InSessionA s)
    (hhalf : (portCount n off s).msb ≠ (portCount n off s + 1).msb) : s.out.length < (bump n off s).out.length := by
  rw [bump, addCount]
  split
  · next heq => exact absurd (eq_of_beq heq) hhalf
  · exact Nat.lt_of_le_of_lt (Nat.le_of_eq (by simp only [modPort_out])) (raise_out_length_lt _ _ ((h.modPort _ _).modPort _ _))

/-! ### A stomped transit frame -/

theorem exec_classURelease (l : Lane) (out : Bool) (s : State) :
    exec (.classURelease l out) s = .next (releaseU l out s) := rfl

/-- A stomped frame leaves and is counted at 0x4D4 of its port (R165, Table 5.4). -/
theorem cutOut_stomped (n : PortNo) (o : OutFrame) (s : State) :
    cutOut n o true s = bump n 0x4D4 (emit (.frame n o.bytes true) s) := rfl

/-- The conditions under which a lane's release lets a transit frame leave on a port (R164, R165, R182). -/
structure Releases (l : Lane) (out : Bool) (x : Transit) (n : PortNo) (s : State) : Prop where
  due : (s.bbn.transit.find? fun y => y.lane == l && y.outbound == out && decide (y.instant ≤ s.now)) = some x
  port : lanePort l (egressEnd out s) s = some n
  up : spanIsUp l (egressEnd out s) s = true
  nbr : (nbrOrd (egressEnd out s) s).isSome = true
  lanes : lanesRun s = true
  native : nativeRun s = true

/-- The state without a transit frame that is on its way. -/
def takeTransit (x : Transit) (s : State) : State := { s with bbn.transit := s.bbn.transit.erase x }

/-- Which frames are in transit does not decide whether one may leave. -/
theorem Releases.stillOpen {l : Lane} {out : Bool} {x : Transit} {n : PortNo} {s : State} (h : Releases l out x n s) :
    (!spanIsUp l (egressEnd out s) (takeTransit x s) || (nbrOrd (egressEnd out s) (takeTransit x s)).isNone
      || !lanesRun (takeTransit x s) || !nativeRun (takeTransit x s)) = false := by
  have hup : spanIsUp l (egressEnd out s) (takeTransit x s) = true := h.up
  have hnbr : (nbrOrd (egressEnd out s) (takeTransit x s)).isNone = false :=
    Option.isNone_eq_false_iff.mpr h.nbr
  have hlanes : lanesRun (takeTransit x s) = true := h.lanes
  have hnative : nativeRun (takeTransit x s) = true := h.native
  simp only [hup, hnbr, hlanes, hnative, Bool.not_true, Bool.or_false]

/-- A transit frame with a wrong FCS leaves stomped, and what its port counts for it may leave behind it. -/
theorem releaseU_out_of_badFcs {l : Lane} {out : Bool} {x : Transit} {n : PortNo} {s : State} (h : Releases l out x n s)
    (hfcs : x.fcsOk = false) :
    (releaseU l out s).out = (bump n 0x4D4 (emit (.frame n x.bytes true) (noteAnyUrgent (takeTransit x s)))).out := by
  have hport : lanePort l (egressEnd out s) (takeTransit x s) = some n := h.port
  have hopen := h.stillOpen
  simp only [takeTransit] at hport hopen ⊢
  simp only [releaseU, h.due, hport, hopen, hfcs, Bool.not_false, cutOut_stomped, Bool.false_eq_true, if_false]

/-- Where the port's count of stomped frames passes half range during a session, more leaves than the frame. -/
theorem releaseU_out_length_lt {l : Lane} {out : Bool} {x : Transit} {n : PortNo} {s : State} (h : Releases l out x n s)
    (hfcs : x.fcsOk = false) (hsession : InSessionA s)
    (hhalf : (portCount n 0x4D4 s).msb ≠ (portCount n 0x4D4 s + 1).msb) :
    (s.out ++ [Emission.frame n x.bytes true]).length < (releaseU l out s).out.length := by
  rw [releaseU_out_of_badFcs h hfcs]
  exact bump_out_length_lt (s := emit (.frame n x.bytes true) (noteAnyUrgent (takeTransit x s)))
    (hsession.congr rfl rfl) hhalf

/-- A class U frame from vertex 4 at ordinal 1 to vertex 7, in transit outbound on lane A at its instant, with a wrong FCS. -/
def wrongFcs : Transit :=
  let f : NatFrame := ⟨0, false, false, 7, false, false, 0, 4, 7, 1, 1, 0, 0, [1]⟩
  ⟨.a, true, f, encodeNative f, false, 0, 0, 1⟩

/-- Vertex 5 in RUN between vertices 4 and 7, with a transit frame of a wrong FCS at its instant on the egress of port 0, that port's
count of stomped frames one below half range, and a session open on service port A. -/
def stompsAtHalfRange : State :=
  modPort 0 (fun p => { p with link := true, los := false, cnt := [(0x4D4, 0x7FFFFFFF)] })
    { State.reset with
      cel.pstate := .run, sys.vkey := 5, rlv.st := .settled, rlv.refKey := 4, rlv.ord := 2, rlv.refEnd := 2,
      rlv.poly := [⟨4, 1, false, false, false, true, true, false, 1, 0, 2, 2, true⟩,
                   ⟨5, 2, false, false, false, true, true, false, 1, 0, 2, 2, true⟩,
                   ⟨7, 3, false, false, false, true, true, false, 1, 0, 2, 2, true⟩],
      bbn.transit := [wrongFcs], svc.spA.peer := some 9 }

theorem stompsAtHalfRange_inSession : InSessionA stompsAtHalfRange := ⟨⟨9, rfl⟩, by decide +kernel⟩

theorem stompsAtHalfRange_releases : Releases .a true wrongFcs 0 stompsAtHalfRange := by
  constructor <;> decide +kernel

theorem stompsAtHalfRange_count : portCount 0 0x4D4 stompsAtHalfRange = 0x7FFFFFFF := by decide +kernel

/-- Refutes O22, in its clause on transit frames: with the count of stomped frames at 0x7FFF_FFFF and a session open, the release emits
the frame and then event 0x3020 in the session (R230, R719), where the clause has the frame alone. -/
theorem not_classULeavesInItsSlotOnly : ¬ Obligations.ClassULeavesInItsSlotOnly := by
  intro h
  have hr := stompsAtHalfRange_releases
  obtain ⟨-, -, hrelease, -⟩ := h .a stompsAtHalfRange hr.native (by decide +kernel)
  obtain ⟨t, hexec, -, hout, -⟩ := hrelease true wrongFcs 0 hr.due hr.port hr.up hr.nbr hr.lanes
  have hmore := releaseU_out_length_lt hr rfl stompsAtHalfRange_inSession (by rw [stompsAtHalfRange_count]; decide)
  obtain rfl : releaseU .a true stompsAtHalfRange = t := by simpa [exec_classURelease] using hexec
  rw [hout] at hmore
  exact Nat.lt_irrefl _ hmore

end Sys2Proof.Machine
end

section
/-! SUPPORT. What moves frames and events leaves every other part, and every port's PHY and link, as they are: queueing, routing, completing,
declaring a span down (R180 to R184), the refreshes of Rolavo's ends (R85, R88, R146), responses (R421). -/
namespace Sys2Proof.Machine

/-! ### Frames moved -/

/-- The parts in which frames, completions, events and responses travel, and the contacts that follow them. -/
def trafficParts : List Part := [.rlv, .bbn, .lp, .plc, .vx, .hif, .srm, .svc, .out]

/-- From one state to the other only traffic has moved: no port's PHY or link has changed. -/
structure TrafficMoves (s t : State) : Prop where
  parts : onlyChanges trafficParts s t
  phyOn : ∀ n, (port n t).phyOn = (port n s).phyOn
  link : ∀ n, (port n t).link = (port n s).link

theorem TrafficMoves.refl (s : State) : TrafficMoves s s := ⟨onlyChanges_refl _ _, fun _ => rfl, fun _ => rfl⟩

theorem TrafficMoves.trans {s t u : State} (h : TrafficMoves s t) (k : TrafficMoves t u) : TrafficMoves s u :=
  ⟨onlyChanges_trans h.parts k.parts, fun n => (k.phyOn n).trans (h.phyOn n), fun n => (k.link n).trans (h.link n)⟩

theorem foldl_trafficMoves {α : Type} {f : State → α → State} (hf : ∀ s x, TrafficMoves s (f s x)) (l : List α) (s : State) :
    TrafficMoves s (l.foldl f s) := by
  induction l generalizing s with
  | nil => exact .refl _
  | cons x l ih => exact (hf s x).trans (ih _)

/-- What leaves the line ports alone changes no PHY and no link. -/
theorem TrafficMoves.of_lp {s t : State} (h : onlyChanges trafficParts s t) (hlp : t.lp = s.lp) : TrafficMoves s t :=
  ⟨h, fun n => by simp only [port, hlp], fun n => by simp only [port, hlp]⟩

/-! ### Updates of the traffic's own parts -/

theorem rlv_trafficMoves (x : RlvUnit) (s : State) : TrafficMoves s { s with rlv := x } := by
  refine .of_lp ⟨rfl, rfl, rfl, fun p hp => ?_⟩ rfl
  cases p <;> simp [samePart, trafficParts] at hp ⊢

theorem bbn_trafficMoves (x : BbnUnit) (s : State) : TrafficMoves s { s with bbn := x } := by
  refine .of_lp ⟨rfl, rfl, rfl, fun p hp => ?_⟩ rfl
  cases p <;> simp [samePart, trafficParts] at hp ⊢

theorem modEnd_trafficMoves (e : End) (g : EndState → EndState) (s : State) : TrafficMoves s (modEnd e g s) := by
  cases e <;> exact rlv_trafficMoves _ s

theorem modPlc_trafficMoves (c : Chan) (g : PlcChan → PlcChan) (s : State) : TrafficMoves s (modPlc c g s) := by
  refine .of_lp ⟨rfl, rfl, rfl, fun p hp => ?_⟩ rfl
  cases p <;> simp [samePart, trafficParts] at hp ⊢

theorem modCq_trafficMoves (n : CqNo) (g : CqState → CqState) (s : State) : TrafficMoves s (modCq n g s) := by
  refine .of_lp ⟨by simp, by simp, by simp, fun p hp => ?_⟩ (by simp)
  cases p <;> simp [samePart, trafficParts] at hp ⊢

theorem modCtx_trafficMoves (l : Link) (c : Nat) (g : Ctx → Ctx) (s : State) : TrafficMoves s (modCtx l c g s) := by
  refine .of_lp ⟨by simp, by simp, by simp, fun p hp => ?_⟩ (by simp)
  cases p <;> simp [samePart, trafficParts] at hp ⊢

theorem modLink_trafficMoves (l : Link) (g : HifLink → HifLink) (s : State) : TrafficMoves s (modLink l g s) :=
  .of_lp (onlyChanges_mono (modLink_onlyChanges l g s) (by simp [trafficParts])) (by simp)

theorem modSp_trafficMoves (c : Ct) (g : SpState → SpState) (s : State) : TrafficMoves s (modSp c g s) := by
  refine .of_lp ⟨by simp, by simp, by simp, fun p hp => ?_⟩ (by simp)
  cases p <;> simp [samePart, trafficParts] at hp ⊢

theorem emit_trafficMoves (x : Emission) (s : State) : TrafficMoves s (emit x s) :=
  .of_lp (onlyChanges_mono (emit_onlyChanges x s) (by simp [trafficParts])) rfl

theorem raise_trafficMoves (code : Half) (data : List Byte) (s : State) : TrafficMoves s (raise code data s) :=
  .of_lp (onlyChanges_mono (raise_onlyChanges code data s) (by simp [trafficParts, eventParts])) (by simp)

theorem modPort_onlyChanges (n : PortNo) (g : LinePort → LinePort) (s : State) :
    onlyChanges trafficParts s (modPort n g s) := by
  refine ⟨rfl, rfl, rfl, fun p hp => ?_⟩
  cases p <;> simp [samePart, trafficParts] at hp ⊢

/-- A change of a line port that keeps its PHY and its link. -/
theorem modPort_trafficMoves {g : LinePort → LinePort} (n : PortNo) (s : State)
    (hphy : ∀ p, (g p).phyOn = p.phyOn := by intro; rfl) (hlink : ∀ p, (g p).link = p.link := by intro; rfl) :
    TrafficMoves s (modPort n g s) := by
  refine ⟨modPort_onlyChanges n g s, fun m => ?_, fun m => ?_⟩ <;> by_cases h : m = n
  · subst h; rw [port_modPort, hphy]
  · rw [port_modPort_ne _ _ _ _ h]
  · subst h; rw [port_modPort, hlink]
  · rw [port_modPort_ne _ _ _ _ h]

/-! ### Queues and completions -/

theorem enqueue_trafficMoves (n : PortNo) (f : OutFrame) (s : State) : TrafficMoves s (enqueue n f s) := by
  rw [enqueue]; exact modPort_trafficMoves n s

theorem flushTx_trafficMoves (l : Link) (c : Nat) (s : State) : TrafficMoves s (flushTx l c s) :=
  (modCtx_trafficMoves l c _ s).trans (foldl_trafficMoves (fun t _ => modCq_trafficMoves _ _ t) _ _)

theorem completeOrigin_trafficMoves (o : Option TxRef) (status : Nat) (f : TxPend → TxPend) (s : State) :
    TrafficMoves s (completeOrigin o status f s) := by
  cases o with
  | none => exact .refl s
  | some r => exact (modCtx_trafficMoves r.link r.cqp _ s).trans (flushTx_trafficMoves _ _ _)

theorem flowChan_trafficMoves (f : NatFrame) (c : Chan) (stn : BitVec 7) (s : State) :
    TrafficMoves s (flowChan f c stn s).2 := by
  rw [flowChan]
  split
  · exact .refl s
  · exact bbn_trafficMoves _ s

theorem joinUQueue_trafficMoves (l : Lane) (o : OutFrame) (s : State) : TrafficMoves s (joinUQueue l o s) :=
  bbn_trafficMoves _ s

theorem plcUrgent_trafficMoves (c : Chan) (stn : BitVec 7) (f : NatFrame) (origin : Option TxRef) (s : State) :
    TrafficMoves s (plcUrgent c stn f origin s) := by
  rw [plcUrgent]; exact modPlc_trafficMoves c _ s

theorem plcQueue_trafficMoves (c : Chan) (hop : BitVec 7) (f : NatFrame) (origin : Option TxRef) (inPort : Option PortNo)
    (s : State) : TrafficMoves s (plcQueue c hop f origin inPort s) := by
  rw [plcQueue]; exact modPlc_trafficMoves c _ s

theorem launch_trafficMoves (r : Route) (f : NatFrame) (origin : Option TxRef) (inPort : Option PortNo) (s : State) :
    TrafficMoves s (launch r f origin inPort s) := by
  cases r with
  | self => exact .refl s
  | lane e l =>
    simp only [launch]
    split
    · exact joinUQueue_trafficMoves _ _ s
    · split
      · exact enqueue_trafficMoves _ _ s
      · exact completeOrigin_trafficMoves _ _ _ s
  | plc c stn =>
    simp only [launch]
    refine (flowChan_trafficMoves f c stn s).trans ?_
    split
    · exact plcUrgent_trafficMoves _ _ _ _ _
    · exact plcQueue_trafficMoves _ _ _ _ _ _
  | held =>
    simp only [launch]
    split
    · exact rlv_trafficMoves _ s
    · exact completeOrigin_trafficMoves _ _ _ s
  | nowhere => exact completeOrigin_trafficMoves _ _ _ s

/-! ### A span declared down -/

theorem moveFrame_trafficMoves (l : Lane) (e : End) (o : OutFrame) (s : State) : TrafficMoves s (moveFrame l e o s) := by
  simp only [moveFrame]
  split
  · exact .refl s
  · split
    · exact .refl s
    split
    · split
      · split
        · exact enqueue_trafficMoves _ _ s
        · exact completeOrigin_trafficMoves _ _ _ s
      · exact completeOrigin_trafficMoves _ _ _ s
    · split
      · split
        · exact enqueue_trafficMoves _ _ s
        · exact completeOrigin_trafficMoves _ _ _ s
      · exact launch_trafficMoves _ _ _ _ s

theorem evacuate_trafficMoves (l : Lane) (e : End) (s : State) : TrafficMoves s (evacuate l e s) := by
  rw [evacuate]
  split
  · exact .refl s
  · exact (modPort_trafficMoves _ s).trans
      (foldl_trafficMoves (fun t o => moveFrame_trafficMoves l e o t) _ _)

theorem moveUrgent_trafficMoves (o : OutFrame) (s : State) : TrafficMoves s (moveUrgent o s) := by
  simp only [moveUrgent]
  split
  · exact .refl s
  · split
    · exact completeOrigin_trafficMoves _ _ _ s
    · split
      · split
        · exact joinUQueue_trafficMoves _ _ s
        · exact launch_trafficMoves _ _ _ _ s
      · exact launch_trafficMoves _ _ _ _ s

theorem moveUrgents_trafficMoves (s : State) : TrafficMoves s (moveUrgents s) :=
  (bbn_trafficMoves { s.bbn with uq := [] } s).trans
    (foldl_trafficMoves (fun t (x : Lane × OutFrame) => moveUrgent_trafficMoves x.2 t) _ _)

theorem shiftPort_trafficMoves (n : PortNo) (s : State) : TrafficMoves s (shiftPort n s) := by
  rw [shiftPort]
  split
  · exact .refl s
  · split
    · exact .refl s
    · exact (modPort_trafficMoves n s).trans
        (foldl_trafficMoves (fun t o => moveFrame_trafficMoves _ _ o t) _ _)

theorem shiftAll_trafficMoves (s : State) : TrafficMoves s (shiftAll s) :=
  (moveUrgents_trafficMoves s).trans (foldl_trafficMoves (fun t n => shiftPort_trafficMoves n t) _ _)

theorem changeMap_trafficMoves (l : Lane) (up : Bool) (low high : Nat) (s : State) :
    TrafficMoves s (changeMap l up low high s) := by
  have hmap : TrafficMoves s (if up then { s with bbn.downSpans := s.bbn.downSpans.filter fun x => x != ⟨l, low, high⟩ }
      else { s with bbn.downSpans := s.bbn.downSpans ++ [⟨l, low, high⟩] }) := by
    split <;> exact bbn_trafficMoves _ s
  simp only [changeMap]
  generalize (if up then _ else _ : State) = s1 at hmap ⊢
  split
  · exact (hmap.trans (bbn_trafficMoves _ _)).trans (raise_trafficMoves _ _ _)
  · exact hmap

theorem queueNotice_trafficMoves (l : Lane) (up : Bool) (low high : Nat) (s : State) :
    TrafficMoves s (queueNotice l up low high s) := by
  cases l <;> exact bbn_trafficMoves _ s

theorem declareDown_trafficMoves (l : Lane) (e : End) (s : State) : TrafficMoves s (declareDown l e s) := by
  rw [declareDown]
  split
  · exact .refl s
  · split
    · exact evacuate_trafficMoves l e s
    · split
      · exact evacuate_trafficMoves l e s
      · exact (raise_trafficMoves _ _ s).trans <| (queueNotice_trafficMoves _ _ _ _ _).trans <|
          (changeMap_trafficMoves _ _ _ _ _).trans <| (evacuate_trafficMoves _ _ _).trans (shiftAll_trafficMoves _)

theorem portSpanDown_trafficMoves (n : PortNo) (s : State) : TrafficMoves s (portSpanDown n s) := by
  rw [portSpanDown]
  split
  · exact (modPort_trafficMoves n s).trans (declareDown_trafficMoves _ _ _)
  · exact .refl s

/-! ### Counters, flow control, span watches -/

theorem addCount_trafficMoves (n : PortNo) (off k : Nat) (s : State) : TrafficMoves s (addCount n off k s) := by
  have hcount (v : Word) : TrafficMoves s (modPort n (fun p => { p with cnt := Tab.put off v p.cnt }) s) :=
    modPort_trafficMoves n s
  simp only [addCount]
  split
  · exact hcount _
  · refine ((hcount _).trans (modPort_trafficMoves n _ (fun p => ?_) (fun p => ?_))).trans (raise_trafficMoves _ _ _)
      <;> split <;> rfl

theorem bump_trafficMoves (n : PortNo) (off : Nat) (s : State) : TrafficMoves s (bump n off s) :=
  addCount_trafficMoves n off 1 s

theorem endPause_trafficMoves (n : PortNo) (s : State) : TrafficMoves s (endPause n s) := by
  rw [endPause]
  exact (modPort_trafficMoves n s).trans (addCount_trafficMoves _ _ _ _)

theorem flowReset_trafficMoves (n : PortNo) (s : State) : TrafficMoves s (flowReset n s) := by
  rw [flowReset]
  exact (endPause_trafficMoves n s).trans (modPort_trafficMoves n _)

theorem silenceSpan_trafficMoves (l : Lane) (e : End) (s : State) : TrafficMoves s (silenceSpan l e s) := by
  rw [silenceSpan, modSpan]
  exact modEnd_trafficMoves e _ s

theorem refreshEnd_trafficMoves (e : End) (s : State) : TrafficMoves s (refreshEnd e s) := by
  have htimers (g h : EndState → EndState) : TrafficMoves s (modEnd e h (modEnd e g s)) :=
    (modEnd_trafficMoves e g s).trans (modEnd_trafficMoves e h _)
  have hconflict (c : Prop) [Decidable c] (code : Half) (data : List Byte) (g : EndState → EndState) (t : State) :
      TrafficMoves t (if c then raise code data (modEnd e g t) else t) := by
    split
    · exact (modEnd_trafficMoves e g t).trans (raise_trafficMoves _ _ _)
    · exact .refl t
  simp only [refreshEnd]
  split
  · exact ((htimers _ _).trans (hconflict _ _ _ _ _)).trans (raise_trafficMoves _ _ _)
  · exact (htimers _ _).trans (hconflict _ _ _ _ _)

theorem refreshPort_trafficMoves (n : PortNo) (s : State) : TrafficMoves s (refreshPort n s) := by
  rw [refreshPort]
  split
  · exact (refreshEnd_trafficMoves _ s).trans (rlv_trafficMoves _ _)
  · exact .refl s

/-! ### Responses -/

theorem spSend_trafficMoves (c : Ct) (dst : Key) (kind : Nat) (msg : List Byte) (s : State) :
    TrafficMoves s (spSend c dst kind msg s) := foldl_trafficMoves (fun t _ => emit_trafficMoves _ t) _ s

theorem sendOnLane_trafficMoves (l : Lane) (e : End) (f : NatFrame) (origin : Option TxRef) (inPort : Option PortNo) (s : State) :
    TrafficMoves s (sendOnLane l e f origin inPort s) := by
  rw [sendOnLane]
  split
  · exact enqueue_trafficMoves _ _ s
  · exact .refl s

theorem sendNode_trafficMoves (dst : Key) (payload : List Byte) (s : State) : TrafficMoves s (sendNode dst payload s) := by
  have hplc (f : NatFrame) : TrafficMoves s (match plcTo dst s with
      | some (c, stn) => plcQueue c (plcNextHop c stn s) f none none s
      | none => s) := by
    split
    · exact plcQueue_trafficMoves _ _ _ _ _ s
    · exact .refl s
  have hlane (l : Lane) (e : End) (f : NatFrame) (t : State) (ht : TrafficMoves s t) :
      TrafficMoves s (if spanIsUp l e s then sendOnLane l e f none none s
        else if spanIsUp (Lane.other l) e s then sendOnLane (Lane.other l) e f none none s else t) := by
    split
    · exact sendOnLane_trafficMoves _ _ _ _ _ s
    · split
      · exact sendOnLane_trafficMoves _ _ _ _ _ s
      · exact ht
  rw [sendNode]
  split
  · exact hplc _
  · split
    · exact hplc _
    · split
      · exact .refl s
      · exact hlane _ _ _ _ (hplc _)

theorem respond_trafficMoves (p : MgmtPort) (tag opcode : Half) (status : Nat) (body : List Byte) (s : State) :
    TrafficMoves s (respond p tag opcode status body s) := by
  rw [respond]
  cases p with
  | h1 => simp only [respondPart]; exact modLink_trafficMoves .h1 _ s
  | h2 => simp only [respondPart]; exact modLink_trafficMoves .h2 _ s
  | sp c mac => simp only [respondPart]; exact (spSend_trafficMoves c _ 2 _ s).trans (modSp_trafficMoves c _ _)
  | lane _ src => exact sendNode_trafficMoves src _ s
  | powerLine _ src => exact sendNode_trafficMoves src _ s

end Sys2Proof.Machine
end

section
/-! SUPPORT. What the line ports, the cable tests and the contacts do to the rest of the unit: a link that drops (R217), a PHY powered down
or started, a speed change (R205 to R212), a cable test stopped (R242), ports cut off by a relay set (R49), OUT1 (R379). -/
namespace Sys2Proof.Machine

/-! ### A link that drops -/

/-- A link that drops is noted at its port; all that follows is traffic. -/
theorem linkDropped_of_link {n : PortNo} {s : State} (h : (port n s).link = true) :
    ∃ g : LinePort → LinePort, (∀ p, (g p).link = false) ∧ TrafficMoves (modPort n g s) (linkDropped n s) := by
  have hspan (t : State) : TrafficMoves t (match portLane n t with | some (l, e) => silenceSpan l e t | none => t) := by
    split
    · exact silenceSpan_trafficMoves _ _ t
    · exact .refl t
  simp only [linkDropped, h, Bool.not_true, Bool.false_eq_true, if_false]
  exact ⟨_, fun _ => rfl, (raise_trafficMoves _ _ _).trans <| (bump_trafficMoves _ _ _).trans <| (hspan _).trans <|
    (flowReset_trafficMoves n _).trans (portSpanDown_trafficMoves n _)⟩

theorem linkDropped_of_noLink {n : PortNo} {s : State} (h : (port n s).link = false) : linkDropped n s = s := by
  simp [linkDropped, h]

theorem linkDropped_onlyChanges (n : PortNo) (s : State) : onlyChanges trafficParts s (linkDropped n s) := by
  cases h : (port n s).link with
  | false => rw [linkDropped_of_noLink h]; exact onlyChanges_refl _ s
  | true =>
    obtain ⟨g, -, hmoves⟩ := linkDropped_of_link h
    exact onlyChanges_trans (modPort_onlyChanges n g s) hmoves.parts

@[simp] theorem linkDropped_link (n : PortNo) (s : State) : (port n (linkDropped n s)).link = false := by
  cases h : (port n s).link with
  | false => rw [linkDropped_of_noLink h, h]
  | true =>
    obtain ⟨g, hg, hmoves⟩ := linkDropped_of_link h
    rw [hmoves.link n, port_modPort, hg]

/-! ### A PHY powered down, started, or changed in speed -/

theorem powerDown_onlyChanges (n : PortNo) (s : State) : onlyChanges trafficParts s (powerDown n s) :=
  onlyChanges_trans (linkDropped_onlyChanges n s) (modPort_onlyChanges n _ _)

@[simp] theorem powerDown_phyOn (n : PortNo) (s : State) : (port n (powerDown n s)).phyOn = false := by
  rw [powerDown, port_modPort]

@[simp] theorem powerDown_link (n : PortNo) (s : State) : (port n (powerDown n s)).link = false := by
  rw [powerDown, port_modPort, linkDropped_link]

theorem beginChange_onlyChanges (n : PortNo) (s : State) : onlyChanges trafficParts s (beginChange n s) :=
  onlyChanges_trans (linkDropped_onlyChanges n s) (modPort_onlyChanges n _ _)

/-- Whatever its limits now say, a port changes nothing but itself and the traffic it carries. -/
theorem retarget_onlyChanges (again : Bool) (n : PortNo) (s : State) : onlyChanges trafficParts s (retarget again n s) := by
  have hself (g : LinePort → LinePort) : onlyChanges trafficParts s (modPort n g s) := modPort_onlyChanges n g s
  have hsame : onlyChanges trafficParts s s := onlyChanges_refl _ s
  simp only [retarget]
  split
  · split
    · exact powerDown_onlyChanges n s
    · exact hsame
  split
  · split
    · exact hself _
    · exact hsame
  split
  · exact hself _
  split
  · split
    · exact beginChange_onlyChanges n s
    · exact hself _
  split
  · exact beginChange_onlyChanges n s
  · exact hsame

/-! ### A cable test stopped -/

theorem cableEnd_onlyChanges (n : PortNo) (l : List Half) (s : State) : onlyChanges trafficParts s (cableEnd n l s) := by
  rw [cableEnd]
  split
  · exact onlyChanges_refl _ s
  · exact onlyChanges_trans (modPort_onlyChanges n _ s) <| onlyChanges_trans (raise_trafficMoves _ _ _).parts <|
      onlyChanges_trans (respond_trafficMoves _ _ _ _ _ _).parts (retarget_onlyChanges _ n _)

theorem cableAbort_onlyChanges (n : PortNo) (code : Nat) (s : State) : onlyChanges trafficParts s (cableAbort n code s) := by
  rw [cableAbort]
  split
  · exact cableEnd_onlyChanges _ _ s
  · exact onlyChanges_refl _ s

/-! ### OUT1, and the ports a relay set cuts off -/

theorem vx_onlyChanges (x : VxUnit) (s : State) : onlyChanges trafficParts s { s with vx := x } := by
  refine ⟨rfl, rfl, rfl, fun p hp => ?_⟩
  cases p <;> simp [samePart, trafficParts] at hp ⊢

theorem out1Drive_onlyChanges (closed : Bool) (s : State) : onlyChanges trafficParts s (out1Drive closed s) := by
  rw [out1Drive, noteOut1]
  split
  · exact onlyChanges_trans (vx_onlyChanges _ s) (raise_trafficMoves _ _ _).parts
  · exact vx_onlyChanges _ s

theorem refreshOut1_onlyChanges (s : State) : onlyChanges trafficParts s (refreshOut1 s) := by
  rw [refreshOut1]
  split
  · exact onlyChanges_refl _ s
  · exact out1Drive_onlyChanges _ s

theorem linkDown_onlyChanges (n : PortNo) (s : State) : onlyChanges trafficParts s (linkDown n s) := by
  rw [linkDown]
  split
  · exact onlyChanges_refl _ s
  · exact onlyChanges_trans (linkDropped_onlyChanges n s) <| onlyChanges_trans (modPort_onlyChanges n _ _) <|
      onlyChanges_trans (refreshPort_trafficMoves n _).parts (refreshOut1_onlyChanges _)

theorem cutOff_onlyChanges (l : Lane) (s : State) : onlyChanges trafficParts s (cutOff l s) := by
  refine foldl_onlyChanges (fun t n => ?_) _ s
  split
  · exact linkDown_onlyChanges n t
  · exact onlyChanges_refl _ t

/-- Traffic does not touch the unit's own registers: slots, straps, relay sets, SYS_HFLT. -/
theorem onlyChanges_traffic_sys {s t : State} (h : onlyChanges trafficParts s t) : t.sys = s.sys := by
  obtain ⟨-, -, -, hparts⟩ := h
  exact hparts .sys (by simp [trafficParts])

theorem onlyChanges_traffic_pwr {s t : State} (h : onlyChanges trafficParts s t) : t.pwr = s.pwr := by
  obtain ⟨-, -, -, hparts⟩ := h
  exact hparts .pwr (by simp [trafficParts])

end Sys2Proof.Machine
end

section
/-! SUPPORT. The bypass relay sets (R49 to R56): what a drive pulse, the end of a hold and a monitor fault do to a set, and that the other
set stays as it is. Settles O12. -/
namespace Sys2Proof.Machine

/-! ### A set changed -/

@[simp] theorem bypOf_modByp (l : Lane) (g : BypassState → BypassState) (s : State) :
    bypOf l (modByp l g s) = g (bypOf l s) := by cases l <;> rfl

@[simp] theorem bypOf_other_modByp (l : Lane) (g : BypassState → BypassState) (s : State) :
    bypOf (Lane.other l) (modByp l g s) = bypOf (Lane.other l) s := by cases l <;> rfl

theorem modByp_onlyChanges (l : Lane) (g : BypassState → BypassState) (s : State) : onlyChanges [.sys] s (modByp l g s) := by
  refine ⟨by cases l <;> rfl, by cases l <;> rfl, by cases l <;> rfl, fun p hp => ?_⟩
  cases p <;> cases l <;> simp [samePart, modByp] at hp ⊢

@[simp] theorem modByp_out (l : Lane) (g : BypassState → BypassState) (s : State) : (modByp l g s).out = s.out := by
  cases l <;> rfl

theorem bypOf_congr {s t : State} (h : t.sys = s.sys) (l : Lane) : bypOf l t = bypOf l s := by
  cases l <;> simp only [bypOf, h]

@[simp] theorem bypOf_emit (l : Lane) (x : Emission) (s : State) : bypOf l (emit x s) = bypOf l s := bypOf_congr rfl l

@[simp] theorem bypOf_raise (l : Lane) (code : Half) (data : List Byte) (s : State) : bypOf l (raise code data s) = bypOf l s :=
  bypOf_congr (raise_sys ..) l

/-- The ports a set cuts off move no relay. -/
@[simp] theorem bypOf_cutOff (x l : Lane) (s : State) : bypOf x (cutOff l s) = bypOf x s :=
  bypOf_congr (onlyChanges_traffic_sys (cutOff_onlyChanges l s)) x

/-! ### What the commands do to a set -/

theorem exec_bypassDrivePulse (l : Lane) (s : State) : exec (.bypassDrivePulse l) s = .next (drivePulse l s) := rfl
theorem exec_bypassHoldExpiry (l : Lane) (s : State) : exec (.bypassHoldExpiry l) s = .next (holdOver l s) := rfl
theorem exec_bypassMonitorFault (l : Lane) (b : Bool) (s : State) :
    exec (.bypassMonitorFault l b) s = .next (monitorFault l b s) := rfl

/-- The node drives the set, which guards a lane role and has its cartridge: the pulse leaves (R50, R51). -/
theorem drivePulse_of_driven {l : Lane} {s : State} (hdrives : drives s = true) (hguarded : guarded l s = true)
    (hloop : (slot (laneLoop l) s).st ≠ 0) :
    drivePulse l s = emit (.bypassPulse l)
      (modByp l (fun b => moveContacts false { b with holdUntil := some (s.now + ms 40) }) s) := by
  have hcart : ((slot (laneLoop l) s).st != 0) = true := bne_iff_ne.mpr hloop
  simp only [drivePulse, hdrives, hguarded, hcart, Bool.and_self, if_true]

/-- The hold has ended without a pulse (R52). -/
theorem holdOver_of_ended {l : Lane} {d : Ns} {s : State} (hhold : (bypOf l s).holdUntil = some d) (hd : d ≤ s.now) :
    holdOver l s = cutOff l (modByp l (fun b => moveContacts true { b with holdUntil := none }) s) := by
  simp [holdOver, due, hhold, hd, closeSet]

/-- The monitor contact reads as the coil is driven: the contacts disagree with it (R56). -/
theorem monitorFault_of_disagrees {l : Lane} {s : State} (hp : s.cel.pstate ≠ .off) :
    monitorFault l (bypOf l s).holdUntil.isSome s
      = raise 0x0025 (d1 (Lane.num l) ++ d1 (bit (bypOf l s).holdUntil.isSome) ++ d1 (bit (bypOf l s).holdUntil.isSome))
          (modByp l (fun b => { b with fault := true })
            (cutOff l (modByp l (fun b => { b with bridged := (bypOf l s).holdUntil.isSome, stuck := true }) s))) := by
  simp [monitorFault, hp]

theorem moveContacts_of_stuck {b : BypassState} (h : b.stuck = true) (c : Bool) : moveContacts c b = b := by
  simp [moveContacts, h]

theorem moveContacts_bridged {b : BypassState} (h : b.stuck = false) (c : Bool) : (moveContacts c b).bridged = c := by
  simp [moveContacts, h]

/-- Settles O12: one clause for each command, and the contacts of a set that is stuck and of one that is not. -/
theorem bypassRelaysFollowTheirPulses : Obligations.BypassRelaysFollowTheirPulses := by
  intro l s
  refine ⟨fun hdrives hguarded hloop => ⟨_, exec_bypassDrivePulse l s, ?_⟩,
    fun d hhold hd => ⟨_, exec_bypassHoldExpiry l s, ?_⟩,
    fun hp b hb => ⟨_, exec_bypassMonitorFault l b s, ?_⟩,
    fun b hb c => moveContacts_bridged hb c, fun b hb c => moveContacts_of_stuck hb c⟩
  · rw [drivePulse_of_driven hdrives hguarded hloop]
    refine ⟨by simp [ms], by simp, by simp [emit], ?_⟩
    exact onlyChanges_trans (onlyChanges_mono (modByp_onlyChanges l _ s) (by simp))
      (onlyChanges_mono (emit_onlyChanges _ _) (by simp))
  · rw [holdOver_of_ended hhold hd]
    simp
  · subst hb
    rw [monitorFault_of_disagrees hp]
    simp

end Sys2Proof.Machine
end

section
/-! SUPPORT. Cartridges seated and unseated outside OFF (R57, R613, R614, R657). Settles O13. -/
namespace Sys2Proof.Machine

theorem exec_cartridgeSeated (n : Slot) (c : CartInfo) (s : State) : exec (.cartridgeSeated n c) s = .next (seat n c s) := rfl
theorem exec_cartridgeUnseated (n : Slot) (s : State) : exec (.cartridgeUnseated n) s = .next (unseat n s) := rfl

/-- What a slot shows of a cartridge just seated: a CT-8 and an SR-1 are not ready yet, every other one is (R57). -/
def seatedSlot (n : Slot) (c : CartInfo) : SlotState :=
  { st := if (slotCt n).isSome || n == srSlot then 1 else 2, lp2f := c.lp2f && (slotPorts n).length != 0, serial := c.serial,
    build := c.build, fwMajor := if (slotCt n).isSome then c.fwMajor else 0, fwMinor := if (slotCt n).isSome then c.fwMinor else 0 }

theorem seatedSlot_st_ne (n : Slot) (c : CartInfo) : (seatedSlot n c).st ≠ 0 := by
  simp only [seatedSlot]
  split <;> simp

theorem seat_of_empty {n : Slot} {c : CartInfo} {s : State} (hp : s.cel.pstate ≠ .off) (hempty : (slot n s).st = 0) :
    seat n c s = cartHere n c (appendSwap n 1 (cartType n (seatedSlot n c).lp2f) (seatedSlot n c).build (seatedSlot n c).serial
      (raise 0x0020 (cartData n (seatedSlot n c)) (setLever n .none (modSlot n (fun _ => seatedSlot n c) s)))) := by
  simp [seat, hempty, hp, seatedSlot]

/-- A cartridge is pulled that nobody has made safe (R613). -/
theorem unseat_of_pulled {n : Slot} {s : State} (hp : s.cel.pstate ≠ .off) (hseated : (slot n s).st ≠ 0)
    (hsafe : leverSafe n s = false) :
    unseat n s =
      let u := setLever n .none (answerLever n (d1 3 ++ d1 0) (modSlot n (fun _ => SlotState.empty) s))
      let w := raise 0x0021 (cartData n (slot n s)) u
      refreshOut1 (cartGone n true (appendSwap n 3 (cartType n (slot n s).lp2f) (slot n s).build (slot n s).serial
        (raise 0xC014 (d1 n.val) { w with red.cntUnannounced := w.red.cntUnannounced + 1 }))) := by
  have hst : ((slot n s).st == 0) = false := beq_false_of_ne hseated
  have hoff : (s.cel.pstate == .off) = false := beq_false_of_ne hp
  simp only [unseat, hst, hoff, hsafe, Bool.not_false, Bool.false_eq_true, if_true, if_false]

/-- Settles O13: `seat` and `unseat` in the case each clause names. -/
theorem seatingAndUnseatingAreRecorded : Obligations.SeatingAndUnseatingAreRecorded := by
  intro n s hp
  refine ⟨fun c hempty => ⟨seatedSlot n c, seatedSlot_st_ne n c, rfl, rfl, ?_⟩, fun hseated hsafe => ?_⟩
  · rw [exec_cartridgeSeated, seat_of_empty hp hempty, cartData]
  · rw [exec_cartridgeUnseated, unseat_of_pulled hp hseated hsafe, cartData]

end Sys2Proof.Machine
end

section
/-! SUPPORT. Straps read again (R62), foreign voltage on a port (R75) and a reversed battery (R76): what each sets in the unit's registers.
Settles O14. -/
namespace Sys2Proof.Machine

theorem exec_strapReread (r : StrapReading) (s : State) : exec (.strapReread r) s = .next (strapRead r s) := rfl
theorem exec_foreignVoltageDetected (n : PortNo) (m : BitVec 4) (s : State) :
    exec (.foreignVoltageDetected n m) s = .next (foreignVoltage n m s) := rfl
theorem exec_foreignVoltageCleared (n : PortNo) (s : State) :
    exec (.foreignVoltageCleared n) s = .next (voltageGone n s) := rfl
theorem exec_reversedBattery (m : PwNo) (s : State) : exec (.reversedBattery m) s = .next (reversed m s) := rfl

/-! ### Straps -/

theorem sys_onlyChanges (x : SysUnit) (s : State) : onlyChanges [.sys] s { s with sys := x } := by
  refine ⟨rfl, rfl, rfl, fun p hp => ?_⟩
  cases p <;> simp [samePart] at hp ⊢

/-- The unit's registers differ, events may have been raised, and host memory is as before. -/
structure NotesInSys (s t : State) : Prop where
  parts : onlyChanges (.sys :: eventParts) s t
  host : hostSame s t

theorem NotesInSys.trans {s t u : State} (h : NotesInSys s t) (k : NotesInSys t u) : NotesInSys s u :=
  ⟨onlyChanges_trans h.parts k.parts, hostSame_trans h.host k.host⟩

theorem sys_notesInSys (x : SysUnit) (s : State) : NotesInSys s { s with sys := x } :=
  ⟨onlyChanges_mono (sys_onlyChanges x s) (by simp), fun _ _ => rfl⟩

/-- A flag of SYS set with its event. -/
theorem raise_notesInSys (code : Half) (data : List Byte) (x : SysUnit) (s : State) :
    NotesInSys s (raise code data { s with sys := x }) :=
  (sys_notesInSys x s).trans ⟨onlyChanges_mono (raise_onlyChanges _ _ _) (by simp), raise_hostSame _ _ _⟩

/-- The live values and the next reading after a reading of the straps (R62). -/
def strapsShown (r : StrapReading) (s : State) : SysUnit :=
  { s.sys with pselLive := pselOf (strapBit (some r.psel0)).1 (strapBit (some r.psel1)).1,
               plockLive := (strapBit (some r.plock)).1, strapDue := some (s.now + ticksNs 1024) }

/-- A reading that is due shows its values; beyond that it sets MARGINAL and CHANGED at most, each with its event. -/
theorem strapRead_of_due {r : StrapReading} {d : Ns} {s : State} (hdue : s.sys.strapDue = some d) (hd : d ≤ s.now) :
    ∃ marginal changed, (strapRead r s).sys = { strapsShown r s with strapMarginal := marginal, strapChanged := changed }
      ∧ NotesInSys s (strapRead r s) := by
  have hnow : due s.sys.strapDue s = true := by simp [due, hdue, hd]
  simp only [strapRead, hnow, Bool.not_true, Bool.false_eq_true, if_false]
  split
  · split
    · exact ⟨_, _, raise_sys .., raise_notesInSys _ _ _ s⟩
    · exact ⟨_, _, rfl, sys_notesInSys _ s⟩
  · split
    · exact ⟨_, _, by rw [raise_sys, raise_sys]; rfl, (raise_notesInSys _ _ _ s).trans (raise_notesInSys _ _ _ _)⟩
    · exact ⟨_, _, raise_sys .., raise_notesInSys _ _ _ s⟩

/-! ### Foreign voltage -/

/-- FV_LIVE and FV_SEEN of a port set (R75). -/
def voltageNoted (n : PortNo) (s : State) : State :=
  { s with sys.fvLive := s.sys.fvLive ||| BitVec.ofNat 8 (2 ^ n.val), sys.fvSeen := s.sys.fvSeen ||| BitVec.ofNat 8 (2 ^ n.val) }

/-- A port that is connected and has its cartridge is held down: what follows the note is traffic and the port's own state. -/
theorem foreignVoltage_of_connected {n : PortNo} {m : BitVec 4} {s : State} (hp : s.cel.pstate ≠ .off)
    (hconn : connected n s = true) (hseated : (slot (portSlot n) s).st ≠ 0) :
    ∃ u, onlyChanges trafficParts (voltageNoted n s) u ∧ foreignVoltage n m s = refreshPort n (powerDown n u) := by
  have hoff : (s.cel.pstate == .off) = false := beq_false_of_ne hp
  have hst : ((slot (portSlot n) s).st == 0) = false := beq_false_of_ne hseated
  simp only [foreignVoltage, hoff, hconn, hst, Bool.not_true, Bool.or_false, Bool.false_eq_true, if_false]
  refine ⟨_, onlyChanges_trans ?_ (cableAbort_onlyChanges n 8 _), rfl⟩
  refine foldl_onlyChanges (fun t i => ?_) _ _
  split
  · exact (raise_trafficMoves _ _ t).parts
  · exact onlyChanges_refl _ t

theorem foreignVoltage_spec {n : PortNo} {m : BitVec 4} {s : State} (hp : s.cel.pstate ≠ .off)
    (hconn : connected n s = true) (hseated : (slot (portSlot n) s).st ≠ 0) :
    (foreignVoltage n m s).sys = (voltageNoted n s).sys ∧ (port n (foreignVoltage n m s)).phyOn = false
      ∧ (port n (foreignVoltage n m s)).link = false := by
  obtain ⟨u, hu, heq⟩ := foreignVoltage_of_connected (m := m) hp hconn hseated
  have hrefresh := refreshPort_trafficMoves n (powerDown n u)
  rw [heq]
  refine ⟨onlyChanges_traffic_sys ?_, ?_, ?_⟩
  · exact onlyChanges_trans hu (onlyChanges_trans (powerDown_onlyChanges n u) hrefresh.parts)
  · rw [hrefresh.phyOn, powerDown_phyOn]
  · rw [hrefresh.link, powerDown_link]

/-- FV_LIVE of the port alone goes; the port that is released changes no register of the unit (R75). -/
theorem voltageGone_sys {n : PortNo} {s : State} (hlive : fvLiveAt n s = true) :
    (voltageGone n s).sys = { s.sys with fvLive := s.sys.fvLive &&& ~~~(BitVec.ofNat 8 (2 ^ n.val)) } := by
  rw [voltageGone, if_pos hlive, onlyChanges_traffic_sys (retarget_onlyChanges false n _)]

/-! ### A reversed battery -/

/-- What a PW-2 shows of its battery's presence and polarity, and the unit's registers, are as before. -/
structure KeepsBattery (m : PwNo) (s t : State) : Prop where
  sys : t.sys = s.sys
  rev : (pw m t).battRev = (pw m s).battRev
  pres : (pw m t).battPres = (pw m s).battPres

theorem KeepsBattery.refl (m : PwNo) (s : State) : KeepsBattery m s s := ⟨rfl, rfl, rfl⟩

theorem KeepsBattery.trans {m : PwNo} {s t u : State} (h : KeepsBattery m s t) (k : KeepsBattery m t u) : KeepsBattery m s u :=
  ⟨k.sys.trans h.sys, k.rev.trans h.rev, k.pres.trans h.pres⟩

theorem pw_congr {s t : State} (h : t.pwr = s.pwr) (m : PwNo) : pw m t = pw m s := by simp only [pw, h]

theorem pw_raise (m : PwNo) (code : Half) (data : List Byte) (s : State) : pw m (raise code data s) = pw m s :=
  pw_congr (raise_pwr ..) m

theorem onlyChanges_traffic_keepsBattery {s t : State} (h : onlyChanges trafficParts s t) (m : PwNo) : KeepsBattery m s t := by
  have hpw := pw_congr (onlyChanges_traffic_pwr h) m
  exact ⟨onlyChanges_traffic_sys h, by rw [hpw], by rw [hpw]⟩

theorem raise_keepsBattery (m : PwNo) (code : Half) (data : List Byte) (s : State) : KeepsBattery m s (raise code data s) :=
  onlyChanges_traffic_keepsBattery (raise_trafficMoves code data s).parts m

/-- A change of either PW-2 that keeps what it shows of its battery. -/
theorem modPw_keepsBattery {g : PwUnit → PwUnit} (m i : PwNo) (s : State)
    (hrev : ∀ x, (g x).battRev = x.battRev := by intro; rfl) (hpres : ∀ x, (g x).battPres = x.battPres := by intro; rfl) :
    KeepsBattery m s (modPw i g s) := by
  by_cases h : m = i
  · subst h; exact ⟨modPw_sys .., by rw [pw_modPw, hrev], by rw [pw_modPw, hpres]⟩
  · exact ⟨modPw_sys .., by rw [pw_modPw_ne _ _ _ _ h], by rw [pw_modPw_ne _ _ _ _ h]⟩

theorem tryHandback_keepsBattery (m : PwNo) (s : State) : KeepsBattery m s (tryHandback m s) := by
  simp only [tryHandback]
  split
  · exact .refl m s
  split
  · exact modPw_keepsBattery m m s
  split
  · exact modPw_keepsBattery m m s
  split
  · exact .refl m s
  · exact (modPw_keepsBattery m m s).trans (raise_keepsBattery m _ _ _)

theorem abortTest_keepsBattery (m i : PwNo) (s : State) : KeepsBattery m s (abortTest i s) := by
  rw [abortTest]
  split
  · exact (modPw_keepsBattery m i s).trans (onlyChanges_traffic_keepsBattery (respond_trafficMoves _ _ _ _ _ _).parts m)
  · exact .refl m s

theorem handOver_keepsBattery (m : PwNo) (s : State) : KeepsBattery m s (handOver m s) := by
  simp only [handOver]
  split
  · exact (modPw_keepsBattery m m s).trans (raise_keepsBattery m _ _ _)
  · exact modPw_keepsBattery m m s

theorem lostAgain_keepsBattery (m : PwNo) (src : PwState) (s : State) : KeepsBattery m s (lostAgain m src s) := by
  simp only [lostAgain]
  exact (modPw_keepsBattery m m s (fun x => by split <;> rfl) (fun x => by split <;> rfl)).trans (raise_keepsBattery m _ _ _)

/-- Where a PW-2 goes after the loss of a source does not change what it shows of its battery. -/
theorem afterLoss_keepsBattery (m : PwNo) (src : PwState) (s : State) : KeepsBattery m s (afterLoss m src s) := by
  have htests : KeepsBattery m s (abortTest 1 (abortTest 0 s)) :=
    (abortTest_keepsBattery m 0 s).trans (abortTest_keepsBattery m 1 _)
  simp only [afterLoss]
  refine (htests.trans ?_).trans (tryHandback_keepsBattery m _)
  split
  · exact lostAgain_keepsBattery m src _
  split
  · exact handOver_keepsBattery m _
  split
  · exact modPw_keepsBattery m m _
  · exact .refl m _

/-- BATT_A_REV or BATT_B_REV of a PW-2 set (R76). -/
def reversalNoted (m : PwNo) (x : SysUnit) : SysUnit :=
  { x with battARev := x.battARev || m == 0, battBRev := x.battBRev || m == 1 }

theorem showReversed_sys (m : PwNo) {s : State} (hp : s.cel.pstate ≠ .off) : (showReversed m s).sys = reversalNoted m s.sys := by
  have hoff : (s.cel.pstate == .off) = false := beq_false_of_ne hp
  simp only [showReversed, hoff, Bool.false_eq_true, if_false, raise_sys]
  match m with
  | 0 => simp [reversalNoted]
  | 1 => simp [reversalNoted]

theorem showReversed_pw (m i : PwNo) {s : State} : pw i (showReversed m s) = pw i s := by
  rw [showReversed]
  split
  · rfl
  · rw [pw_raise]
    split <;> rfl

/-- A battery judged reversed is shown so and is present no more; the unit's registers stay (R488, R76). -/
theorem batteryGone_reversed {m : PwNo} {s : State} (hst : (pw m s).st ≠ .absent) :
    (batteryGone m .reversed s).sys = s.sys ∧ (pw m (batteryGone m .reversed s)).battRev = true
      ∧ (pw m (batteryGone m .reversed s)).battPres = false := by
  have hfitted : ((pw m s).st == .absent) = false := beq_false_of_ne hst
  simp only [batteryGone, hfitted, Bool.false_eq_true, if_false]
  cases hpres : (pw m s).battPres with
  | false => simp [hpres]
  | true =>
    simp only [Bool.not_true, Bool.false_eq_true, if_false]
    obtain ⟨hsys, hrev, hgone⟩ := (raise_keepsBattery m 0x1003 (pwData m) (modPw m (inputLost true)
      (modPw m (fun x => { x with battRev := true }) s))).trans (afterLoss_keepsBattery m .battery _)
    exact ⟨by simpa using hsys, by simpa [inputLost] using hrev, by simpa [inputLost] using hgone⟩

theorem reversed_of_fitted {m : PwNo} {s : State} (hst : (pw m s).st ≠ .absent) (hrev : (pw m s).battRev = false) :
    reversed m s = batteryGone m .reversed (showReversed m s) := by
  have hfitted : ((pw m s).st == .absent) = false := beq_false_of_ne hst
  simp only [reversed, hfitted, hrev, Bool.or_false, Bool.false_eq_true, if_false]

/-- Settles O14: one clause for each command. -/
theorem strapsForeignVoltageAndReversedBattery : Obligations.StrapsForeignVoltageAndReversedBattery := by
  intro s hp
  refine ⟨fun r d hdue hd => ⟨_, exec_strapReread r s, ?_⟩,
    fun n m hconn hseated => ⟨_, exec_foreignVoltageDetected n m s, ?_⟩,
    fun n hlive => ⟨_, exec_foreignVoltageCleared n s, ?_⟩, fun m hst hrev => ⟨_, exec_reversedBattery m s, ?_⟩⟩
  · obtain ⟨marginal, changed, hsys, hparts, hhost⟩ := strapRead_of_due (r := r) hdue hd
    rw [hsys]
    exact ⟨rfl, rfl, rfl, rfl, rfl, hparts, hhost⟩
  · obtain ⟨hsys, hdown⟩ := foreignVoltage_spec (m := m) hp hconn hseated
    rw [hsys]
    exact ⟨rfl, rfl, hdown⟩
  · rw [voltageGone_sys hlive]
    exact ⟨rfl, rfl⟩
  · have hfitted : (pw m (showReversed m s)).st ≠ .absent := by rwa [showReversed_pw]
    obtain ⟨hsys, hshown, hgone⟩ := batteryGone_reversed hfitted
    rw [reversed_of_fitted hst hrev, hsys, showReversed_sys m hp]
    exact ⟨rfl, rfl, hshown, fun _ => hgone⟩

end Sys2Proof.Machine
end

section
/-! SUPPORT. The receiver's flow rules (R174, R175): how far numbers lie ahead of NEXT, and what giving up, draining and placing do to the
frames held and to the numbers passed. Settles O20. -/
namespace Sys2Proof.Machine

/-! ### Distances from NEXT -/

@[simp] theorem ahead_self (next : Half) : ahead next next = 0 := by simp [ahead]

theorem ahead_eq_zero {next q : Half} : ahead next q = 0 ↔ q = next := by
  simp only [ahead, ← BitVec.toNat_inj, BitVec.toNat_sub]
  omega

/-- Numbers equally far ahead are the same number. -/
theorem ahead_inj {next p q : Half} : ahead next p = ahead next q ↔ p = q := by
  simp only [ahead, ← BitVec.toNat_inj, BitVec.toNat_sub]
  omega

theorem ahead_add_ofNat {next : Half} {k : Nat} (hk : k < 65536) : ahead next (next + BitVec.ofNat 16 k) = k := by
  simp only [ahead, BitVec.toNat_sub, BitVec.toNat_add, BitVec.toNat_ofNat]
  omega

/-- NEXT moved on by `k` numbers that all come before `q`: `q` lies `k` nearer. -/
theorem ahead_of_moved {next q : Half} {k : Nat} (hk : k ≤ ahead next q) :
    ahead (next + BitVec.ofNat 16 k) q = ahead next q - k := by
  simp only [ahead, BitVec.toNat_sub, BitVec.toNat_add, BitVec.toNat_ofNat] at hk ⊢
  omega

/-! ### Numbers put out -/

/-- How many numbers one output accounts for: a delivered frame its own, a gap every missing one. -/
def FlowOut.span : FlowOut → Nat
  | .deliver _ => 1
  | .gap _ n => n

/-- How many numbers the outputs account for. -/
def numbersPut (outs : List FlowOut) : Nat := (outs.map FlowOut.span).sum

@[simp] theorem numbersPut_nil : numbersPut [] = 0 := rfl
@[simp] theorem numbersPut_deliver (h : HeldFrame) (outs : List FlowOut) :
    numbersPut (.deliver h :: outs) = 1 + numbersPut outs := rfl
@[simp] theorem numbersPut_append (a b : List FlowOut) : numbersPut (a ++ b) = numbersPut a + numbersPut b := by
  simp [numbersPut]

/-- The gap from the `cur`-th number to before the `d`-th, where there is one. -/
@[simp] theorem numbersPut_gapTo (first : Half) (cur d : Nat) :
    numbersPut (if cur < d then [.gap first (d - cur)] else []) = d - cur := by
  split
  · rfl
  · next h => exact (Nat.sub_eq_zero_of_le (Nat.le_of_not_lt h)).symm

/-! ### Frames held in order -/

/-- Held frames lie `lo` to below `hi` ahead of NEXT, in strictly rising order. -/
def HeldBetween (next : Half) (lo hi : Nat) (held : List HeldFrame) : Prop :=
  held.Pairwise (fun a b => ahead next a.frame.fseq < ahead next b.frame.fseq)
  ∧ ∀ y ∈ held, lo ≤ ahead next y.frame.fseq ∧ ahead next y.frame.fseq < hi

theorem HeldBetween.nil (next : Half) (lo hi : Nat) : HeldBetween next lo hi [] := ⟨.nil, nofun⟩

/-- The first frame held lies in the bounds, and all others above it. -/
theorem heldBetween_cons {next : Half} {lo hi : Nat} {h : HeldFrame} {rest : List HeldFrame} :
    HeldBetween next lo hi (h :: rest) ↔ lo ≤ ahead next h.frame.fseq ∧ ahead next h.frame.fseq < hi
      ∧ HeldBetween next (ahead next h.frame.fseq + 1) hi rest := by
  simp only [HeldBetween, List.pairwise_cons, List.forall_mem_cons]
  constructor
  · rintro ⟨⟨hrise, hpair⟩, ⟨hlo, hhi⟩, hall⟩
    exact ⟨hlo, hhi, hpair, fun y hy => ⟨hrise y hy, (hall y hy).2⟩⟩
  · rintro ⟨hlo, hhi, hpair, hall⟩
    exact ⟨⟨fun y hy => (hall y hy).1, hpair⟩, ⟨hlo, hhi⟩,
      fun y hy => ⟨Nat.le_trans hlo (Nat.le_of_succ_le (hall y hy).1), (hall y hy).2⟩⟩

theorem HeldBetween.mono {next : Half} {lo lo' hi hi' : Nat} {held : List HeldFrame} (h : HeldBetween next lo hi held)
    (hlo : lo' ≤ lo) (hhi : hi ≤ hi') : HeldBetween next lo' hi' held :=
  ⟨h.1, fun y hy => ⟨Nat.le_trans hlo (h.2 y hy).1, Nat.lt_of_lt_of_le (h.2 y hy).2 hhi⟩⟩

/-- NEXT moved on by `k` numbers: every frame held lies `k` nearer. -/
theorem HeldBetween.moved {next : Half} {k lo hi : Nat} {held : List HeldFrame} (h : HeldBetween next (k + lo) hi held) :
    HeldBetween (next + BitVec.ofNat 16 k) lo (hi - k) held := by
  obtain ⟨hpair, hall⟩ := h
  have hmoved : ∀ y ∈ held, ahead (next + BitVec.ofNat 16 k) y.frame.fseq = ahead next y.frame.fseq - k :=
    fun y hy => ahead_of_moved (by have := (hall y hy).1; omega)
  refine ⟨hpair.imp_of_mem fun {a b} ha hb hlt => ?_, fun y hy => ?_⟩
  · have := (hall a ha).1
    rw [hmoved a ha, hmoved b hb]
    omega
  · have := hall y hy
    rw [hmoved y hy]
    omega

/-- The invariant of a receive flow (R174, R175): what is held lies 1 to 63 ahead of NEXT, in order. -/
def FlowInOrder (r : RxFlow) : Prop := HeldBetween r.next 1 64 r.held

/-! ### What each rule does -/

/-- The first `n` numbers are each accounted for, and what stays held lies beyond them. -/
theorem walkHeld_spec {base : Half} {n cur hi : Nat} {held : List HeldFrame} (h : HeldBetween base cur hi held) (hn : cur ≤ n) :
    numbersPut (walkHeld base n cur held).1 = n - cur ∧ HeldBetween base n hi (walkHeld base n cur held).2 := by
  induction held generalizing cur with
  | nil => exact ⟨numbersPut_gapTo _ _ _, .nil _ _ _⟩
  | cons x rest ih =>
    obtain ⟨hlo, hhi, hrest⟩ := heldBetween_cons.mp h
    rw [walkHeld]
    dsimp only
    split
    · next hlt =>
      obtain ⟨hput, hheld⟩ := ih hrest hlt
      refine ⟨?_, hheld⟩
      rw [numbersPut_append, numbersPut_gapTo, numbersPut_deliver, hput]
      omega
    · next hge =>
      exact ⟨numbersPut_gapTo _ _ _, heldBetween_cons.mpr ⟨Nat.le_of_not_lt hge, hhi, hrest⟩⟩

/-- NEXT moves on by the numbers delivered, no more of them than lie below the upper bound; no frame that is next stays held. -/
theorem drainHeld_spec {next : Half} {hi : Nat} {held : List HeldFrame} (h : HeldBetween next 0 hi held) :
    (drainHeld next held).1 = next + BitVec.ofNat 16 (numbersPut (drainHeld next held).2.1)
    ∧ numbersPut (drainHeld next held).2.1 ≤ hi
    ∧ HeldBetween (drainHeld next held).1 1 hi (drainHeld next held).2.2 := by
  induction held generalizing next hi with
  | nil => exact ⟨by simp [drainHeld], by simp [drainHeld], .nil _ _ _⟩
  | cons x rest ih =>
    obtain ⟨-, hhi, hrest⟩ := heldBetween_cons.mp h
    rw [drainHeld]
    split
    · next heq =>
      have hzero : ahead next x.frame.fseq = 0 := ahead_eq_zero.mpr (eq_of_beq heq)
      rw [hzero] at hhi hrest
      obtain ⟨hnext, hput, hheld⟩ := ih (next := next + 1) (hrest.moved (k := 1) (lo := 0))
      refine ⟨?_, ?_, hheld.mono (Nat.le_refl _) (Nat.sub_le _ _)⟩
      · rw [numbersPut_deliver, BitVec.ofNat_add, ← BitVec.add_assoc]
        exact hnext
      · rw [numbersPut_deliver]
        omega
    · next hne =>
      have hpos : ahead next x.frame.fseq ≠ 0 := fun h0 => hne (beq_of_eq (ahead_eq_zero.mp h0))
      exact ⟨by simp, by simp, heldBetween_cons.mpr ⟨Nat.pos_of_ne_zero hpos, hhi, hrest⟩⟩

/-- A frame between the bounds whose number is not held keeps the order. -/
theorem insertHeld_between {next : Half} {lo hi : Nat} {h : HeldFrame} {held : List HeldFrame}
    (hheld : HeldBetween next lo hi held) (hlo : lo ≤ ahead next h.frame.fseq) (hhi : ahead next h.frame.fseq < hi)
    (hnew : ∀ x ∈ held, x.frame.fseq ≠ h.frame.fseq) : HeldBetween next lo hi (insertHeld next h held) := by
  induction held generalizing lo with
  | nil => exact heldBetween_cons.mpr ⟨hlo, hhi, .nil _ _ _⟩
  | cons x rest ih =>
    obtain ⟨hxlo, hxhi, hrest⟩ := heldBetween_cons.mp hheld
    rw [insertHeld]
    split
    · next hlt => exact heldBetween_cons.mpr ⟨hlo, hhi, heldBetween_cons.mpr ⟨hlt, hxhi, hrest⟩⟩
    · next hge =>
      have hne : ahead next x.frame.fseq ≠ ahead next h.frame.fseq := fun e =>
        hnew x List.mem_cons_self (ahead_inj.mp e)
      exact heldBetween_cons.mpr ⟨hxlo, hxhi, ih hrest (by omega) fun y hy => hnew y (List.mem_cons_of_mem x hy)⟩

/-- A rule moves a flow on: from one in order to one in order, NEXT moved by the numbers put out, at most `bound`. -/
structure MovesOn (bound : Nat) (r : RxFlow) (t : RxFlow) (outs : List FlowOut) : Prop where
  inOrder : FlowInOrder t
  next : t.next = r.next + BitVec.ofNat 16 (numbersPut outs)
  put : numbersPut outs ≤ bound

theorem MovesOn.trans {m n : Nat} {r t u : RxFlow} {a b : List FlowOut} (h : MovesOn m r t a) (k : MovesOn n t u b) :
    MovesOn (m + n) r u (a ++ b) :=
  ⟨k.inOrder, by rw [k.next, h.next, numbersPut_append, BitVec.ofNat_add, BitVec.add_assoc],
    by rw [numbersPut_append]; exact Nat.add_le_add h.put k.put⟩

theorem MovesOn.mono {m n : Nat} {r t : RxFlow} {outs : List FlowOut} (h : MovesOn m r t outs) (hn : m ≤ n) :
    MovesOn n r t outs := ⟨h.inOrder, h.next, Nat.le_trans h.put hn⟩

theorem MovesOn.refl {r : RxFlow} (h : FlowInOrder r) : MovesOn 0 r r [] := ⟨h, by simp, Nat.le_refl _⟩

/-- Giving up `n` numbers passes these and the frames next in order behind them, of which none lies 64 or more ahead. -/
theorem giveUp_movesOn {n : Nat} {r : RxFlow} (h : FlowInOrder r) :
    MovesOn (n + (64 - n)) r (giveUp n r).1 (giveUp n r).2 ∧ n ≤ numbersPut (giveUp n r).2 := by
  obtain ⟨hwalk, hbeyond⟩ := walkHeld_spec (h.mono (Nat.zero_le 1) (Nat.le_refl _)) (Nat.zero_le n)
  obtain ⟨hnext, hdrain, hheld⟩ := drainHeld_spec (HeldBetween.moved (lo := 0) hbeyond)
  have hput : numbersPut (giveUp n r).2
      = n + numbersPut (drainHeld (r.next + BitVec.ofNat 16 n) (walkHeld r.next n 0 r.held).2).2.1 := by
    rw [giveUp, numbersPut_append, hwalk, Nat.sub_zero]
  rw [hput]
  refine ⟨⟨hheld.mono (Nat.le_refl _) (Nat.sub_le _ _), ?_, ?_⟩, Nat.le_add_right _ _⟩
  · rw [hput, BitVec.ofNat_add, ← BitVec.add_assoc]
    exact hnext
  · rw [hput]
    exact Nat.add_le_add_left hdrain n

/-- A frame less than 64 ahead is delivered with those next in order behind it, was held already, or is held (R175). -/
theorem placeNear_movesOn {h : HeldFrame} {r : RxFlow} (hr : FlowInOrder r) (hd : ahead r.next h.frame.fseq < 64) :
    MovesOn 64 r (placeNear h r).1 (placeNear h r).2.1 := by
  rw [placeNear]
  split
  · have hbeyond : HeldBetween (r.next + 1) 0 63 r.held := HeldBetween.moved (k := 1) (lo := 0) hr
    obtain ⟨hnext, hput, hheld⟩ := drainHeld_spec hbeyond
    refine ⟨hheld.mono (Nat.le_refl _) (Nat.le_succ _), ?_, ?_⟩
    · rw [numbersPut_deliver, BitVec.ofNat_add, ← BitVec.add_assoc]
      exact hnext
    · rw [numbersPut_deliver]
      omega
  · next hne =>
    split
    · exact (MovesOn.refl hr).mono (Nat.zero_le _)
    · next hnew =>
      have hpos : ahead r.next h.frame.fseq ≠ 0 := fun h0 => hne (beq_of_eq (ahead_eq_zero.mp h0))
      have hfree : ∀ x ∈ r.held, x.frame.fseq ≠ h.frame.fseq := fun x hx e =>
        hnew (List.any_eq_true.mpr ⟨x, hx, beq_of_eq e⟩)
      exact ⟨insertHeld_between hr (Nat.pos_of_ne_zero hpos) hd hfree, by simp, by simp⟩

/-- A frame 2^15 or more ahead counts as behind NEXT and leaves the flow as it was (R175). -/
theorem placeFrame_of_behind {h : HeldFrame} {r : RxFlow} (hd : 32768 ≤ ahead r.next h.frame.fseq) :
    (placeFrame h r).1 = r ∧ (placeFrame h r).2.1 = [] := by
  rw [placeFrame, if_neg (by omega), if_neg (by omega)]
  exact ⟨rfl, rfl⟩

/-- Every arriving frame moves its flow on by fewer numbers than there are (R175). -/
theorem placeFrame_movesOn (h : HeldFrame) {r : RxFlow} (hr : FlowInOrder r) :
    MovesOn 65535 r (placeFrame h r).1 (placeFrame h r).2.1 := by
  by_cases hnear : ahead r.next h.frame.fseq < 64
  · rw [placeFrame, if_pos hnear]
    exact (placeNear_movesOn hr hnear).mono (by decide)
  · by_cases hfar : ahead r.next h.frame.fseq < 32768
    · rw [placeFrame, if_neg hnear, if_pos hfar]
      obtain ⟨hgive, hpassed⟩ := giveUp_movesOn (n := ahead r.next h.frame.fseq - 63) hr
      have hput := hgive.put
      have hreach : ahead (giveUp (ahead r.next h.frame.fseq - 63) r).1.next h.frame.fseq < 64 := by
        rw [hgive.next, ahead_of_moved] <;> omega
      exact (hgive.trans (placeNear_movesOn hgive.inOrder hreach)).mono (by omega)
    · obtain ⟨hsame, hnone⟩ := placeFrame_of_behind (Nat.le_of_not_lt hfar)
      rw [hsame, hnone]
      exact (MovesOn.refl hr).mono (Nat.zero_le _)

/-- The obligation's bounds are those of `FlowInOrder`. -/
theorem flowInOrder_iff {r : RxFlow} :
    FlowInOrder r ↔ r.held.Pairwise (fun a b => ahead r.next a.frame.fseq < ahead r.next b.frame.fseq)
      ∧ ∀ y ∈ r.held, 1 ≤ ahead r.next y.frame.fseq ∧ ahead r.next y.frame.fseq ≤ 63 := by
  simp only [FlowInOrder, HeldBetween, Nat.lt_succ_iff]

/-- Settles O20: whatever its distance, an arriving frame moves its flow on by the numbers put out. -/
theorem anArrivingFrameKeepsItsFlowInOrder : Obligations.AnArrivingFrameKeepsItsFlowInOrder := by
  intro h r inOrder hr
  obtain ⟨horder, hnext, hput⟩ := placeFrame_movesOn h (flowInOrder_iff.mpr hr)
  refine ⟨flowInOrder_iff.mp horder, ?_, placeFrame_of_behind⟩
  rw [hnext, ahead_add_ofNat (Nat.lt_succ_of_le hput)]
  rfl

end Sys2Proof.Machine
end

section
/-! SUPPORT. Bytes of a layout (R6, R8): a field sent most significant byte first reads back, and reads past it meet
what follows. -/
namespace Sys2Proof.Machine

/-! ### Slices -/

theorem slice_append_front {a b : List Byte} {n : Nat} (h : n = a.length) : slice (a ++ b) 0 n = a := by
  rw [slice, List.drop_zero, h, List.take_left]

theorem slice_append_skip {a b : List Byte} {off n : Nat} (h : a.length ≤ off) :
    slice (a ++ b) off n = slice b (off - a.length) n := by
  rw [slice, slice, List.drop_append, List.drop_eq_nil_of_le h, List.nil_append]

/-! ### Numbers sent most significant byte first -/

theorem toLE_length (n v : Nat) : (toLE n v).length = n := by
  induction n generalizing v with
  | zero => rfl
  | succ n ih => rw [toLE, List.length_cons, ih]

@[simp] theorem toBE_length (n v : Nat) : (toBE n v).length = n := by rw [toBE, List.length_reverse, toLE_length]

theorem ofLE_toLE (n v : Nat) : ofLE (toLE n v) = v % 256 ^ n := by
  induction n generalizing v with
  | zero => simp [toLE, ofLE, Nat.mod_one]
  | succ n ih => rw [toLE, ofLE, ih, Nat.pow_succ', Nat.mod_mul, BitVec.toNat_ofNat]

/-- A number's bytes spell the number. -/
theorem ofBE_toBE (n v : Nat) : ofBE (toBE n v) = v % 256 ^ n := by
  rw [ofBE, toBE, List.reverse_reverse, ofLE_toLE]

/-- A byte is a number of one byte. -/
theorem byteAt_eq_beAt (b : List Byte) (i : Nat) : byteAt b i = beAt b i 1 := by
  rw [byteAt, beAt, slice]
  cases hd : b.drop i with
  | nil => simp [ofBE, ofLE, List.drop_eq_nil_iff.mp hd]
  | cons x rest =>
    have hx : b[i]? = some x := by rw [← List.head?_drop, hd]; rfl
    simp [ofBE, ofLE, hx]

/-- The field at the front of a layout. -/
theorem beAt_toBE (n v : Nat) (rest : List Byte) : beAt (toBE n v ++ rest) 0 n = v % 256 ^ n := by
  rw [beAt, slice_append_front (toBE_length n v).symm, ofBE_toBE]

/-- A field behind the first one. -/
theorem beAt_skip {n off m : Nat} (v : Nat) (rest : List Byte) (h : n ≤ off) :
    beAt (toBE n v ++ rest) off m = beAt rest (off - n) m := by
  rw [beAt, beAt, slice_append_skip (by rwa [toBE_length]), toBE_length]

/-! ### Bits of a byte -/

theorem bit_lt_two (b : Bool) : bit b < 2 := by cases b <;> decide

theorem bitOf_eq_iff {v i : Nat} {b : Bool} : bitOf v i = b ↔ v / 2 ^ i % 2 = bit b := by
  cases b
  · rw [bitOf, beq_eq_false_iff_ne]
    exact Nat.mod_two_ne_one
  · rw [bitOf, beq_iff_eq]
    rfl

end Sys2Proof.Machine
end

section
/-! SUPPORT. The native frame's layout (Table 4.2): what its decoder reads at each place of an encoded header. Settles O24. -/
namespace Sys2Proof.Machine

/-! ### The header's first two bytes -/

/-- Byte 0 of the header: VERSION, CLASS, RAW and LANE. -/
theorem natByte0_fields (f : NatFrame) :
    let b := (0x10 + f.cls.toNat * 4 + bit f.raw * 2 + bit f.lane) % 256 ^ 1
    b / 16 = 1 ∧ bitsOf b 2 2 = f.cls.toNat ∧ bitOf b 1 = f.raw ∧ bitOf b 0 = f.lane := by
  have hcls := f.cls.isLt
  have hraw := bit_lt_two f.raw
  have hlane := bit_lt_two f.lane
  simp only [bitOf_eq_iff, bitsOf]
  omega

/-- Byte 1 of the header: PCP, SYNC, RETX and three bits that are 0. -/
theorem natByte1_fields (f : NatFrame) :
    let b := (f.pcp.toNat * 32 + bit f.sync * 16 + bit f.retx * 8) % 256 ^ 1
    b % 8 = 0 ∧ b / 32 = f.pcp.toNat ∧ bitOf b 4 = f.sync ∧ bitOf b 3 = f.retx := by
  have hpcp := f.pcp.isLt
  have hsync := bit_lt_two f.sync
  have hretx := bit_lt_two f.retx
  simp only [bitOf_eq_iff]
  omega

/-! ### The header -/

theorem natHead_length (f : NatFrame) : (natHead f).length = 26 := by simp [natHead]

@[simp] theorem natHeader_length (f : NatFrame) : (natHeader f).length = 28 := by simp [natHeader, natHead_length]

/-- What a header's numbers read as, whatever follows it. -/
theorem natHeader_reads (f : NatFrame) (hlen : f.payload.length < 65536) (rest : List Byte) :
    let h := natHeader f ++ rest
    byteAt h 0 = (0x10 + f.cls.toNat * 4 + bit f.raw * 2 + bit f.lane) % 256 ^ 1
    ∧ byteAt h 1 = (f.pcp.toNat * 32 + bit f.sync * 16 + bit f.retx * 8) % 256 ^ 1
    ∧ beAt h 2 2 = f.epoch.toNat ∧ beAt h 4 6 = f.src.toNat ∧ beAt h 10 6 = f.dst.toNat ∧ beAt h 16 2 = f.srcCqp.toNat
    ∧ beAt h 18 2 = f.dstCqp.toNat ∧ beAt h 20 2 = f.label.toNat * 16 ∧ beAt h 22 2 = f.fseq.toNat
    ∧ beAt h 24 2 = f.payload.length := by
  have := f.epoch.isLt
  have := f.src.isLt
  have := f.dst.isLt
  have := f.srcCqp.isLt
  have := f.dstCqp.isLt
  have := f.label.isLt
  have := f.fseq.isLt
  simp only [natHeader, natHead, List.append_assoc, byteAt_eq_beAt, beAt_toBE, beAt_skip, Nat.reduceLeDiff,
    Nat.reduceSub, Nat.le_refl, Nat.sub_self]
  refine ⟨trivial, trivial, ?_⟩
  omega

theorem natHeader_take (f : NatFrame) (rest : List Byte) : (natHeader f ++ rest).take 26 = natHead f := by
  rw [natHeader, List.append_assoc, ← natHead_length f, List.take_left]

theorem natHeader_check (f : NatFrame) (rest : List Byte) :
    slice (natHeader f ++ rest) 26 2 = toBE 2 (crc16 (natHead f)).toNat := by
  rw [natHeader, List.append_assoc, slice_append_skip (Nat.le_of_eq (natHead_length f)), natHead_length,
    slice_append_front (toBE_length _ _).symm]

/-- A header decodes to the frame's fields, whatever follows it (R153). -/
theorem decodeHeader_natHeader {f : NatFrame} (hwf : f.wf = true) (rest : List Byte) :
    decodeHeader (natHeader f ++ rest) = some { f with payload := [] } := by
  simp only [NatFrame.wf, Bool.and_eq_true, bne_iff_ne, decide_eq_true_eq] at hwf
  obtain ⟨⟨hsrc, hdst⟩, hlen⟩ := hwf
  obtain ⟨h0, h1, hepoch, hs, hd, hsc, hdc, hlabel, hfseq, -⟩ := natHeader_reads f hlen rest
  obtain ⟨hver, hcls, hraw, hlane⟩ := natByte0_fields f
  obtain ⟨hres, hpcp, hsync, hretx⟩ := natByte1_fields f
  have hkey : ∀ {k : Key}, k ≠ 0 → ¬k.toNat = 0 := fun hk e => hk (BitVec.eq_of_toNat_eq e)
  have hlong : ¬(natHeader f ++ rest).length < 28 := by simp
  have hsc' : ¬1024 ≤ f.srcCqp.toNat := Nat.not_le.mpr f.srcCqp.isLt
  have hdc' : ¬1024 ≤ f.dstCqp.toNat := Nat.not_le.mpr f.dstCqp.isLt
  simp only [decodeHeader, hlong, natHeader_take, natHeader_check, h0, h1, hepoch, hs, hd, hsc, hdc, hlabel, hfseq, hver,
    hcls, hraw, hlane, hres, hpcp, hsync, hretx, hsc', hdc', hkey hsrc, hkey hdst, mkKey, BitVec.ofNat_toNat]
  simp

/-! ### The frame on a lane and in a segment -/

theorem NatFrame.payload_lt {f : NatFrame} (hwf : f.wf = true) : f.payload.length < 65536 :=
  of_decide_eq_true (Bool.and_eq_true_iff.mp hwf).2

/-- PAY_LEN of a header (Table 4.2). -/
theorem natHeader_payLen {f : NatFrame} (hwf : f.wf = true) (rest : List Byte) :
    beAt (natHeader f ++ rest) 24 2 = f.payload.length := by
  obtain ⟨-, -, -, -, -, -, -, -, -, hlen⟩ := natHeader_reads f (NatFrame.payload_lt hwf) rest
  exact hlen

/-- The bytes of a segment decode to the frame (R312). -/
theorem decodeNatBytes_natBytes {f : NatFrame} (hwf : f.wf = true) : decodeNatBytes (natBytes f) = some f := by
  have hrest : (natHeader f ++ f.payload).length - 28 = f.payload.length := by simp
  have hpay : (natHeader f ++ f.payload).drop 28 = f.payload := by rw [← natHeader_length f, List.drop_left]
  simp only [decodeNatBytes, natBytes, decodeHeader_natHeader hwf, natHeader_payLen hwf, hrest, hpay, ne_eq, not_true,
    if_false]

/-- The addresses and the EtherType in front of the header (R150). -/
def natFront (f : NatFrame) : List Byte := natDst ++ (natSrcMac f.src ++ nativeType)

theorem natFront_length (f : NatFrame) : (natFront f).length = 14 := by
  simp [natFront, natDst, natSrcMac, nativeType]

/-- The zeros behind a frame that would be shorter than 64 bytes with its FCS (R152). -/
def natPad (f : NatFrame) : List Byte := List.replicate (60 - (42 + f.payload.length)) 0

theorem encodeNative_eq (f : NatFrame) : encodeNative f = natFront f ++ (natHeader f ++ (f.payload ++ natPad f)) := by
  have hlen : (natDst ++ natSrcMac f.src ++ nativeType ++ natBytes f).length = 42 + f.payload.length := by
    simp [natBytes, natDst, natSrcMac, nativeType]
    omega
  rw [encodeNative]
  rw [hlen]
  simp only [natFront, natPad, natBytes, List.append_assoc]

theorem encodeNative_take (f : NatFrame) : (encodeNative f).take 6 = natDst := by
  rw [encodeNative_eq, natFront, List.append_assoc]
  exact List.take_left' (toBE_length _ _)

theorem encodeNative_drop (f : NatFrame) : (encodeNative f).drop 14 = natHeader f ++ (f.payload ++ natPad f) := by
  rw [encodeNative_eq, ← natFront_length f, List.drop_left]

/-- A frame that is longer than the minimum has no padding. -/
theorem natPad_of_long {f : NatFrame} (h : 60 < (encodeNative f).length) : natPad f = [] := by
  rw [encodeNative_eq, List.length_append, natFront_length, List.length_append, natHeader_length, List.length_append, natPad,
    List.length_replicate] at h
  rw [natPad, List.replicate_eq_nil_iff]
  omega

theorem natHeader_payload (f : NatFrame) (rest : List Byte) :
    slice (natHeader f ++ (f.payload ++ rest)) 28 f.payload.length = f.payload := by
  rw [slice_append_skip (Nat.le_of_eq (natHeader_length f)), natHeader_length, slice_append_front rfl]

/-- The bytes on a lane, padded, decode to the frame (R150 to R153). -/
theorem decodeNative_encodeNative {f : NatFrame} (hwf : f.wf = true) : decodeNative (encodeNative f) = some f := by
  have hrest : (natHeader f ++ (f.payload ++ natPad f)).length - 28 = f.payload.length + (natPad f).length := by simp
  have henough : ¬f.payload.length + (natPad f).length < f.payload.length := by omega
  have hexact : (decide (60 < (encodeNative f).length)
      && decide (f.payload.length + (natPad f).length ≠ f.payload.length)) = false := by
    rw [Bool.and_eq_false_imp]
    intro hlong
    simp [natPad_of_long (of_decide_eq_true hlong)]
  simp only [decodeNative, encodeNative_take, encodeNative_drop, decodeHeader_natHeader hwf, natHeader_payLen hwf, hrest, henough,
    hexact, natHeader_payload, bne_self_eq_false, Bool.false_eq_true, if_false]

/-- Settles O24: over a lane and over the power line. -/
theorem nativeFramesRoundTrip : Obligations.NativeFramesRoundTrip :=
  fun _ hwf => ⟨decodeNative_encodeNative hwf, decodeNatBytes_natBytes hwf⟩

end Sys2Proof.Machine
end

section
/-! SUPPORT. The table of receive flows is left as it is by whatever a delivered frame or a reported gap sets off: completions, responses,
register writes, the remote window (R178, R406, R461 to R482). -/
namespace Sys2Proof.Machine

variable (l : Link) (c : Nat) (s : State)

theorem foldl_rxFlows {α : Type} {f : State → α → State} (hf : ∀ s x, (f s x).bbn.rxFlows = s.bbn.rxFlows) (xs : List α)
    (s : State) : (xs.foldl f s).bbn.rxFlows = s.bbn.rxFlows := by
  induction xs generalizing s with
  | nil => rfl
  | cons x xs ih => rw [List.foldl_cons, ih, hf]

/-- A choice leaves the table where both its branches do. -/
theorem ite_rxFlows {p : Prop} [Decidable p] {a b : State} {fs : List RxFlow} (ha : a.bbn.rxFlows = fs) (hb : b.bbn.rxFlows = fs) :
    (if p then a else b).bbn.rxFlows = fs := by
  split
  · exact ha
  · exact hb

theorem rxFlows_of_ledger {s t : State} (h : onlyChanges ledgerParts s t) : t.bbn.rxFlows = s.bbn.rxFlows :=
  congrArg BbnUnit.rxFlows (bbn_now_of_ledger h).1

/-! ### Completions and waiting items -/

@[simp] theorem countGaps_rxFlows (n : Nat) : (countGaps n s).bbn.rxFlows = s.bbn.rxFlows := rfl

@[simp] theorem cqPush_rxFlows (n : CqNo) (p : CqPend) : (cqPush n p s).bbn.rxFlows = s.bbn.rxFlows := rfl

@[simp] theorem rxReport_rxFlows (it : RxItemDue) : (rxReport l c it s).bbn.rxFlows = s.bbn.rxFlows := by
  rw [rxReport]
  split <;> simp

@[simp] theorem flushTx_rxFlows : (flushTx l c s).bbn.rxFlows = s.bbn.rxFlows := by
  rw [flushTx, foldl_rxFlows fun t d => cqPush_rxFlows t _ _, modCtx_bbn]

@[simp] theorem completeOrigin_rxFlows (o : Option TxRef) (status : Nat) (f : TxPend → TxPend) :
    (completeOrigin o status f s).bbn.rxFlows = s.bbn.rxFlows := by
  cases o with
  | none => rfl
  | some r => simp [completeOrigin, completeTx]

@[simp] theorem rxOffer_rxFlows (it : RxItemDue) : (rxOffer c it s).bbn.rxFlows = s.bbn.rxFlows := by
  rw [rxOffer]
  split
  · simp
  · split
    · split <;> simp
    · simp

@[simp] theorem reportGap_rxFlows (f : NatFrame) (first : Half) (n : Nat) :
    (reportGap f first n s).bbn.rxFlows = s.bbn.rxFlows := by
  rw [reportGap]
  split
  · rfl
  · split <;> simp

/-! ### Frames and responses sent -/

@[simp] theorem enqueue_rxFlows (n : PortNo) (f : OutFrame) : (enqueue n f s).bbn.rxFlows = s.bbn.rxFlows := rfl

@[simp] theorem joinUQueue_rxFlows (x : Lane) (o : OutFrame) : (joinUQueue x o s).bbn.rxFlows = s.bbn.rxFlows := rfl

@[simp] theorem plcQueue_rxFlows (x : Chan) (hop : BitVec 7) (f : NatFrame) (o : Option TxRef) (n : Option PortNo) :
    (plcQueue x hop f o n s).bbn.rxFlows = s.bbn.rxFlows := rfl

@[simp] theorem plcUrgent_rxFlows (x : Chan) (stn : BitVec 7) (f : NatFrame) (o : Option TxRef) :
    (plcUrgent x stn f o s).bbn.rxFlows = s.bbn.rxFlows := rfl

@[simp] theorem stampFlow_rxFlows (f : NatFrame) : (stampFlow f s).2.bbn.rxFlows = s.bbn.rxFlows := rfl

@[simp] theorem flowChan_rxFlows (f : NatFrame) (x : Chan) (stn : BitVec 7) :
    (flowChan f x stn s).2.bbn.rxFlows = s.bbn.rxFlows := by
  rw [flowChan]
  split <;> rfl

@[simp] theorem sendOnLane_rxFlows (x : Lane) (e : End) (f : NatFrame) (o : Option TxRef) (n : Option PortNo) :
    (sendOnLane x e f o n s).bbn.rxFlows = s.bbn.rxFlows := by
  rw [sendOnLane]
  split <;> simp

@[simp] theorem launch_rxFlows (r : Route) (f : NatFrame) (o : Option TxRef) (n : Option PortNo) :
    (launch r f o n s).bbn.rxFlows = s.bbn.rxFlows := by
  cases r with
  | self => rfl
  | lane e x =>
    rw [launch]
    refine ite_rxFlows (by simp) ?_
    split <;> simp
  | plc x stn => exact ite_rxFlows (by simp) (by simp)
  | held => exact ite_rxFlows rfl (by simp)
  | nowhere => simp [launch]

@[simp] theorem sendFlowNode_rxFlows (label : BitVec 12) (dst : Key) (payload : List Byte) :
    (sendFlowNode label dst payload s).bbn.rxFlows = s.bbn.rxFlows := by
  simp [sendFlowNode]

/-- A node's own message goes over a lane, over the power line or nowhere. -/
@[simp] theorem sendNode_rxFlows (dst : Key) (payload : List Byte) : (sendNode dst payload s).bbn.rxFlows = s.bbn.rxFlows := by
  have hplc (f : NatFrame) : (match plcTo dst s with
      | some (x, stn) => plcQueue x (plcNextHop x stn s) f none none s
      | none => s).bbn.rxFlows = s.bbn.rxFlows := by split <;> rfl
  rw [sendNode]
  split
  · exact hplc _
  · split
    · exact hplc _
    · exact ite_rxFlows rfl (ite_rxFlows (by simp) (ite_rxFlows (by simp) (hplc _)))

@[simp] theorem respond_rxFlows (p : MgmtPort) (tag op : Half) (status : Nat) (body : List Byte) :
    (respond p tag op status body s).bbn.rxFlows = s.bbn.rxFlows := by
  cases p <;> simp [respond, respondPart]

/-! ### Rings started and stopped -/

@[simp] theorem haltRing_rxFlows (r : Ring) (idx : Half) (why : HaltWhy) :
    (haltRing l c r idx why s).bbn.rxFlows = s.bbn.rxFlows := by
  simp [haltRing]

@[simp] theorem dropWaiting_rxFlows : (dropWaiting l c s).bbn.rxFlows = s.bbn.rxFlows := by
  rw [dropWaiting]
  split
  · rfl
  · dsimp only
    rw [foldl_rxFlows fun t it => completeOrigin_rxFlows t _ _ _, foldl_rxFlows fun t g => rxReport_rxFlows l c t g]
    simp

@[simp] theorem takeTxProd_rxFlows (v : Half) : (takeTxProd l c v s).bbn.rxFlows = s.bbn.rxFlows := by
  rw [takeTxProd]
  split
  · rfl
  · split <;> simp

@[simp] theorem takeRxProd_rxFlows (v : Half) : (takeRxProd l c v s).bbn.rxFlows = s.bbn.rxFlows := by
  rw [takeRxProd]
  split
  · rfl
  · split <;> simp [haltRx]

@[simp] theorem startTx_rxFlows : (startTx l c s).bbn.rxFlows = s.bbn.rxFlows := by simp [startTx]

@[simp] theorem startRx_rxFlows : (startRx l c s).bbn.rxFlows = s.bbn.rxFlows := by
  rw [startRx]
  split <;> simp

@[simp] theorem readProd_rxFlows : (readProd l c s).bbn.rxFlows = s.bbn.rxFlows := by
  rw [readProd]
  split <;> simp

@[simp] theorem startRings_rxFlows (m : Nat) : (startRings l c m s).bbn.rxFlows = s.bbn.rxFlows := by
  have htx (t : State) : (if named .tx m then startTx l c t else t).bbn.rxFlows = t.bbn.rxFlows := ite_rxFlows (by simp) rfl
  have hrx (t : State) : (if named .rx m then startRx l c t else t).bbn.rxFlows = t.bbn.rxFlows := ite_rxFlows (by simp) rfl
  exact ite_rxFlows (by rw [readProd_rxFlows, hrx, htx]) (by rw [hrx, htx])

@[simp] theorem beginStop_rxFlows (m : Nat) : (beginStop l c m s).bbn.rxFlows = s.bbn.rxFlows := by simp [beginStop]

@[simp] theorem answerStop_rxFlows (q : StopReq) : (answerStop l c q s).bbn.rxFlows = s.bbn.rxFlows := by
  rw [answerStop, respond_rxFlows]
  split <;> simp

@[simp] theorem writeCons_rxFlows : (writeCons l c s).bbn.rxFlows = s.bbn.rxFlows := by simp [writeCons, writeHost]

@[simp] theorem finishStops_rxFlows : (finishStops l c s).bbn.rxFlows = s.bbn.rxFlows := by
  rw [finishStops, foldl_rxFlows fun t q => answerStop_rxFlows l c t q]
  exact ite_rxFlows (by rw [writeCons_rxFlows, modCtx_bbn]) (by rw [modCtx_bbn])

/-! ### Registers written -/

@[simp] theorem writeHifCfg_rxFlows (v : Word) : (writeHifCfg l v s).bbn.rxFlows = s.bbn.rxFlows := by
  have hon : (mgmtOn l s).bbn.rxFlows = s.bbn.rxFlows := ite_rxFlows (by simp) (by simp)
  exact ite_rxFlows rfl (ite_rxFlows hon (by simp [mgmtOff]))

@[simp] theorem writeSys_rxFlows (a : Nat) (v : Word) : (writeSys a v s).bbn.rxFlows = s.bbn.rxFlows := by
  unfold writeSys
  split
  case h_4 => exact ite_rxFlows rfl rfl
  all_goals rfl

@[simp] theorem writePair_rxFlows (a : Nat) (lo : Option Word) (v : Word) :
    (writePair l a lo v s).bbn.rxFlows = s.bbn.rxFlows := by
  rw [writePair]
  refine ite_rxFlows (by simp) (ite_rxFlows (by simp) ?_)
  split
  · simp
  · split
    · exact ite_rxFlows (by simp) (by simp)
    · split <;> simp

@[simp] theorem writeCqCtrl_rxFlows (n : CqNo) (v : Word) : (writeCqCtrl l n v s).bbn.rxFlows = s.bbn.rxFlows :=
  ite_rxFlows rfl rfl

@[simp] theorem writeCqMod_rxFlows (n : CqNo) (v : Word) : (writeCqMod n v s).bbn.rxFlows = s.bbn.rxFlows := rfl

@[simp] theorem writeCtx_rxFlows (off : Nat) (v : Word) : (writeCtx l c off v s).bbn.rxFlows = s.bbn.rxFlows := by
  unfold writeCtx
  extract_lets quota
  split <;> simp

@[simp] theorem setArb_rxFlows (cfg cls : Word) : (setArb cfg cls s).bbn.rxFlows = s.bbn.rxFlows :=
  ite_rxFlows rfl (by simp)

@[simp] theorem writeArb_rxFlows (isClass : Bool) (v : Word) : (writeArb isClass v s).bbn.rxFlows = s.bbn.rxFlows := by
  cases isClass <;> simp [writeArb]

@[simp] theorem writeLp_rxFlows (n : PortNo) (off : Nat) (v : Word) : (writeLp n off v s).bbn.rxFlows = s.bbn.rxFlows := by
  unfold writeLp
  split <;> rfl

@[simp] theorem writeLdgCfg_rxFlows (v : Word) : (writeLdgCfg v s).bbn.rxFlows = s.bbn.rxFlows := by
  have hopen (t : State) : (openInterval 0 t).bbn.rxFlows = t.bbn.rxFlows := rxFlows_of_ledger (openInterval_onlyChanges 0 t)
  have hclose (t : State) : (closeInterval 0x0200 t).bbn.rxFlows = t.bbn.rxFlows :=
    rxFlows_of_ledger (closeInterval_onlyChanges 0x0200 t)
  have hrecord (p : List Byte) (t : State) : (ldgRecord 0xE103 p t).bbn.rxFlows = t.bbn.rxFlows :=
    rxFlows_of_ledger (ldgRecord_onlyChanges 0xE103 p t)
  have hturn : (boundary s).bbn.rxFlows = s.bbn.rxFlows := rxFlows_of_ledger (boundary_onlyChanges s)
  exact ite_rxFlows hturn (ite_rxFlows (by rw [hopen, hrecord, hclose, hturn]) (by rw [hrecord, hclose, hturn]))

@[simp] theorem regWrite_rxFlows (a : Nat) (lo : Option Word) (v : Word) :
    (regWrite l a lo v s).bbn.rxFlows = s.bbn.rxFlows := by
  rw [regWrite]
  refine ite_rxFlows rfl (ite_rxFlows (by simp) (ite_rxFlows (by simp) (ite_rxFlows (by simp) ?_)))
  split
  · exact ite_rxFlows (by simp) (ite_rxFlows (by simp) rfl)
  · split
    · simp
    · split
      · simp
      · exact ite_rxFlows (by simp) (ite_rxFlows (by simp) (ite_rxFlows rfl (ite_rxFlows (by simp) (ite_rxFlows (by simp)
          (ite_rxFlows rfl rfl)))))

@[simp] theorem raiseVecAt_rxFlows (ep : Endpoint) (v : Nat) : (raiseVecAt ep v s).bbn.rxFlows = s.bbn.rxFlows :=
  ite_rxFlows rfl (ite_rxFlows (by simp) rfl)

@[simp] theorem writeNow_rxFlows (ep : Endpoint) (a : Nat) (lo : Option Word) (v : Word) :
    (writeNow ep a lo v s).bbn.rxFlows = s.bbn.rxFlows :=
  ite_rxFlows (ite_rxFlows (by simp) (by simp)) (by simp)

@[simp] theorem applyHeld_rxFlows (hs : List HeldWrite) : (applyHeld hs s).bbn.rxFlows = s.bbn.rxFlows := by
  have hwait (t : State) : (setAfterLock t).bbn.rxFlows = t.bbn.rxFlows := ite_rxFlows rfl rfl
  rw [applyHeld, hwait, foldl_rxFlows fun t h => writeNow_rxFlows t _ _ _ _]

/-! ### The remote register window -/

@[simp] theorem rrwAnswer_rxFlows (p : MgmtPort) (tag op : Half) (status reason : Nat) (rest : List Byte) :
    (rrwAnswer p tag op status reason rest s).bbn.rxFlows = s.bbn.rxFlows := by simp [rrwAnswer]

@[simp] theorem closeOpen_rxFlows (id : Half) : (closeOpen id s).bbn.rxFlows = s.bbn.rxFlows := rfl

@[simp] theorem rrwLate_rxFlows (id : Half) : (rrwLate id s).bbn.rxFlows = s.bbn.rxFlows := by
  rw [rrwLate]
  split
  · exact ite_rxFlows (by simp) rfl
  · rfl

@[simp] theorem lateResponse_rxFlows (src : Key) (m : RrwMsg) : (lateResponse src m s).bbn.rxFlows = s.bbn.rxFlows :=
  ite_rxFlows rfl (by simp)

@[simp] theorem rrwResponse_rxFlows (src : Key) (m : RrwMsg) : (rrwResponse src m s).bbn.rxFlows = s.bbn.rxFlows := by
  rw [rrwResponse]
  split <;> simp

@[simp] theorem farAnswer_rxFlows (src : Key) (m : RrwMsg) (status reason : Nat) (id : Half) (words : List Byte) :
    (farAnswer src m status reason id words s).bbn.rxFlows = s.bbn.rxFlows :=
  ite_rxFlows (by simp) (by simp)

@[simp] theorem farRefuse_rxFlows (src : Key) (m : RrwMsg) (status reason : Nat) :
    (farRefuse src m status reason s).bbn.rxFlows = s.bbn.rxFlows := by simp [farRefuse]

@[simp] theorem farDone_rxFlows (src : Key) (m : RrwMsg) (id : Half) (words : List Byte) :
    (farDone src m id words s).bbn.rxFlows = s.bbn.rxFlows := by simp [farDone]

@[simp] theorem renewed_rxFlows (len : Ns) : (renewed len s).bbn.rxFlows = s.bbn.rxFlows := rfl

@[simp] theorem farAccess_rxFlows (src : Key) (m : RrwMsg) : (farAccess src m s).bbn.rxFlows = s.bbn.rxFlows :=
  ite_rxFlows (by simp) (by rw [farDone_rxFlows, foldl_rxFlows fun t e => regWrite_rxFlows _ t _ _ _])

@[simp] theorem grantLock_rxFlows (src : Key) (m : RrwMsg) : (grantLock src m s).bbn.rxFlows = s.bbn.rxFlows := by
  simp [grantLock]

@[simp] theorem unlock_rxFlows (src : Key) (m : RrwMsg) : (unlock src m s).bbn.rxFlows = s.bbn.rxFlows := by simp [unlock]

@[simp] theorem leaseEnds_rxFlows : (leaseEnds s).bbn.rxFlows = s.bbn.rxFlows := ite_rxFlows (by simp) rfl

/-- A lock request, an unlock and an access: each refused or done. -/
@[simp] theorem farExecute_rxFlows (viaPlc : Bool) (src : Key) (m : RrwMsg) :
    (farExecute viaPlc src m s).bbn.rxFlows = s.bbn.rxFlows := by
  rw [farExecute]
  refine ite_rxFlows (by simp) (ite_rxFlows (by simp) (ite_rxFlows ?_ ?_))
  · exact ite_rxFlows (ite_rxFlows (by simp) (by simp)) (ite_rxFlows (by simp) (ite_rxFlows (by simp) (by simp)))
  · split
    · simp
    · exact ite_rxFlows (ite_rxFlows (by simp) (by simp)) (ite_rxFlows (by simp) (by simp))

@[simp] theorem farRequest_rxFlows (viaPlc : Bool) (src : Key) (m : RrwMsg) :
    (farRequest viaPlc src m s).bbn.rxFlows = s.bbn.rxFlows :=
  ite_rxFlows (by simp) (ite_rxFlows (by simp) (ite_rxFlows (by simp) (ite_rxFlows (by simp) (ite_rxFlows (by simp) (by simp)))))

@[simp] theorem rrwIn_rxFlows (viaPlc : Bool) (src : Key) (b : List Byte) : (rrwIn viaPlc src b s).bbn.rxFlows = s.bbn.rxFlows := by
  rw [rrwIn]
  split
  · rfl
  · exact ite_rxFlows (by simp) (ite_rxFlows (by simp) rfl)

/-! ### What the flow rules put out -/

@[simp] theorem toConsist_rxFlows (h : HeldFrame) : (toConsist h s).bbn.rxFlows = s.bbn.rxFlows := by
  refine ite_rxFlows rfl ?_
  split <;> simp

@[simp] theorem passUp_rxFlows (h : HeldFrame) : (passUp h s).bbn.rxFlows = s.bbn.rxFlows :=
  ite_rxFlows (by simp) (ite_rxFlows (by simp) (ite_rxFlows (by simp) rfl))

@[simp] theorem putOut_rxFlows (cause : NatFrame) (fixed : Bool) (outs : List FlowOut) :
    (putOut cause fixed outs s).bbn.rxFlows = s.bbn.rxFlows := by
  rw [putOut]
  refine foldl_rxFlows (fun t o => ?_) _ _
  split <;> simp

end Sys2Proof.Machine
end

section
/-! SUPPORT. Flow state in time: a frame held for 2 ms is given up to (R177), flow state idle for 10 s goes (R173, R174). Settles O21. -/
namespace Sys2Proof.Machine

theorem exec_reorderHoldExpiry (id : FlowId) (s : State) : exec (.reorderHoldExpiry id) s = .next (reorderExpires id s) := rfl
theorem exec_rxFlowAgeOut (id : FlowId) (s : State) : exec (.rxFlowAgeOut id) s = .next (rxAge id s) := rfl
theorem exec_txFlowAgeOut (id : FlowId) (s : State) : exec (.txFlowAgeOut id) s = .next (txAge id s) := rfl

/-! ### The table of receive flows -/

/-- What is found is the flow looked for. -/
theorem findRx_id {id : FlowId} {r : RxFlow} {fs : List RxFlow} (h : findRx id fs = some r) : r.id = id := by
  induction fs with
  | nil => simp [findRx] at h
  | cons f rest ih =>
    rw [findRx] at h
    split at h
    · next heq => exact Option.some.inj h ▸ eq_of_beq heq
    · exact ih h

theorem findRx_putRx (f : RxFlow) (fs : List RxFlow) : findRx f.id (putRx f fs) = some f := by
  induction fs with
  | nil => simp [putRx, findRx]
  | cons x rest ih =>
    rw [putRx]
    split
    · simp [findRx]
    · next hne => rw [findRx, if_neg hne, ih]

/-! ### The commands -/

/-- The first frame held for 2 ms is given up to, and its flow is found as the giving up leaves it (R177). -/
theorem findRx_reorderExpires {id : FlowId} {s : State} {r : RxFlow} {h : HeldFrame} {rest : List HeldFrame}
    (hr : findRx id s.bbn.rxFlows = some r) (hheld : r.held = h :: rest) (hdue : h.at_ + ms 2 ≤ s.now) :
    findRx id (reorderExpires id s).bbn.rxFlows = some (giveUp (ahead r.next h.frame.fseq) r).1 := by
  have hany : (r.held.any fun x => decide (x.at_ + ms 2 ≤ s.now)) = true := by
    rw [hheld, List.any_cons, decide_eq_true hdue, Bool.true_or]
  have hid : (giveUp (ahead r.next h.frame.fseq) r).1.id = id := (findRx_id hr :)
  have hflows : (reorderExpires id s).bbn.rxFlows = putRx (giveUp (ahead r.next h.frame.fseq) r).1 s.bbn.rxFlows := by
    simp only [reorderExpires, hr, hheld]
    rw [hheld] at hany
    rw [if_pos hany, putOut_rxFlows]
  have hfind := findRx_putRx (giveUp (ahead r.next h.frame.fseq) r).1 s.bbn.rxFlows
  rwa [hid, ← hflows] at hfind

/-- A receive flow with nothing held goes once it has been idle for 10 s (R174). -/
theorem rxAge_of_found {id : FlowId} {s : State} {r : RxFlow} (hr : findRx id s.bbn.rxFlows = some r) (hheld : r.held = []) :
    rxAge id s = if r.last + sec 10 ≤ s.now then
      { s with bbn.rxFlows := s.bbn.rxFlows.filter fun x => x.id != id } else s := by
  simp only [rxAge, hr, hheld, List.isEmpty_nil, Bool.and_true, decide_eq_true_eq]

/-- A send flow goes once it has been idle for 10 s (R173). -/
theorem txAge_of_found {id : FlowId} {s : State} {f : TxFlow} (hf : findTx id s.bbn.txFlows = some f) :
    txAge id s = if f.last + sec 10 ≤ s.now then
      { s with bbn.txFlows := s.bbn.txFlows.filter fun x => x.id != id } else s := by
  simp only [txAge, hf]

/-- Settles O21: one clause for each command. -/
theorem flowStateIsGivenUpAndAgesOut : Obligations.FlowStateIsGivenUpAndAgesOut := by
  intro id s
  refine ⟨fun r h rest hr hheld hdue => ⟨_, exec_reorderHoldExpiry id s, findRx_reorderExpires hr hheld hdue⟩,
    fun r hr hheld => ?_, fun f hf => ?_⟩
  · rw [exec_rxFlowAgeOut, rxAge_of_found hr hheld]
    exact ⟨fun h => congrArg _ (if_pos h), fun h => congrArg _ (if_neg (Nat.not_le.mpr h))⟩
  · rw [exec_txFlowAgeOut, txAge_of_found hf]
    exact ⟨fun h => congrArg _ (if_pos h), fun h => congrArg _ (if_neg (Nat.not_le.mpr h))⟩

end Sys2Proof.Machine
end

section
/-! SUPPORT. What a line port keeps: of all of it what is not carried on it while frames move (R182) and ends are refreshed (R85, R88), all but
its counters while events are counted (R228, R230). -/
namespace Sys2Proof.Machine

/-! ### Views of a port -/

/-- Every port reads the same in two states through a view. -/
def PortsKeep {α : Type} (view : LinePort → α) (s t : State) : Prop := ∀ n, view (port n t) = view (port n s)

section
variable {α : Type} {view : LinePort → α} {s t u : State}

theorem PortsKeep.refl (view : LinePort → α) (s : State) : PortsKeep view s s := fun _ => rfl

theorem PortsKeep.trans (h : PortsKeep view s t) (k : PortsKeep view t u) : PortsKeep view s u :=
  fun n => (k n).trans (h n)

theorem port_of_lp (h : t.lp = s.lp) (n : PortNo) : port n t = port n s := by simp only [port, h]

theorem PortsKeep.of_lp (h : t.lp = s.lp) : PortsKeep view s t := fun n => by rw [port_of_lp h]

/-- What one view keeps, a view of what that one leaves of a port keeps. -/
theorem PortsKeep.through {rest : LinePort → LinePort} (h : PortsKeep rest s t)
    (hview : ∀ p, view (rest p) = view p := by intro; rfl) : PortsKeep view s t :=
  fun n => by rw [← hview, h n, hview]

/-- A port read through a view of what is kept. -/
theorem PortsKeep.at {rest : LinePort → LinePort} (h : PortsKeep rest s t) (n : PortNo) (view : LinePort → α)
    (hview : ∀ p, view (rest p) = view p := by intro; rfl) : view (port n t) = view (port n s) := h.through hview n

/-- A port's lane and end are its role's. -/
theorem PortsKeep.portLane {s t : State} (h : PortsKeep LinePort.role s t) (n : PortNo) : portLane n t = portLane n s :=
  congrArg roleLane (h n)

theorem foldl_portsKeep {β : Type} {f : State → β → State} (hf : ∀ s x, PortsKeep view s (f s x)) (l : List β) (s : State) :
    PortsKeep view s (l.foldl f s) := by
  induction l generalizing s with
  | nil => exact .refl _ _
  | cons x l ih => exact (hf s x).trans (ih _)

theorem modPort_portsKeep {g : LinePort → LinePort} (n : PortNo) (s : State)
    (hg : ∀ p, view (g p) = view p := by intro; rfl) : PortsKeep view s (modPort n g s) := by
  intro m
  by_cases h : m = n
  · subst h; rw [port_modPort, hg]
  · rw [port_modPort_ne _ _ _ _ h]

/-- Every port changed in one way. -/
theorem mapPorts_portsKeep {g : LinePort → LinePort} (hlp : t.lp = s.lp.map g) (hg : ∀ p, view (g p) = view p) :
    PortsKeep view s t := fun n => by simp [port, hlp, hg]

theorem ite_portsKeep {c : Prop} [Decidable c] (ht : PortsKeep view s t) (hu : PortsKeep view s u) :
    PortsKeep view s (if c then t else u) := by
  split
  · exact ht
  · exact hu
end

/-! ### Frames on ports -/

/-- A port but for the frames it holds, the XOFF it has sent and how long it has carried sweeps. -/
def LinePort.bare (p : LinePort) : LinePort :=
  { p with queues := Vector.replicate 8 [], ctl := [], sending := none, part := none, sweepSince := none, txPauseXoff := false,
           txXoff := 0, xoffRepeatAt := Vector.replicate 8 none, pauseRepeatAt := none }

/-- From one state to the other the ports differ in the frames they hold at most. -/
abbrev FramesMove (s t : State) : Prop := PortsKeep LinePort.bare s t

theorem raise_framesMove (code : Half) (data : List Byte) (s : State) : FramesMove s (raise code data s) := .of_lp (by simp)

theorem rlv_framesMove (x : RlvUnit) (s : State) : FramesMove s { s with rlv := x } := .of_lp rfl

theorem modEnd_framesMove (e : End) (g : EndState → EndState) (s : State) : FramesMove s (modEnd e g s) := .of_lp (by simp)

theorem enqueue_framesMove (n : PortNo) (f : OutFrame) (s : State) : FramesMove s (enqueue n f s) := modPort_portsKeep n s

theorem flushTx_framesMove (l : Link) (c : Nat) (s : State) : FramesMove s (flushTx l c s) :=
  .trans (.of_lp (modCtx_lp ..)) (foldl_portsKeep (fun _ _ => .of_lp (modCq_lp ..)) _ _)

theorem completeOrigin_framesMove (o : Option TxRef) (status : Nat) (f : TxPend → TxPend) (s : State) :
    FramesMove s (completeOrigin o status f s) := by
  cases o with
  | none => exact .refl _ s
  | some r => exact .trans (.of_lp (modCtx_lp ..)) (flushTx_framesMove _ _ _)

theorem flowChan_framesMove (f : NatFrame) (c : Chan) (stn : BitVec 7) (s : State) : FramesMove s (flowChan f c stn s).2 := by
  rw [flowChan]
  split <;> exact .of_lp rfl

theorem launch_framesMove (r : Route) (f : NatFrame) (origin : Option TxRef) (inPort : Option PortNo) (s : State) :
    FramesMove s (launch r f origin inPort s) := by
  cases r with
  | self => exact .refl _ s
  | lane e l =>
    refine ite_portsKeep (.of_lp rfl) ?_
    split
    · exact enqueue_framesMove _ _ s
    · exact completeOrigin_framesMove _ _ _ s
  | plc c stn => exact (flowChan_framesMove f c stn s).trans (ite_portsKeep (.of_lp rfl) (.of_lp rfl))
  | held => exact ite_portsKeep (.of_lp rfl) (completeOrigin_framesMove _ _ _ s)
  | nowhere => exact completeOrigin_framesMove _ _ _ s

theorem sendOnLane_framesMove (l : Lane) (e : End) (f : NatFrame) (origin : Option TxRef) (inPort : Option PortNo) (s : State) :
    FramesMove s (sendOnLane l e f origin inPort s) := by
  rw [sendOnLane]
  split
  · exact enqueue_framesMove _ _ s
  · exact .refl _ s

theorem releaseHeld_framesMove (s : State) : FramesMove s (releaseHeld s) := by
  refine .trans (.of_lp rfl) (foldl_portsKeep (fun t o => ?_) _ _)
  split
  · exact .refl _ t
  · exact ite_portsKeep (completeOrigin_framesMove _ _ _ t) (launch_framesMove _ _ _ _ t)

/-! ### A span declared down (R180 to R184) -/

theorem moveFrame_framesMove (l : Lane) (e : End) (o : OutFrame) (s : State) : FramesMove s (moveFrame l e o s) := by
  rw [moveFrame]
  split
  · exact .refl _ s
  · refine ite_portsKeep (.refl _ s) (ite_portsKeep ?_ ?_)
    · split
      · exact ite_portsKeep (enqueue_framesMove _ _ s) (completeOrigin_framesMove _ _ _ s)
      · exact completeOrigin_framesMove _ _ _ s
    · split
      · dsimp only
        split
        · exact enqueue_framesMove _ _ s
        · exact completeOrigin_framesMove _ _ _ s
      · exact launch_framesMove _ _ _ _ s

theorem evacuate_framesMove (l : Lane) (e : End) (s : State) : FramesMove s (evacuate l e s) := by
  rw [evacuate]
  split
  · exact .refl _ s
  · exact (modPort_portsKeep _ s).trans (foldl_portsKeep (fun t o => moveFrame_framesMove l e o t) _ _)

theorem moveUrgent_framesMove (o : OutFrame) (s : State) : FramesMove s (moveUrgent o s) := by
  rw [moveUrgent]
  split
  · exact .refl _ s
  · refine ite_portsKeep (completeOrigin_framesMove _ _ _ s) ?_
    split
    · exact ite_portsKeep (.of_lp rfl) (launch_framesMove _ _ _ _ s)
    · exact launch_framesMove _ _ _ _ s

theorem shiftPort_framesMove (n : PortNo) (s : State) : FramesMove s (shiftPort n s) := by
  rw [shiftPort]
  split
  · exact .refl _ s
  · exact ite_portsKeep (.refl _ s)
      ((modPort_portsKeep n s).trans (foldl_portsKeep (fun t o => moveFrame_framesMove _ _ o t) _ _))

theorem moveUrgents_framesMove (s : State) : FramesMove s (moveUrgents s) := by
  have hemptied : FramesMove s { s with bbn.uq := [] } := .of_lp rfl
  exact hemptied.trans (foldl_portsKeep (fun t (x : Lane × OutFrame) => moveUrgent_framesMove x.2 t) _ _)

theorem shiftAll_framesMove (s : State) : FramesMove s (shiftAll s) :=
  (moveUrgents_framesMove s).trans (foldl_portsKeep (fun t n => shiftPort_framesMove n t) _ _)

theorem changeMap_framesMove (l : Lane) (up : Bool) (low high : Nat) (s : State) :
    FramesMove s (changeMap l up low high s) := by
  cases up
  · exact ite_portsKeep (.of_lp (raise_lp ..)) (.of_lp rfl)
  · exact ite_portsKeep (.of_lp (raise_lp ..)) (.of_lp rfl)

theorem queueNotice_framesMove (l : Lane) (up : Bool) (low high : Nat) (s : State) :
    FramesMove s (queueNotice l up low high s) := by
  cases l <;> exact .of_lp rfl

theorem declareDown_framesMove (l : Lane) (e : End) (s : State) : FramesMove s (declareDown l e s) := by
  rw [declareDown]
  refine ite_portsKeep (.refl _ s) ?_
  split
  · exact evacuate_framesMove l e s
  · exact ite_portsKeep (evacuate_framesMove l e s) <| (raise_framesMove _ _ s).trans <| (queueNotice_framesMove _ _ _ _ _).trans <|
      (changeMap_framesMove _ _ _ _ _).trans <| (evacuate_framesMove _ _ _).trans (shiftAll_framesMove _)

theorem portSpanDown_framesMove (n : PortNo) (s : State) : FramesMove s (portSpanDown n s) := by
  rw [portSpanDown]
  split
  · exact (modPort_portsKeep n s).trans (declareDown_framesMove _ _ _)
  · exact .refl _ s

/-! ### What follows a port: the ends, OUT1, responses, a renumbering -/

theorem refreshEnd_framesMove (e : End) (s : State) : FramesMove s (refreshEnd e s) := by
  have hconflict (c : Prop) [Decidable c] (code : Half) (data : List Byte) (g : EndState → EndState) (t : State) :
      FramesMove t (if c then raise code data (modEnd e g t) else t) :=
    ite_portsKeep ((modEnd_framesMove e g t).trans (raise_framesMove _ _ _)) (.refl _ t)
  have htimers (g h : EndState → EndState) : FramesMove s (modEnd e h (modEnd e g s)) :=
    (modEnd_framesMove e g s).trans (modEnd_framesMove e h _)
  exact ite_portsKeep (((htimers _ _).trans (hconflict _ _ _ _ _)).trans (raise_framesMove _ _ _))
    ((htimers _ _).trans (hconflict _ _ _ _ _))

theorem refreshPort_framesMove (n : PortNo) (s : State) : FramesMove s (refreshPort n s) := by
  rw [refreshPort]
  split
  · exact (refreshEnd_framesMove _ s).trans (.of_lp rfl)
  · exact .refl _ s

@[simp] theorem out1Drive_lp (closed : Bool) (s : State) : (out1Drive closed s).lp = s.lp := by
  rw [out1Drive, noteOut1]
  split <;> simp

@[simp] theorem refreshOut1_lp (s : State) : (refreshOut1 s).lp = s.lp := by
  rw [refreshOut1]
  split <;> simp

theorem sendNode_framesMove (dst : Key) (payload : List Byte) (s : State) : FramesMove s (sendNode dst payload s) := by
  have hplc (f : NatFrame) : FramesMove s (match plcTo dst s with
      | some (c, stn) => plcQueue c (plcNextHop c stn s) f none none s
      | none => s) := by
    split
    · exact .of_lp rfl
    · exact .refl _ s
  rw [sendNode]
  split
  · exact hplc _
  · split
    · exact hplc _
    · exact ite_portsKeep (.refl _ s) <| ite_portsKeep (sendOnLane_framesMove _ _ _ _ _ s) <|
        ite_portsKeep (sendOnLane_framesMove _ _ _ _ _ s) (hplc _)

theorem respond_framesMove (p : MgmtPort) (tag opcode : Half) (status : Nat) (body : List Byte) (s : State) :
    FramesMove s (respond p tag opcode status body s) := by
  cases p with
  | h1 => exact .of_lp (modLink_lp .h1 ..)
  | h2 => exact .of_lp (modLink_lp .h2 ..)
  | sp c mac => exact .of_lp ((modSp_lp ..).trans (spSend_lp ..))
  | lane _ src => exact sendNode_framesMove src _ s
  | powerLine _ src => exact sendNode_framesMove src _ s

theorem restoreDone_framesMove (s : State) : FramesMove s (restoreDone s) := by
  refine .trans (.of_lp rfl) (foldl_portsKeep (fun t r => ?_) _ _)
  split
  · exact respond_framesMove _ _ _ _ _ t
  · exact .refl _ t

theorem sendRlv_framesMove (e : End) (m : RlvMsg) (s : State) : FramesMove s (sendRlv e m s) := by
  have hlane (l : Lane) (f : NatFrame) (t : State) (c : Prop) [Decidable c] :
      FramesMove t (if c then sendOnLane l e f none none t else t) :=
    ite_portsKeep (sendOnLane_framesMove _ _ _ _ _ t) (.refl _ t)
  exact ite_portsKeep ((hlane .a _ s _).trans (hlane .b _ _ _)) (.refl _ s)

theorem sendTrigger_framesMove (e : End) (s : State) : FramesMove s (sendTrigger e s) :=
  ite_portsKeep ((rlv_framesMove _ s).trans (sendRlv_framesMove _ _ _)) (.refl _ s)

theorem originateSweep_framesMove (s : State) : FramesMove s (originateSweep s) := by
  have hsend (e : End) : FramesMove s (originateSweep.send e s) :=
    (rlv_framesMove _ s).trans (sendRlv_framesMove e _ _)
  rw [originateSweep]
  split
  · exact .refl _ s
  · split
    · exact ite_portsKeep (rlv_framesMove _ s) (hsend _)
    · exact hsend _

theorem sendRenumber_framesMove (s : State) : FramesMove s (sendRenumber s) :=
  .trans ((sendTrigger_framesMove .e1 s).trans <| (sendTrigger_framesMove .e2 _).trans (originateSweep_framesMove _))
    (ite_portsKeep (.of_lp rfl) (.of_lp rfl))

theorem staleOut_framesMove (s : State) : FramesMove s (staleOut s) :=
  .trans (mapPorts_portsKeep rfl (by intro; rfl)) (foldl_portsKeep (fun t o => completeOrigin_framesMove o _ _ t) _ _)

theorem toNative_framesMove (ran : Bool) (s : State) : FramesMove s (toNative ran s) := by
  refine ite_portsKeep (.refl _ s) (.trans (mapPorts_portsKeep rfl fun p => ?_) (foldl_portsKeep (fun t x => ?_) _ _))
  · split <;> rfl
  · split
    · exact completeOrigin_framesMove _ _ _ t
    · exact ite_portsKeep (enqueue_framesMove _ _ t) (ite_portsKeep (.of_lp rfl) (.refl _ t))

@[simp] theorem timeMark_lp (cause : Nat) (step : Int) (s : State) : (timeMark cause step s).lp = s.lp := by
  rw [timeMark]
  split <;> simp

@[simp] theorem epochEvent_lp (changed : Bool) (s : State) : (epochEvent changed s).lp = s.lp := by simp [epochEvent]

@[simp] theorem newMaster_lp (old : Key) (s : State) : (newMaster old s).lp = s.lp := by
  rw [newMaster]
  dsimp only
  split <;> simp

theorem becomeAlone_framesMove (s : State) : FramesMove s (becomeAlone s) := by
  refine .trans (.of_lp ?_) ((toNative_framesMove _ _).trans ((staleOut_framesMove _).trans (releaseHeld_framesMove _)))
  rw [newMaster_lp]
  split
  · rw [epochEvent_lp]
  · rfl

theorem renumber_framesMove (s : State) : FramesMove s (renumber s) := by
  have halone : FramesMove s (goAlone s) :=
    (becomeAlone_framesMove s).trans (ite_portsKeep (.refl _ _) (sendRenumber_framesMove _))
  exact ite_portsKeep (.refl _ s) (ite_portsKeep (ite_portsKeep (.refl _ s) halone) (sendRenumber_framesMove s))

/-! ### Flow control and preemption -/

theorem pfcOff_framesMove (n : PortNo) (mask : Nat) (s : State) : FramesMove s (pfcOff n mask s) :=
  (modPort_portsKeep n s).trans (modPort_portsKeep n _)

theorem pfcOn_framesMove (n : PortNo) (mask : Nat) (s : State) : FramesMove s (pfcOn n mask s) :=
  (modPort_portsKeep n s).trans (modPort_portsKeep n _)

theorem pauseOff_framesMove (n : PortNo) (s : State) : FramesMove s (pauseOff n s) :=
  (modPort_portsKeep n s).trans (modPort_portsKeep n _)

theorem pauseOn_framesMove (n : PortNo) (s : State) : FramesMove s (pauseOn n s) :=
  (modPort_portsKeep n s).trans (modPort_portsKeep n _)

theorem flowCheck_framesMove (n : PortNo) (s : State) : FramesMove s (flowCheck n s) := by
  have hpfc (c d : Prop) [Decidable c] [Decidable d] (a b : Nat) :
      FramesMove s (if c then (if d then s else pfcOff n a s) else pfcOn n b (if d then s else pfcOff n a s)) := by
    have hoff : FramesMove s (if d then s else pfcOff n a s) := ite_portsKeep (.refl _ s) (pfcOff_framesMove n a s)
    exact ite_portsKeep hoff (hoff.trans (pfcOn_framesMove n b _))
  exact ite_portsKeep (.refl _ s) <| ite_portsKeep ((hpfc _ _ _ _).trans (pauseOff_framesMove n _)) <|
    ite_portsKeep ((hpfc _ _ _ _).trans (pauseOn_framesMove n _)) (hpfc _ _ _ _)

theorem preempt_framesMove (n : PortNo) (s : State) : FramesMove s (preempt n s) := by
  rw [preempt]
  split
  · exact .refl _ s
  · exact ite_portsKeep (modPort_portsKeep n s) (.refl _ s)

theorem preemptAll_framesMove (s : State) : FramesMove s (preemptAll s) :=
  foldl_portsKeep (fun t n => preempt_framesMove n t) _ s

/-! ### Counters -/

/-- A port but for its counters and their half-range bits. -/
def LinePort.uncounted (p : LinePort) : LinePort := { p with cnt := [], half0 := 0, half1 := 0 }

theorem addCount_uncounted (n : PortNo) (off k : Nat) (s : State) : PortsKeep LinePort.uncounted s (addCount n off k s) := by
  have hcount (v : Word) : PortsKeep LinePort.uncounted s (modPort n (fun p => { p with cnt := Tab.put off v p.cnt }) s) :=
    modPort_portsKeep n s
  exact ite_portsKeep (hcount _) <| (hcount _).trans <| (modPort_portsKeep n _ fun p => by split <;> rfl).trans (.of_lp (raise_lp ..))

theorem bump_uncounted (n : PortNo) (off : Nat) (s : State) : PortsKeep LinePort.uncounted s (bump n off s) :=
  addCount_uncounted n off 1 s

theorem countFrame_uncounted (n : PortNo) (base : Nat) (b : List Byte) (s : State) :
    PortsKeep LinePort.uncounted s (countFrame n base b s) :=
  .trans (modPort_portsKeep n s) (foldl_portsKeep (fun t o => bump_uncounted n (base + o) t) _ _)

theorem Tab.getD_put_same {α : Type} (d : α) (k : Nat) (v : α) (t : Tab α) : Tab.getD d k (Tab.put k v t) = v := by
  induction t with
  | nil => simp [Tab.put, Tab.getD]
  | cons x rest ih =>
    obtain ⟨i, w⟩ := x
    rw [Tab.put]
    split
    · simp [Tab.getD]
    · split
      · simp [Tab.getD]
      · next hne => rw [Tab.getD, if_neg fun h => hne h.symm, ih]

theorem Tab.getD_put_ne {α : Type} (d : α) {j k : Nat} (h : j ≠ k) (v : α) (t : Tab α) :
    Tab.getD d j (Tab.put k v t) = Tab.getD d j t := by
  induction t with
  | nil => simp [Tab.put, Tab.getD, h.symm]
  | cons x rest ih =>
    obtain ⟨i, w⟩ := x
    rw [Tab.put]
    split
    · rw [Tab.getD, if_neg h.symm]
    · split
      · next heq => rw [Tab.getD, Tab.getD, if_neg h.symm, if_neg fun e => h (e.symm.trans heq.symm)]
      · rw [Tab.getD, Tab.getD, ih]

/-- The counters of a port after one of them goes up (R228, R230). -/
theorem addCount_cnt (n : PortNo) (off k : Nat) (s : State) :
    (port n (addCount n off k s)).cnt = Tab.put off (portCount n off s + BitVec.ofNat 32 k) (port n s).cnt := by
  rw [addCount]
  dsimp only
  split
  · rw [port_modPort]
  · rw [port_of_lp (raise_lp ..), port_modPort]
    split <;> rw [port_modPort]

theorem portCount_addCount_same (n : PortNo) (off k : Nat) (s : State) :
    portCount n off (addCount n off k s) = portCount n off s + BitVec.ofNat 32 k := by
  rw [portCount, addCount_cnt, Tab.getD_put_same]

theorem portCount_addCount_ne (n : PortNo) {off other : Nat} (h : other ≠ off) (k : Nat) (s : State) :
    portCount n other (addCount n off k s) = portCount n other s := by
  rw [portCount, addCount_cnt, Tab.getD_put_ne _ h, portCount]

end Sys2Proof.Machine
end

section
/-! SUPPORT. Links and speed changes of a port (R205 to R217): what each step of them sets and keeps. Settles O25 and O26. -/
namespace Sys2Proof.Machine

theorem exec_linkUp (n : PortNo) (v : LinkSpeed) (mdix master parDet : Bool) (s : State) :
    exec (.linkUp n v mdix master parDet) s = .next (linkUp n v mdix master parDet s) := rfl
theorem exec_linkDown (n : PortNo) (s : State) : exec (.linkDown n) s = .next (linkDown n s) := rfl
theorem exec_lossOfSignal (n : PortNo) (s : State) : exec (.lossOfSignal n) s = .next (signalLost n s) := rfl
theorem exec_speedChangeAbort (n : PortNo) (s : State) : exec (.speedChangeAbort n) s = .next (changeAbort n s) := rfl
theorem exec_speedChangeRetry (n : PortNo) (s : State) : exec (.speedChangeRetry n) s = .next (changeRetry n s) := rfl
theorem exec_speedChangeOverdue (n : PortNo) (s : State) : exec (.speedChangeOverdue n) s = .next (changeOverdue n s) := rfl

/-! ### Flow control and verify at a link that goes or comes -/

/-- The received stops of a port are cleared; its link, its speed and LINK_DOWN stay (R284). -/
theorem flowReset_spec (n : PortNo) (s : State) :
    (port n (flowReset n s)).link = (port n s).link ∧ (port n (flowReset n s)).speed = (port n s).speed
    ∧ (port n (flowReset n s)).rxPauseUntil = none ∧ (port n (flowReset n s)).rxPfcUntil = Vector.replicate 8 none
    ∧ portCount n 0x4E0 (flowReset n s) = portCount n 0x4E0 s := by
  have hpause := addCount_uncounted n 0x4F8 (pausedSoFar (port n s) s)
    (modPort n (fun x => { x with rxPauseUntil := none, pauseFrom := none }) s)
  have hcount : portCount n 0x4E0 (endPause n s) = portCount n 0x4E0 s := by
    rw [endPause, portCount_addCount_ne n (by decide), portCount, port_modPort, portCount]
  rw [flowReset, portCount, port_modPort]
  refine ⟨?_, ?_, ?_, rfl, hcount⟩
  · exact (hpause.at n LinePort.link).trans (by rw [port_modPort])
  · exact (hpause.at n LinePort.speed).trans (by rw [port_modPort])
  · exact (hpause.at n LinePort.rxPauseUntil).trans (by rw [port_modPort])

/-- A port but for its verify state. -/
def LinePort.unverified (p : LinePort) : LinePort :=
  { p with verify := .disabled, preemptActive := false, verifyTries := 0, verifyDue := none }

theorem startVerify_unverified (n : PortNo) (s : State) : PortsKeep LinePort.unverified s (startVerify n s) := by
  refine ite_portsKeep (modPort_portsKeep n s) (ite_portsKeep (modPort_portsKeep n s) ?_)
  exact (modPort_portsKeep n s).trans (.trans (modPort_portsKeep n _) (.of_lp (emit_lp ..)))

/-! ### A wake changes no port -/

@[simp] theorem assertWake_lp (l : Link) (s : State) : (assertWake l s).lp = s.lp := by
  have hat (e : Endpoint) (t : State) : (assertWakeAt e t).lp = t.lp := by
    rw [assertWakeAt]
    split <;> simp
  rw [assertWake, hat, hat]

@[simp] theorem gatherCause_lp (b : Nat) (s : State) : (gatherCause b s).lp = s.lp := by simp [gatherCause]

@[simp] theorem requestAwake_lp (s : State) : (requestAwake s).lp = s.lp := by
  rw [requestAwake]
  split <;> simp

@[simp] theorem leaveSettling_lp (k : Key) (s : State) : (leaveSettling k s).lp = s.lp := by
  rw [leaveSettling]
  split <;> simp

@[simp] theorem trainWake_lp (first : Nat) (s : State) : (trainWake first s).lp = s.lp := by
  rw [trainWake, requestAwake_lp]
  dsimp only
  split <;> simp

@[simp] theorem localWake_lp (s : State) : (localWake s).lp = s.lp := by simp [localWake, enterSettling]

@[simp] theorem judgeWake_lp (causes : Word) (first : Nat) (s : State) : (judgeWake causes first s).lp = s.lp := by
  rw [judgeWake]
  split
  · rfl
  · split
    · simp
    · split <;> simp

@[simp] theorem beginRise_lp (s : State) : (beginRise s).lp = s.lp := by simp [beginRise, plcHoldEnds]

@[simp] theorem tryRise_lp (s : State) : (tryRise s).lp = s.lp := by
  rw [tryRise]
  split
  · simp
  · split
    · rfl
    · split <;> simp

@[simp] theorem requestOn_lp (s : State) : (requestOn s).lp = s.lp := by
  unfold requestOn
  split
  · simp
  · rfl
  · split <;> rfl
  · rfl

@[simp] theorem raiseCause_lp (b : Nat) (s : State) : (raiseCause b s).lp = s.lp := by
  unfold raiseCause
  split
  · dsimp only
    split
    · split <;> simp
    · split <;> simp
  · simp
  · split <;> simp
  · split <;> simp
  · rfl

/-- Behind the note of its pattern a wake changes no port (R235, R236). -/
theorem portWakes_lp (n : PortNo) (pattern : Nat) (s : State) :
    (portWakes n pattern s).lp = (modPort n (fun p => { p with wakeHit := word (2 ^ 31 + pattern) }) s).lp := by
  rw [portWakes, raiseCause_lp, raise_lp]

/-! ### Link up (R217) -/

/-- What LP_STATUS shows of a port's link. -/
def LinePort.shown (p : LinePort) : Bool × LinkSpeed × Bool × Bool × Bool := (p.link, p.speed, p.los, p.changing, p.mdix)

theorem slowLink_framesMove (n : PortNo) (s : State) : FramesMove s (slowLink n s) := by
  rw [slowLink]
  split
  · exact ite_portsKeep
      ((declareDown_framesMove _ _ s).trans ((raise_framesMove _ _ _).trans (renumber_framesMove _))) (.refl _ s)
  · exact .refl _ s

/-- A port as its link comes up at a speed (R217, R207, R208). -/
def LinePort.linked (v : LinkSpeed) (mdix master par : Bool) (now : Ns) (p : LinePort) : LinePort :=
  { p with link := true, speed := v, mdix := mdix, master := master, parDet := par, los := false, changing := false,
           overdueAt := none, retryAt := none, abortNoted := false, downInWatch := false, sweepSince := none, assembly := none,
           txFrame := 0, txFrag := 0, syncAt := some now, pdelayAt := some now }

/-- The events of a link-up, verify, what follows the link and a wake leave what the port shows of it (R157, R236, R270, R284). -/
theorem linkUp_keeps {n : PortNo} {v : LinkSpeed} {s : State} (mdix master parDet : Bool) (h : mayLink n v s = true) :
    PortsKeep LinePort.shown
      (modPort n (LinePort.linked v mdix (master && v == .s1000) (parDet && !(port n s).forced) s.now) (restartPort n s))
      (linkUp n v mdix master parDet s) := by
  have hraise (c : Prop) [Decidable c] (code : Half) (data : List Byte) (t : State) :
      PortsKeep LinePort.shown t (if c then raise code data t else t) := ite_portsKeep (.of_lp (raise_lp ..)) (.refl _ t)
  have hwake (c : Prop) [Decidable c] (t : State) : PortsKeep LinePort.shown t (if c then portWakes n 7 t else t) :=
    ite_portsKeep ((modPort_portsKeep n t).trans (.of_lp (portWakes_lp n 7 t))) (.refl _ t)
  have hfollows (t : State) : FramesMove t (restoreDone (flowCheck n (slowLink n (refreshPort n t)))) :=
    (refreshPort_framesMove n t).trans <| (slowLink_framesMove n _).trans <| (flowCheck_framesMove n _).trans (restoreDone_framesMove _)
  simp only [linkUp, h, Bool.not_true, Bool.false_eq_true, if_false]
  exact .trans (.of_lp (raise_lp ..)) <| (hraise _ _ _ _).trans <| (hraise _ _ _ _).trans <|
    (startVerify_unverified n _).through.trans <| (rlv_framesMove _ _).through.trans <| (hfollows _).through.trans <|
    .trans (.of_lp (refreshOut1_lp _)) (hwake _ _)

theorem linkUp_shown {n : PortNo} {v : LinkSpeed} {s : State} (mdix master parDet : Bool) (h : mayLink n v s = true) :
    (port n (linkUp n v mdix master parDet s)).shown = (true, v, false, false, mdix) := by
  rw [linkUp_keeps mdix master parDet h n, port_modPort]
  rfl

/-! ### Link down, loss of signal (R216, R217) -/

/-- What a link that goes down leaves of a port's link and of the stops its partner sent. -/
def LinePort.stops (p : LinePort) : Bool × LinkSpeed × Option Ns × Vector (Option Ns) 8 :=
  (p.link, p.speed, p.rxPauseUntil, p.rxPfcUntil)

/-- A port as its link drops. -/
def LinePort.dropped (p : LinePort) : LinePort :=
  { p with link := false, speed := .down, mdix := false, master := false, parDet := false,
           verify := if p.verify == .disabled then .disabled else .initial, preemptActive := false, verifyTries := 0,
           verifyDue := none, assembly := none, sweepSince := none, syncAt := none, pdelayAt := none, ctl := [] }

/-- The span of a lane port is silenced. -/
def silencePort (n : PortNo) (s : State) : State :=
  match portLane n s with
  | some (l, e) => silenceSpan l e s
  | none => s

@[simp] theorem silencePort_lp (n : PortNo) (s : State) : (silencePort n s).lp = s.lp := by
  rw [silencePort]
  split
  · exact modEnd_lp ..
  · rfl

/-- A link that drops as it is told of and counted, before its stops are cleared and its frames move. -/
def dropNoted (n : PortNo) (s : State) : State :=
  silencePort n (bump n 0x4E0 (raise 0x3002 (d1 n.val ++ d1 (speedCode (port n s).speed)) (modPort n LinePort.dropped s)))

theorem linkDropped_eq {n : PortNo} {s : State} (h : (port n s).link = true) :
    linkDropped n s = portSpanDown n (flowReset n (dropNoted n s)) := by
  rw [linkDropped]
  simp only [h]
  rfl

/-- What is noted of a drop is the port's own change and one count (R217, R230). -/
theorem dropNoted_uncounted (n : PortNo) (s : State) :
    PortsKeep LinePort.uncounted (modPort n LinePort.dropped s) (dropNoted n s) :=
  .trans (.of_lp (raise_lp ..)) ((bump_uncounted n _ _).trans (.of_lp (silencePort_lp ..)))

theorem portCount_dropNoted (n : PortNo) (s : State) : portCount n 0x4E0 (dropNoted n s) = portCount n 0x4E0 s + 1 := by
  rw [dropNoted, portCount, port_of_lp (silencePort_lp ..)]
  refine (portCount_addCount_same n 0x4E0 1 _).trans ?_
  rw [portCount, port_of_lp (raise_lp ..), port_modPort]
  rfl

theorem linkDropped_stops {n : PortNo} {s : State} (h : (port n s).link = true) :
    (port n (linkDropped n s)).stops = (false, .down, none, Vector.replicate 8 none)
    ∧ portCount n 0x4E0 (linkDropped n s) = portCount n 0x4E0 s + 1 := by
  obtain ⟨hlink, hspeed, hpause, hpfc, hreset⟩ := flowReset_spec n (dropNoted n s)
  have hnoted := (dropNoted_uncounted n s).at n (fun p => (p.link, p.speed))
  simp only [port_modPort, LinePort.dropped, Prod.mk.injEq] at hnoted
  obtain ⟨hdown, hslow⟩ := hnoted
  have hmoves := portSpanDown_framesMove n (flowReset n (dropNoted n s))
  rw [linkDropped_eq h, hmoves.at n LinePort.stops, portCount, hmoves.at n LinePort.cnt, LinePort.stops, hlink, hspeed, hpause,
    hpfc, hdown, hslow]
  exact ⟨rfl, hreset.trans (portCount_dropNoted n s)⟩

/-- Time without link in a watch counts for the next link-up (R236). -/
def noteDown (n : PortNo) (s : State) : State :=
  modPort n (fun p => { p with downInWatch := p.downInWatch || (p.watch && watching s) }) (linkDropped n s)

theorem linkDown_eq {n : PortNo} {s : State} (h : (port n s).link = true) :
    linkDown n s = refreshOut1 (refreshPort n (noteDown n s)) := by
  rw [linkDown]
  simp only [h]
  rfl

theorem linkDown_stops {n : PortNo} {s : State} (h : (port n s).link = true) :
    (port n (linkDown n s)).stops = (false, .down, none, Vector.replicate 8 none)
    ∧ portCount n 0x4E0 (linkDown n s) = portCount n 0x4E0 s + 1 := by
  have hmoves := refreshPort_framesMove n (noteDown n s)
  rw [linkDown_eq h, portCount, port_of_lp (refreshOut1_lp _), hmoves.at n LinePort.stops, hmoves.at n LinePort.cnt, noteDown,
    port_modPort]
  exact linkDropped_stops h

/-- Loss of signal is noted and counted, and leaves the link up (R216). -/
theorem signalLost_of_signal {n : PortNo} {s : State} (hlink : (port n s).link = true) (hlos : (port n s).los = false) :
    (port n (signalLost n s)).los = true ∧ (port n (signalLost n s)).link = true := by
  have hcount := bump_uncounted n 0x4E4 (modPort n (fun x => { x with los := true }) s)
  have hmoves (t : State) : FramesMove t (refreshPort n (portSpanDown n t)) :=
    (portSpanDown_framesMove n t).trans (refreshPort_framesMove n _)
  simp only [signalLost, hlink, hlos, Bool.not_true, Bool.or_false, Bool.false_eq_true, if_false]
  rw [(hmoves _).at n LinePort.los, (hmoves _).at n LinePort.link, hcount.at n LinePort.los, hcount.at n LinePort.link, port_modPort]
  exact ⟨rfl, hlink⟩

theorem signalLost_of_lost {n : PortNo} {s : State} (hlos : (port n s).los = true) : signalLost n s = s := by
  simp [signalLost, hlos]

/-- Settles O25: one clause for each command, from what its meaning leaves of the port's link. -/
theorem linkUpAndDown : Obligations.LinkUpAndDown := by
  intro n s
  refine ⟨fun v mdix master par hmay => ⟨_, exec_linkUp n v mdix master par s, ?_⟩,
    fun hlink => ⟨_, exec_linkDown n s, ?_⟩, fun hlink hlos => ⟨_, exec_lossOfSignal n s, signalLost_of_signal hlink hlos⟩,
    fun hlos => ?_⟩
  · simpa only [LinePort.shown, Prod.mk.injEq] using linkUp_shown mdix master par hmay
  · simpa only [LinePort.stops, Prod.mk.injEq, and_assoc] using linkDown_stops hlink
  · rw [exec_lossOfSignal, signalLost_of_lost hlos]

/-! ### Speed changes (R205 to R212) -/

theorem modPort_onlyChanges_lp (n : PortNo) (g : LinePort → LinePort) (s : State) : onlyChanges [.lp] s (modPort n g s) := by
  refine ⟨rfl, rfl, rfl, fun p hp => ?_⟩
  cases p <;> simp [samePart] at hp ⊢

theorem modPort_hostSame (n : PortNo) (g : LinePort → LinePort) (s : State) : hostSame s (modPort n g s) := fun _ _ => rfl

/-- A counter's event is all that a count changes beyond its port (R230). -/
theorem addCount_onlyChanges (n : PortNo) (off k : Nat) (s : State) : onlyChanges (.lp :: eventParts) s (addCount n off k s) := by
  have hport (g : LinePort → LinePort) (t : State) : onlyChanges (.lp :: eventParts) t (modPort n g t) :=
    onlyChanges_mono (modPort_onlyChanges_lp n g t) (by simp)
  rw [addCount]
  dsimp only
  split
  · exact hport _ s
  · exact onlyChanges_trans (hport _ s) (onlyChanges_trans (hport _ _) (onlyChanges_mono (raise_onlyChanges _ _ _) (by simp)))

theorem addCount_hostSame (n : PortNo) (off k : Nat) (s : State) : hostSame s (addCount n off k s) := by
  rw [addCount]
  dsimp only
  split
  · exact modPort_hostSame n _ s
  · exact hostSame_trans (modPort_hostSame n _ s) (hostSame_trans (modPort_hostSame n _ _) (raise_hostSame _ _ _))

/-- No energy during a speed change: the PHY is silent for 2 s (R210). -/
theorem changeAbort_of_silent {n : PortNo} {s : State} (hchanging : (port n s).changing = true) (hphy : (port n s).phyOn = true)
    (hlink : (port n s).link = false) : changeAbort n s = abortChange n 0 s := by
  simp [changeAbort, hchanging, hphy, hlink]

/-- What an abort leaves of a port's speed change. -/
def LinePort.change (p : LinePort) : Bool × Bool × Option Ns × Bool := (p.phyOn, p.speedAborted, p.retryAt, p.changing)

/-- The port itself at an abort for want of a partner: silent for 2 s. -/
def LinePort.silenced (s : State) (p : LinePort) : LinePort :=
  { p with phyOn := false, speedAborted := true, abortNoted := true, overdueAt := none, retryAt := some (s.now + sec 2),
           downInWatch := p.downInWatch || lowWatch s }

theorem abortChange_noPartner (n : PortNo) (s : State) :
    abortChange n 0 s =
      let u := bump n 0x4E8 (modPort n (LinePort.silenced s) s)
      if (port n s).abortNoted then u else raise 0x3040 (d1 n.val ++ d1 0) u := rfl

theorem abortChange_spec (n : PortNo) (s : State) :
    (port n (abortChange n 0 s)).change = (false, true, some (s.now + sec 2), (port n s).changing)
    ∧ onlyChanges (.lp :: eventParts) s (abortChange n 0 s) ∧ hostSame s (abortChange n 0 s) := by
  have hcount := bump_uncounted n 0x4E8 (modPort n (LinePort.silenced s) s)
  have hparts : onlyChanges (.lp :: eventParts) s (bump n 0x4E8 (modPort n (LinePort.silenced s) s)) :=
    onlyChanges_trans (onlyChanges_mono (modPort_onlyChanges_lp n _ s) (by simp)) (addCount_onlyChanges n _ _ _)
  have hhost : hostSame s (bump n 0x4E8 (modPort n (LinePort.silenced s) s)) :=
    hostSame_trans (modPort_hostSame n _ s) (addCount_hostSame n _ _ _)
  have hchange : (port n (bump n 0x4E8 (modPort n (LinePort.silenced s) s))).change
      = (false, true, some (s.now + sec 2), (port n s).changing) := by
    rw [hcount.at n LinePort.change, port_modPort]
    rfl
  rw [abortChange_noPartner]
  dsimp only
  split
  · exact ⟨hchange, hparts, hhost⟩
  · rw [port_of_lp (raise_lp ..)]
    exact ⟨hchange, onlyChanges_trans hparts (onlyChanges_mono (raise_onlyChanges _ _ _) (by simp)),
      hostSame_trans hhost (raise_hostSame _ _ _)⟩

/-- Where a change has passed its maximum its event is written, and it is not due again (R212). -/
theorem changeOverdue_of_due {n : PortNo} {s : State} {d : Ns} (hchanging : (port n s).changing = true)
    (hphy : (port n s).phyOn = true) (hlink : (port n s).link = false) (hdue : (port n s).overdueAt = some d) (hd : d ≤ s.now) :
    changeOverdue n s = raise 0x3042 (d1 n.val) (modPort n (fun x => { x with overdueAt := none }) s) := by
  simp [changeOverdue, hchanging, hphy, hlink, due, hdue, hd]

theorem changeRetry_of_due {n : PortNo} {s : State} {d : Ns} (hchanging : (port n s).changing = true)
    (hdue : (port n s).retryAt = some d) (hd : d ≤ s.now) (hwanted : phyWanted n s = true) : changeRetry n s = beginChange n s := by
  simp [changeRetry, hchanging, due, hdue, hd, hwanted]

/-- Settles O26: one clause for each command. -/
theorem speedChangesAbortRetryAndEnd : Obligations.SpeedChangesAbortRetryAndEnd := by
  intro n s hchanging
  refine ⟨fun hphy hlink => ⟨⟨_, exec_speedChangeAbort n s, ?_⟩, fun d hdue hd => ?_⟩,
    fun d hdue hd hwanted hlink => ⟨_, exec_speedChangeRetry n s, ?_⟩⟩
  · obtain ⟨hchange, hparts, hhost⟩ := abortChange_spec n s
    simp only [LinePort.change, hchanging, Prod.mk.injEq] at hchange
    obtain ⟨hoff, haborted, hretry, hstill⟩ := hchange
    rw [changeAbort_of_silent hchanging hphy hlink]
    exact ⟨hoff, haborted, hretry, hstill, hparts, hhost⟩
  · rw [exec_speedChangeOverdue, changeOverdue_of_due hchanging hphy hlink hdue hd]
  · rw [changeRetry_of_due hchanging hdue hd hwanted, beginChange, linkDropped_of_noLink hlink, port_modPort]
    exact ⟨rfl, rfl, rfl, rfl, rfl, rfl, modPort_onlyChanges_lp n _ s⟩

end Sys2Proof.Machine
end


section
/-! SUPPORT. Lane speed restore (R214), wake patterns (R233 to R235) and cable tests (R239 to R242). Settles O27. -/
namespace Sys2Proof.Machine

theorem exec_lpSpeedRestore (r : Req) (s : State) : exec (.lpSpeedRestore r) s = .next (speedRestore r s) := rfl
theorem exec_speedRestoreCycle (l : Lane) (s : State) : exec (.speedRestoreCycle l) s = .next (restoreCycle l s) := rfl
theorem exec_wakePatternMatch (n : PortNo) (b : List Byte) (fcsOk : Bool) (s : State) :
    exec (.wakePatternMatch n b fcsOk) s = .next (patternWake n b fcsOk s) := rfl
theorem exec_lpCableTest (r : Req) (s : State) : exec (.lpCableTest r) s = .next (cableTest r s) := rfl
theorem exec_cableTestDone (n : PortNo) (first : PairResult) (more : List PairResult) (s : State) :
    exec (.cableTestDone n first more) s = .next (cablePairs n (first :: more) s) := rfl

/-- A message that its port's authority allows runs (R631). -/
theorem authorised_of_allowed (opcode : Half) {r : Req} {s : State} {k : State → State}
    (h : allowedAt opcode.toNat (authorityOf r.port s) = some true) : authorised opcode r k s = k s := by
  simp only [authorised, h]

/-! ### What a port keeps while it follows its limits -/

/-- What no change of link or speed touches: a port's role, RESTRICTED, its cable test and the results of the last one. -/
def LinePort.settings (p : LinePort) : BitVec 3 × Bool × Option CableTest × Word × Word :=
  (p.role, p.restricted, p.test, p.cableRes0, p.cableRes1)

theorem flowReset_settings (n : PortNo) (s : State) : PortsKeep LinePort.settings s (flowReset n s) := by
  have hpause : PortsKeep LinePort.settings s (endPause n s) :=
    (modPort_portsKeep n s).trans (addCount_uncounted n _ _ _).through
  exact hpause.trans (modPort_portsKeep n _)

theorem linkDropped_settings (n : PortNo) (s : State) : PortsKeep LinePort.settings s (linkDropped n s) := by
  cases h : (port n s).link with
  | false => rw [linkDropped_of_noLink h]; exact .refl _ s
  | true =>
    rw [linkDropped_eq h]
    exact (modPort_portsKeep n s).trans <| (dropNoted_uncounted n s).through.trans <| (flowReset_settings n _).trans <|
      (portSpanDown_framesMove n _).through

theorem powerDown_settings (n : PortNo) (s : State) : PortsKeep LinePort.settings s (powerDown n s) :=
  (linkDropped_settings n s).trans (modPort_portsKeep n _)

theorem beginChange_settings (n : PortNo) (s : State) : PortsKeep LinePort.settings s (beginChange n s) :=
  (linkDropped_settings n s).trans (modPort_portsKeep n _)

theorem retarget_settings (again : Bool) (n : PortNo) (s : State) : PortsKeep LinePort.settings s (retarget again n s) := by
  have hsame : PortsKeep LinePort.settings s s := .refl _ s
  have hself (g : LinePort → LinePort) (hg : ∀ p, (g p).settings = p.settings) : PortsKeep LinePort.settings s (modPort n g s) :=
    modPort_portsKeep n s hg
  refine ite_portsKeep (ite_portsKeep (powerDown_settings n s) hsame) ?_
  refine ite_portsKeep (ite_portsKeep (hself _ fun _ => rfl) hsame) ?_
  refine ite_portsKeep (hself _ fun _ => rfl) ?_
  exact ite_portsKeep (ite_portsKeep (beginChange_settings n s) (hself _ fun _ => rfl))
    (ite_portsKeep (beginChange_settings n s) hsame)

/-! ### A restore asked for (R214) -/

@[simp] theorem sendOnLane_restores (l : Lane) (e : End) (f : NatFrame) (origin : Option TxRef) (inPort : Option PortNo) (s : State) :
    (sendOnLane l e f origin inPort s).restores = s.restores := by
  rw [sendOnLane]
  split <;> rfl

/-- The restore of a lane that a request asks for. -/
def restoreOf (r : Req) (l : Lane) (s : State) : RestoreState := ⟨l, cycleIdx s + 100, false, some (r.port, r.tag)⟩

/-- The restore frame towards an end, over the other lane. -/
def sendRestore (l : Lane) (f : NatFrame) (e : End) (s : State) : State :=
  if hasNbr e s then sendOnLane (Lane.other l) e f none none s else s

@[simp] theorem sendRestore_restores (l : Lane) (f : NatFrame) (e : End) (s : State) :
    (sendRestore l f e s).restores = s.restores := by
  rw [sendRestore]
  split <;> simp

/-- A request whose body names a lane while traffic is native: BUSY, or held and told to both ends. -/
theorem speedRestore_of_lane {r : Req} {l : Lane} {s : State} (hauth : allowedAt 0x0302 (authorityOf r.port s) = some true)
    (hbody : r.body = [BitVec.ofNat 8 (Lane.num l), 0, 0, 0]) (hnative : nativeRun s = true) :
    speedRestore r s =
      if spansUp (Lane.other l) s then
        let f := nodeFrame allKey nodeLabel (encodeRestore l ((cycleIdx s + 100) % 2 ^ 32)) s
        sendRestore l f .e2 (sendRestore l f .e1 { s with restores := s.restores ++ [restoreOf r l s] })
      else answer r 0x0302 stBusy [] s := by
  have hlane : (if byteAt [BitVec.ofNat 8 (Lane.num l), 0, 0, 0] 0 = 0 then Lane.a else .b) = l := by cases l <;> rfl
  have hwell : (decide ([BitVec.ofNat 8 (Lane.num l), 0, 0, 0].length ≠ 4)
      || decide (1 < byteAt [BitVec.ofNat 8 (Lane.num l), 0, 0, 0] 0)
      || !zeros [BitVec.ofNat 8 (Lane.num l), 0, 0, 0] 1 4) = false := by cases l <;> rfl
  rw [speedRestore, authorised_of_allowed 0x0302 hauth, hbody]
  simp only [hwell, hlane, hnative]
  cases spansUp (Lane.other l) s <;> rfl

theorem speedRestore_restores {r : Req} {l : Lane} {s : State} (hauth : allowedAt 0x0302 (authorityOf r.port s) = some true)
    (hbody : r.body = [BitVec.ofNat 8 (Lane.num l), 0, 0, 0]) (hnative : nativeRun s = true)
    (hup : spansUp (Lane.other l) s = true) : (speedRestore r s).restores = s.restores ++ [restoreOf r l s] := by
  rw [speedRestore_of_lane hauth hbody hnative, if_pos hup]
  simp only [sendRestore_restores]

theorem speedRestore_of_length {r : Req} {s : State} (hauth : allowedAt 0x0302 (authorityOf r.port s) = some true)
    (hlen : r.body.length ≠ 4) : speedRestore r s = answer r 0x0302 stMalformed [] s := by
  rw [speedRestore, authorised_of_allowed 0x0302 hauth]
  simp only [hlen, decide_true, Bool.true_or, ne_eq, not_false_eq_true, if_true, malformed]

/-! ### A restore that begins (R214) -/

/-- A port has a role of a lane. -/
def onLane (l : Lane) (n : PortNo) (s : State) : Bool :=
  match portLane n s with
  | some (x, _) => x == l
  | none => false

theorem onLane_of_portLane {l : Lane} {e : End} {n : PortNo} {s : State} (h : portLane n s = some (l, e)) : onLane l n s = true := by
  simp [onLane, h]

theorem PortsKeep.onLane {s t : State} (h : PortsKeep LinePort.role s t) (l : Lane) (n : PortNo) : onLane l n t = onLane l n s := by
  rw [Machine.onLane, h.portLane n, Machine.onLane]

/-- A port of the lane loses RESTRICTED and renegotiates. -/
def renegotiate (l : Lane) (s : State) (n : PortNo) : State :=
  if onLane l n s then retarget true n (modPort n (fun p => { p with restricted := false }) s) else s

/-- A restore of the lane begins now. -/
def begins (l : Lane) (s : State) (r : RestoreState) : Bool := r.lane == l && !r.applied && decide (r.cycle ≤ cycleIdx s)

/-- The restores of the lane that begin now are noted as applied. -/
def noteBegun (l : Lane) (s : State) : State :=
  noteRestored l { s with restores := s.restores.map fun r => if begins l s r then { r with applied := true } else r }

theorem restoreCycle_of_begins {x : RestoreState} {s : State} (hx : x ∈ s.restores) (hbegins : begins x.lane s x = true) :
    restoreCycle x.lane s = restoreDone ((List.finRange 8).foldl (renegotiate x.lane) (noteBegun x.lane s)) := by
  have hany : s.restores.any (begins x.lane s) = true := List.any_eq_true.mpr ⟨x, hx, hbegins⟩
  have hcycle : restoreCycle x.lane s = if !(s.restores.any (begins x.lane s)) then s
      else restoreDone ((List.finRange 8).foldl (renegotiate x.lane) (noteBegun x.lane s)) := rfl
  rw [hcycle, hany]
  rfl

theorem noteBegun_lp (l : Lane) (s : State) : (noteBegun l s).lp = s.lp := by cases l <;> rfl

theorem renegotiate_role (l : Lane) (s : State) (n : PortNo) : PortsKeep LinePort.role s (renegotiate l s n) :=
  ite_portsKeep ((modPort_portsKeep n s).trans fun m => congrArg Prod.fst (retarget_settings true n _ m)) (.refl _ s)

theorem retarget_restricted (again : Bool) (n m : PortNo) (s : State) :
    (port m (retarget again n s)).restricted = (port m s).restricted :=
  congrArg (fun x => x.2.1) (retarget_settings again n s m)

theorem renegotiate_clears {l : Lane} {n : PortNo} {s : State} (h : onLane l n s = true) :
    (port n (renegotiate l s n)).restricted = false := by
  rw [renegotiate, if_pos h, retarget_restricted, port_modPort]

theorem renegotiate_stays {l : Lane} {n m : PortNo} {s : State} (h : (port m s).restricted = false) :
    (port m (renegotiate l s n)).restricted = false := by
  by_cases heq : m = n
  · subst heq
    cases hlane : onLane l m s with
    | true => exact renegotiate_clears hlane
    | false => rwa [renegotiate, hlane]
  · rw [renegotiate]
    split
    · rw [retarget_restricted, port_modPort_ne _ _ _ _ heq, h]
    · exact h

theorem foldl_renegotiate_stays {l : Lane} {m : PortNo} (ns : List PortNo) {s : State} (h : (port m s).restricted = false) :
    (port m (ns.foldl (renegotiate l) s)).restricted = false := by
  induction ns generalizing s with
  | nil => exact h
  | cons n ns ih => exact ih (renegotiate_stays h)

/-- Once every port of a list has had its turn, none of the lane's among them is restricted. -/
theorem foldl_renegotiate_clears {l : Lane} {m : PortNo} {ns : List PortNo} {s : State} (hm : m ∈ ns) (h : onLane l m s = true) :
    (port m (ns.foldl (renegotiate l) s)).restricted = false := by
  induction ns generalizing s with
  | nil => exact absurd hm List.not_mem_nil
  | cons n ns ih =>
    rw [List.foldl_cons]
    by_cases heq : m = n
    · subst heq
      exact foldl_renegotiate_stays ns (renegotiate_clears h)
    · exact ih (List.mem_of_ne_of_mem heq hm) (((renegotiate_role l s n).onLane l m).trans h)

/-- At the target cycle of a restore every port of its lane loses RESTRICTED (R214). -/
theorem restoreCycle_restricted {x : RestoreState} {n : PortNo} {e : End} {s : State} (hx : x ∈ s.restores)
    (happlied : x.applied = false) (hcycle : x.cycle ≤ cycleIdx s) (hlane : portLane n s = some (x.lane, e)) :
    (port n (restoreCycle x.lane s)).restricted = false := by
  have hbegins : begins x.lane s x = true := by simp [begins, happlied, hcycle]
  have hnoted : onLane x.lane n (noteBegun x.lane s) = true :=
    (PortsKeep.onLane (.of_lp (noteBegun_lp _ s)) x.lane n).trans (onLane_of_portLane hlane)
  rw [restoreCycle_of_begins hx hbegins, (restoreDone_framesMove _).at n LinePort.restricted]
  exact foldl_renegotiate_clears (List.mem_finRange n) hnoted

/-! ### A wake pattern (R235) -/

/-- A matching frame on a watch port in CELLAR is a hit of the lowest pattern it matches. -/
theorem patternWake_hit {n : PortNo} {b : List Byte} {k : Fin 4} {s : State} (hwatch : (port n s).watch = true)
    (hrole : (port n s).role = 1) (hlink : (port n s).link = true) (hcellar : s.cel.pstate = .cellar)
    (hmatch : patternOf (port n s) b = some k) : (port n (patternWake n b true s)).wakeHit = word (2 ^ 31 + k.val) := by
  have hwatching : watching s = true := by simp [watching, hcellar]
  have hwake : patternWake n b true s = portWakes n k.val s := by
    simp [patternWake, hwatch, hrole, hlink, hwatching, hmatch]
  rw [hwake, port_of_lp (portWakes_lp n k.val s), port_modPort]

/-! ### A cable test begins (R239, R240) -/

/-- The test is noted at a port whose link has dropped. -/
def openTest (r : Req) (n : PortNo) (s : State) : State :=
  modPort n (fun x => { x with test := some ⟨r.port, r.tag, []⟩ }) (refreshPort n (linkDropped n s))

/-- A request that may test the port it names (R240). -/
theorem cableTest_of_free {r : Req} {n : PortNo} {s : State} (hauth : allowedAt 0x0301 (authorityOf r.port s) = some true)
    (hbody : r.body = [BitVec.ofNat 8 n.val, 0, 0, 0]) (hlane : (portLane n s).isSome = true → (port n s).link = false)
    (htest : (port n s).test = none) (hchanging : (port n s).changing = false) (hlevel : s.bgt.level.val < 3) :
    cableTest r s =
      let t := openTest r n s
      if fvLiveAt n t then cableAbort n 8 t else if !slotReady (portSlot n) t then cableAbort n 0xA t else t := by
  have hport : ∀ n : PortNo, asPort (byteAt [BitVec.ofNat 8 n.val, 0, 0, 0] 0) = n := by decide
  have hwell : ∀ n : PortNo, (decide ([BitVec.ofNat 8 n.val, 0, 0, 0].length ≠ 4)
      || decide (7 < byteAt [BitVec.ofNat 8 n.val, 0, 0, 0] 0) || !zeros [BitVec.ofNat 8 n.val, 0, 0, 0] 1 4) = false := by decide
  have hfree : ((portLane n s).isSome && (port n s).link || (port n s).test.isSome || (port n s).changing
      || decide (3 ≤ s.bgt.level.val)) = false := by
    simpa [htest, hchanging, Nat.not_le.mpr hlevel] using hlane
  rw [cableTest, authorised_of_allowed 0x0301 hauth, hbody]
  simp only [hwell, hport, hfree]
  rfl

/-- Without foreign voltage, on a port whose cartridge is ready, the test stays open (R239). -/
theorem cableTest_opens {r : Req} {n : PortNo} {s : State} (hauth : allowedAt 0x0301 (authorityOf r.port s) = some true)
    (hbody : r.body = [BitVec.ofNat 8 n.val, 0, 0, 0]) (hlane : (portLane n s).isSome = true → (port n s).link = false)
    (htest : (port n s).test = none) (hchanging : (port n s).changing = false) (hlevel : s.bgt.level.val < 3)
    (hvoltage : fvLiveAt n s = false) (hready : slotReady (portSlot n) s = true) : cableTest r s = openTest r n s := by
  have hsys : (openTest r n s).sys = s.sys :=
    onlyChanges_traffic_sys (onlyChanges_trans (linkDropped_onlyChanges n s) <|
      onlyChanges_trans (refreshPort_trafficMoves n _).parts (modPort_onlyChanges n _ _))
  have hvoltage' : fvLiveAt n (openTest r n s) = false := by rw [fvLiveAt, hsys]; exact hvoltage
  have hready' : slotReady (portSlot n) (openTest r n s) = true := by rw [slotReady, slot, hsys]; exact hready
  rw [cableTest_of_free hauth hbody hlane htest hchanging hlevel]
  simp only [hvoltage', hready', Bool.not_true, Bool.false_eq_true, if_false]

theorem openTest_port (r : Req) (n : PortNo) (s : State) :
    (port n (openTest r n s)).test = some ⟨r.port, r.tag, []⟩ ∧ (port n (openTest r n s)).link = false := by
  rw [openTest, port_modPort]
  exact ⟨rfl, ((refreshPort_trafficMoves n _).link n).trans (linkDropped_link n s)⟩

/-! ### Results of a cable test (R239, R241) -/

/-- The result of one pair while others are to come is kept with those told so far. -/
theorem cablePairs_of_more {n : PortNo} {x : CableTest} {s : State} (htest : (port n s).test = some x) (r : PairResult)
    (hlen : x.done.length < 3) : cablePairs n [r] s
      = modPort n (fun p => { p with test := some { x with done := x.done ++ [pairFound n x.done.length r s] } }) s := by
  have htake : (x.done ++ [pairFound n x.done.length r s]).take 4 = x.done ++ [pairFound n x.done.length r s] :=
    List.take_of_length_le (by simp; omega)
  have hmore : ¬ 4 ≤ (x.done ++ [pairFound n x.done.length r s]).length := by simp; omega
  simp only [cablePairs, htest, List.foldl_cons, List.foldl_nil, htake, if_neg hmore]

/-- The results of all four pairs end the test. -/
theorem cablePairs_of_four {n : PortNo} {x : CableTest} {s : State} (htest : (port n s).test = some x) (hdone : x.done = [])
    (r0 r1 r2 r3 : PairResult) : cablePairs n [r0, r1, r2, r3] s
      = cableEnd n [pairFound n 0 r0 s, pairFound n 1 r1 s, pairFound n 2 r2 s, pairFound n 3 r3 s] s := by
  simp [cablePairs, htest, hdone]

/-- The port as its test ends with a list of results. -/
def LinePort.tested (l : List Half) (p : LinePort) : LinePort :=
  { p with test := none, cableRes0 := resWord l 0, cableRes1 := resWord l 2, changeAfterTest := false, phyOn := false }

/-- Behind the results the event, the response and the port's start at its target leave them as they are (R239). -/
theorem cableEnd_settings {n : PortNo} {x : CableTest} {s : State} (htest : (port n s).test = some x) (l : List Half) :
    PortsKeep LinePort.settings (modPort n (LinePort.tested l) s) (cableEnd n l s) := by
  have hend : cableEnd n l s = retarget (port n s).changeAfterTest n
      (respond x.port x.tag 0x0301 stOk (toLE 4 (resWord l 0).toNat ++ toLE 4 (resWord l 2).toNat)
        (raise 0x3050 (d1 n.val ++ d4 (resWord l 0).toNat ++ d4 (resWord l 2).toNat) (modPort n (LinePort.tested l) s))) := by
    rw [cableEnd, htest]
    rfl
  rw [hend]
  exact ((raise_framesMove _ _ _).trans (respond_framesMove _ _ _ _ _ _)).through.trans (retarget_settings _ n _)

theorem cableEnd_results {n : PortNo} {x : CableTest} {s : State} (htest : (port n s).test = some x) (l : List Half) :
    (port n (cableEnd n l s)).test = none ∧ (port n (cableEnd n l s)).cableRes0 = resWord l 0
      ∧ (port n (cableEnd n l s)).cableRes1 = resWord l 2 := by
  have hkept := cableEnd_settings htest l n
  simp only [port_modPort, LinePort.settings, LinePort.tested, Prod.mk.injEq] at hkept
  obtain ⟨-, -, hnone, hres0, hres1⟩ := hkept
  exact ⟨hnone, hres0, hres1⟩

/-- Settles O27: one clause for each command. -/
theorem speedRestoreWakePatternsAndCableTests : Obligations.SpeedRestoreWakePatternsAndCableTests := by
  refine ⟨⟨fun r s hauth => ⟨fun l hbody hnative => ⟨fun hup => ⟨_, exec_lpSpeedRestore r s, ?_⟩, fun hdown => ?_⟩,
      fun hlen => ?_⟩, fun s x hx happlied hcycle => ⟨_, exec_speedRestoreCycle x.lane s, fun n e hlane => ?_⟩⟩,
    fun n b k s hwatch hrole hlink hcellar hmatch => ⟨_, exec_wakePatternMatch n b true s, ?_⟩,
    fun r n s hauth hbody hlane htest hchanging hlevel hvoltage hready => ⟨_, exec_lpCableTest r s, ?_⟩,
    fun n x s htest => ⟨fun r hlen => ?_, fun r0 r1 r2 r3 hdone => ⟨_, exec_cableTestDone n r0 [r1, r2, r3] s, ?_⟩⟩⟩
  · exact speedRestore_restores hauth hbody hnative hup
  · rw [exec_lpSpeedRestore, speedRestore_of_lane hauth hbody hnative, hdown]
    rfl
  · rw [exec_lpSpeedRestore, speedRestore_of_length hauth hlen]
  · exact restoreCycle_restricted hx happlied hcycle hlane
  · exact patternWake_hit hwatch hrole hlink hcellar hmatch
  · rw [cableTest_opens hauth hbody hlane htest hchanging hlevel hvoltage hready]
    exact openTest_port r n s
  · rw [exec_cableTestDone, cablePairs_of_more htest r hlen]
  · rw [cablePairs_of_four htest hdone]
    exact cableEnd_results htest _

end Sys2Proof.Machine
end

section
/-! SUPPORT. What a line port does with what it receives (R220, Table 5.3, R201, R270, R275). Settles O19. -/
namespace Sys2Proof.Machine

/-- What follows every reception: the end of native mode, flow control, preemption. -/
theorem exec_portFrameReceived (n : PortNo) (item : RxItem) (s : State) :
    exec (.portFrameReceived n item) s = .next (preemptAll (flowCheck n (leavingNative s (portReceives n item s)))) := rfl

/-! ### A port that receives -/

/-- A port has link, and its consist role does not keep it in the watch in which it counts nothing (R237). -/
def Receives (n : PortNo) (s : State) : Prop := (port n s).link = true ∧ ((port n s).role = 1 → watchQuiet s = false)

theorem Receives.not_passed {n : PortNo} {s : State} (h : Receives n s) :
    (!(port n s).link || ((port n s).role == 1 && watchQuiet s)) = false := by
  obtain ⟨hlink, hwatch⟩ := h
  cases hrole : (port n s).role == 1 with
  | false => simp [hlink]
  | true => simp [hlink, hwatch (eq_of_beq hrole)]

/-- Any frame received ends loss of signal (R216). -/
def signalHeard (n : PortNo) (s : State) : State := modPort n (fun x => { x with los := false }) s

/-! ### Frames by length and FCS -/

/-- A good frame by its length (R220). -/
theorem frameIn_good {n : PortNo} {s : State} (h : Receives n s) (b : List Byte) :
    frameIn n b true true false s =
      let u := signalHeard n s
      if wireLen b < 64 then bump n 0x45C u
      else if effMaxLen n s < wireLen b then
        (if (portLane n s).isSome then bump n 0x464 u else acceptFrame n b (bump n 0x464 u))
      else acceptFrame n b (countFrame n 0x400 b u) := by
  rw [frameIn]
  simp only [h.not_passed]
  rfl

theorem effMaxLen_signalHeard (n : PortNo) (s : State) : effMaxLen n (signalHeard n s) = effMaxLen n s := by
  have hrole : PortsKeep LinePort.role s (signalHeard n s) := modPort_portsKeep n s
  rw [effMaxLen, hrole.portLane n, signalHeard, port_modPort, effMaxLen]

/-- A whole frame within the port's length whose FCS is wrong (Tables 5.3 and 5.4). -/
theorem countBad_within {n : PortNo} {s : State} {len : Nat} (hmin : 64 ≤ len) (hmax : len ≤ effMaxLen n s) :
    countBad n len true s = bump n (0x42C + 4 * sizeBin len) (bump n 0x450 s) := by
  rw [countBad, if_neg (Nat.not_lt.mpr hmin), if_neg (Nat.not_lt.mpr hmax)]
  rfl

/-- At a port without a lane it goes no further. -/
theorem frameIn_badFcs {n : PortNo} {s : State} (h : Receives n s) {b : List Byte} (hmin : 64 ≤ wireLen b)
    (hmax : wireLen b ≤ effMaxLen n s) (hlane : portLane n s = none) :
    frameIn n b false true false s = bump n (0x42C + 4 * sizeBin (wireLen b)) (bump n 0x450 (signalHeard n s)) := by
  have hbad := countBad_within (s := signalHeard n s) hmin (effMaxLen_signalHeard n s ▸ hmax)
  have hrole : PortsKeep LinePort.role s (countBad n (wireLen b) true (signalHeard n s)) :=
    hbad ▸ (modPort_portsKeep n s).trans ((bump_uncounted n _ _).trans (bump_uncounted n _ _)).through
  have hnoLane : portLane n (countBad n (wireLen b) true (signalHeard n s)) = none := (hrole.portLane n).trans hlane
  rw [← hbad, frameIn, h.not_passed]
  simp only [signalHeard] at hnoLane ⊢
  simp [hnoLane]

/-- What a counted frame leaves of the port that received it. -/
theorem counted_portsKeep (n : PortNo) (b : List Byte) (s : State) :
    PortsKeep (fun p => (p.role, p.watch)) s (countFrame n 0x400 b (signalHeard n s)) :=
  (modPort_portsKeep n s).trans (countFrame_uncounted n _ b _).through

/-- A frame that is no MAC control frame, on a consist port that does not watch, goes to the port's client (R201). -/
theorem acceptFrame_of_consist {n : PortNo} {b : List Byte} {s : State} (hctl : macControl b = none) (hlane : portLane n s = none)
    (hrole : (port n s).role = 1) (hwatch : (port n s).watch = false) : acceptFrame n b s = consistFrame n b s := by
  simp [acceptFrame, hctl, hlane, hrole, hwatch]

/-- On a lane port it follows the lane's rules (R25, R150). -/
theorem acceptFrame_of_lane {n : PortNo} {l : Lane} {e : End} {b : List Byte} {s : State} (hctl : macControl b = none)
    (hlane : portLane n s = some (l, e)) : acceptFrame n b s = laneFrame n l e b true s := by
  simp [acceptFrame, hctl, hlane]

theorem frameIn_within {n : PortNo} {s : State} (h : Receives n s) {b : List Byte} (hmin : 64 ≤ wireLen b)
    (hmax : wireLen b ≤ effMaxLen n s) :
    frameIn n b true true false s = acceptFrame n b (countFrame n 0x400 b (signalHeard n s)) := by
  rw [frameIn_good h]
  dsimp only
  rw [if_neg (Nat.not_lt.mpr hmin), if_neg (Nat.not_lt.mpr hmax)]

/-! ### mPackets -/

/-- An mCRC is never the FCS of the same bytes (R269). -/
theorem mcrc_ne_fcs (b : List Byte) : mcrc b ≠ fcs b := by
  intro h
  have hinverted : fcs b ^^^ mcrc b = 0xFFFF0000 := by rw [mcrc, ← BitVec.xor_assoc, BitVec.xor_self, BitVec.zero_xor]
  rw [h, BitVec.xor_self] at hinverted
  exact absurd hinverted (by decide)

/-- A first fragment with its mCRC begins a reassembly (R275). -/
theorem fragmentIn_first {n : PortNo} {s : State} (h : Receives n s) (hnone : (port n s).assembly = none) (k j : BitVec 2)
    (b : List Byte) : fragmentIn n true k j b (mcrc b) s
      = modPort n (fun p => { p with assembly := some ⟨b, k, 0, false⟩ }) (bump n 0x478 s) := by
  have hpart : (mcrc b == fcs b) = false := beq_false_of_ne (mcrc_ne_fcs b)
  rw [fragmentIn, h.not_passed, hnone, hpart]
  simp [assemble, hpart]

/-- What did not touch Rolavo did not end native mode. -/
theorem leavingNative_of_rlv {s t : State} (h : t.rlv = s.rlv) : leavingNative s t = t := by
  simp [leavingNative, isNative, h]

/-- A respond mPacket while verify runs makes preemption active (R270). -/
theorem gotRespond_of_verifying {n : PortNo} {s : State} (h : (port n s).verify = .verifying) :
    (port n (gotRespond n s)).verify = .succeeded ∧ (port n (gotRespond n s)).preemptActive = true
      ∧ (gotRespond n s).rlv = s.rlv := by
  have hnot : ((port n s).verify != .verifying) = false := by rw [h]; rfl
  rw [gotRespond, hnot, if_neg Bool.false_ne_true, port_of_lp (raise_lp ..), port_modPort, raise_rlv]
  exact ⟨rfl, rfl, rfl⟩

/-- Settles O19: `portReceives` in the case each clause names. -/
theorem portFramesAreClassified : Obligations.PortFramesAreClassified := by
  intro n s hlink hwatch fin
  have hrx : Receives n s := ⟨hlink, hwatch⟩
  refine ⟨fun b => ?_, fun hverify => ⟨_, exec_portFrameReceived n .respond s, ?_⟩, fun hon => ?_⟩
  · have hkept := counted_portsKeep n b s n
    simp only [Prod.mk.injEq] at hkept
    obtain ⟨hrole, hwatch'⟩ := hkept
    have hlane' : portLane n (countFrame n 0x400 b (signalHeard n s)) = portLane n s := congrArg roleLane hrole
    refine ⟨fun hshort => ?_, fun hmin hmax hctl => ⟨fun ⟨hlane, hone, hquiet⟩ => ?_, fun l e hlane => ?_⟩,
      fun hmin hmax hlane => ?_, fun k j hnone => ?_, fun l e hlane => ?_, fun l e d v g hlane => ?_⟩
    · rw [exec_portFrameReceived, portReceives, frameIn_good hrx]
      dsimp only
      rw [if_pos hshort]
      rfl
    · rw [exec_portFrameReceived, portReceives, frameIn_within hrx hmin hmax,
        acceptFrame_of_consist hctl (hlane'.trans hlane) (hrole.trans hone) (hwatch'.trans hquiet)]
      rfl
    · rw [exec_portFrameReceived, portReceives, frameIn_within hrx hmin hmax, acceptFrame_of_lane hctl (hlane'.trans hlane)]
      rfl
    · rw [exec_portFrameReceived, portReceives, frameIn_badFcs hrx hmin hmax hlane]
      rfl
    · rw [exec_portFrameReceived, portReceives, fragmentIn_first hrx hnone]
    · simp only [exec_portFrameReceived, portReceives, ttdpIn, hlane, hlink]
      rfl
    · simp only [exec_portFrameReceived, portReceives, hlane, hlink]
      rfl
  · obtain ⟨hsucceeded, hactive, hrlv⟩ := gotRespond_of_verifying hverify
    have hmoves := (flowCheck_framesMove n (gotRespond n s)).trans (preemptAll_framesMove _)
    rw [portReceives, leavingNative_of_rlv hrlv, hmoves.at n LinePort.verify, hmoves.at n LinePort.preemptActive]
    exact ⟨hsucceeded, hactive⟩
  · rw [exec_portFrameReceived, portReceives, gotVerify, hon, hlink]
    rfl

end Sys2Proof.Machine
end

section
/-! SUPPORT. The flow control a port sends (R280): it changes the port's XOFF state and adds to its control frames, nothing else. -/
namespace Sys2Proof.Machine

/-- A port but for its control frames and the XOFF it has sent. -/
def LinePort.unsent (p : LinePort) : LinePort :=
  { p with ctl := [], txPauseXoff := false, txXoff := 0, xoffRepeatAt := Vector.replicate 8 none, pauseRepeatAt := none }

/-- From one state to the other flow control was sent on a port at most (R280). -/
structure FlowSent (n : PortNo) (s t : State) : Prop where
  parts : onlyChanges [.lp] s t
  host : hostSame s t
  ports : PortsKeep LinePort.unsent s t
  ctl : (port n s).ctl.length ≤ (port n t).ctl.length

section
variable {n : PortNo} {s t u : State}

theorem FlowSent.refl (n : PortNo) (s : State) : FlowSent n s s := ⟨onlyChanges_refl _ _, hostSame_refl s, .refl _ s, Nat.le_refl _⟩

theorem FlowSent.trans (h : FlowSent n s t) (k : FlowSent n t u) : FlowSent n s u :=
  ⟨onlyChanges_trans h.parts k.parts, hostSame_trans h.host k.host, h.ports.trans k.ports, Nat.le_trans h.ctl k.ctl⟩

theorem FlowSent.now (h : FlowSent n s t) : t.now = s.now := h.parts.2.1

/-- The time of the next XOFF follows from what flow control leaves of the port. -/
theorem FlowSent.halfQuanta (h : FlowSent n s t) : halfQuanta n t = halfQuanta n s := by
  rw [Machine.halfQuanta, h.now, h.ports.at n LinePort.speed, h.ports.at n LinePort.quanta, Machine.halfQuanta]

/-- A change of the port's XOFF state with one more control frame. -/
theorem FlowSent.pushCtl {g : LinePort → LinePort} (b : List Byte) (hkept : ∀ p, (g p).unsent = p.unsent := by intro; rfl)
    (hctl : ∀ p, (g p).ctl = p.ctl := by intro; rfl) : FlowSent n s (pushCtl n b (modPort n g s)) := by
  refine ⟨onlyChanges_trans (modPort_onlyChanges_lp n g s) (modPort_onlyChanges_lp n _ _),
    hostSame_trans (modPort_hostSame n g s) (modPort_hostSame n _ _), (modPort_portsKeep n s hkept).trans (modPort_portsKeep n _), ?_⟩
  rw [Machine.pushCtl, port_modPort, port_modPort, hctl, List.length_append]
  exact Nat.le_add_right _ _
end

theorem pfcOff_flowSent (n : PortNo) (mask : Nat) (s : State) : FlowSent n s (pfcOff n mask s) := .pushCtl _
theorem pfcOn_flowSent (n : PortNo) (mask : Nat) (s : State) : FlowSent n s (pfcOn n mask s) := .pushCtl _
theorem pauseOff_flowSent (n : PortNo) (s : State) : FlowSent n s (pauseOff n s) := .pushCtl _
theorem pauseOn_flowSent (n : PortNo) (s : State) : FlowSent n s (pauseOn n s) := .pushCtl _

theorem ite_flowSent {c : Prop} [Decidable c] {n : PortNo} {s t u : State} (ht : FlowSent n s t) (hu : FlowSent n s u) :
    FlowSent n s (if c then t else u) := by
  split
  · exact ht
  · exact hu

theorem flowCheck_flowSent (n : PortNo) (s : State) : FlowSent n s (flowCheck n s) := by
  have hpfc (c d : Prop) [Decidable c] [Decidable d] (a b : Nat) :
      FlowSent n s (if c then (if d then s else pfcOff n a s) else pfcOn n b (if d then s else pfcOff n a s)) := by
    have hoff : FlowSent n s (if d then s else pfcOff n a s) := ite_flowSent (.refl n s) (pfcOff_flowSent n a s)
    exact ite_flowSent hoff (hoff.trans (pfcOn_flowSent n b _))
  exact ite_flowSent (.refl n s) <| ite_flowSent ((hpfc _ _ _ _).trans (pauseOff_flowSent n _)) <|
    ite_flowSent ((hpfc _ _ _ _).trans (pauseOn_flowSent n _)) (hpfc _ _ _ _)

theorem flowCheckAll_unsent (s : State) : PortsKeep LinePort.unsent s (flowCheckAll s) :=
  foldl_portsKeep (fun t n => (flowCheck_flowSent n t).ports) _ s

end Sys2Proof.Machine
end

section
/-! SUPPORT. The egress of a line port (R253, R258, R271) and its gate list (R262, R263, R276). Settles O28. -/
namespace Sys2Proof.Machine

theorem exec_egressStart (n : PortNo) (s : State) : exec (.egressStart n) s = .next (egress n s) := rfl
theorem exec_gateEntryChange (n : PortNo) (s : State) : exec (.gateEntryChange n) s = .next (gateChange n s) := rfl

/-! ### A port made ready -/

/-- A port's speed and what it has on the wire. -/
def LinePort.wire (p : LinePort) : LinkSpeed × Option Sending := (p.speed, p.sending)

/-- No time has passed, and every port has its speed and its wire as before. -/
structure WiresKeep (s t : State) : Prop where
  now : t.now = s.now
  ports : PortsKeep LinePort.wire s t

section
variable {s t u : State}

theorem WiresKeep.refl (s : State) : WiresKeep s s := ⟨rfl, .refl _ s⟩

theorem WiresKeep.trans (h : WiresKeep s t) (k : WiresKeep t u) : WiresKeep s u :=
  ⟨k.now.trans h.now, h.ports.trans k.ports⟩

theorem WiresKeep.speed (h : WiresKeep s t) (n : PortNo) : (port n t).speed = (port n s).speed := congrArg Prod.fst (h.ports n)

theorem WiresKeep.sending (h : WiresKeep s t) (n : PortNo) : (port n t).sending = (port n s).sending := congrArg Prod.snd (h.ports n)

theorem ite_wiresKeep {c : Prop} [Decidable c] (ht : WiresKeep s t) (hu : WiresKeep s u) : WiresKeep s (if c then t else u) := by
  split
  · exact ht
  · exact hu

theorem modPort_wiresKeep {g : LinePort → LinePort} (n : PortNo) (s : State)
    (hg : ∀ p, (g p).wire = p.wire := by intro; rfl) : WiresKeep s (modPort n g s) := ⟨rfl, modPort_portsKeep n s hg⟩
end

theorem raise_wiresKeep (code : Half) (data : List Byte) (s : State) : WiresKeep s (raise code data s) :=
  ⟨raise_now .., .of_lp (raise_lp ..)⟩

theorem bump_wiresKeep (n : PortNo) (off : Nat) (s : State) : WiresKeep s (bump n off s) :=
  ⟨(addCount_onlyChanges n off 1 s).2.1, (bump_uncounted n off s).through⟩

theorem completeOrigin_wiresKeep (o : Option TxRef) (status : Nat) (f : TxPend → TxPend) (s : State) :
    WiresKeep s (completeOrigin o status f s) := by
  refine ⟨(completeOrigin_trafficMoves o status f s).parts.2.1, ?_⟩
  cases o with
  | none => exact .refl _ s
  | some r =>
    exact .trans (.of_lp (modCtx_lp ..))
      (.trans (.of_lp (modCtx_lp ..)) (foldl_portsKeep (fun _ _ => .of_lp (modCq_lp ..)) _ _))

theorem gptpQueue_wiresKeep (n : PortNo) (s : State) : WiresKeep s (gptpQueue n s) := by
  have hpush (b : List Byte) (t : State) : WiresKeep t (pushCtl n b t) := modPort_wiresKeep n t
  have hsync : WiresKeep s (if sendsTime n s then sendSync n s else s) :=
    ite_wiresKeep ((hpush _ s).trans (hpush _ _)) (.refl s)
  have hannounce (t : State) : WiresKeep t (if !isNative t && sendsTime n t then sendAnnounce n t else t) :=
    ite_wiresKeep (hpush _ t) (.refl t)
  rw [gptpQueue]
  refine ite_wiresKeep (.refl s) ?_
  dsimp only
  generalize hs1 : (if due (port n s).syncAt s then _ else s : State) = s1
  have hfirst : WiresKeep s s1 := by
    rw [← hs1]
    exact ite_wiresKeep (hsync.trans (modPort_wiresKeep n _)) (.refl s)
  exact ite_wiresKeep (hfirst.trans <| (hannounce s1).trans <| (hpush _ _).trans (modPort_wiresKeep n _)) hfirst

/-- A head is dropped: it leaves its queue, completes and is counted (R222, R256). -/
theorem headDropped_wiresKeep {g : LinePort → LinePort} (n : PortNo) (o : Option TxRef) (status off : Nat) (s : State)
    (hg : ∀ p, (g p).wire = p.wire := by intro; rfl) : WiresKeep s (bump n off (completeOrigin o status id (modPort n g s))) :=
  (modPort_wiresKeep n s hg).trans ((completeOrigin_wiresKeep o status id _).trans (bump_wiresKeep n off _))

/-- An event of a port whose time is noted, at most once in its spacing. -/
theorem spacedEvent_wiresKeep {g : LinePort → LinePort} {c : Prop} [Decidable c] (n : PortNo) (code : Half) (data : List Byte)
    (s : State) (hg : ∀ p, (g p).wire = p.wire := by intro; rfl) :
    WiresKeep s (if c then raise code data (modPort n g s) else s) :=
  ite_wiresKeep ((modPort_wiresKeep n s hg).trans (raise_wiresKeep code data _)) (.refl s)

theorem dropHeads_wiresKeep (n : PortNo) (q : Fin 8) (k : Nat) (s : State) : WiresKeep s (dropHeads n q k s) := by
  induction k generalizing s with
  | zero => exact .refl s
  | succ k ih =>
    rw [dropHeads]
    dsimp only
    split
    · exact .refl s
    · refine ite_wiresKeep (.trans ?_ (ih _)) (ite_wiresKeep (.trans ?_ (ih _)) (.refl s))
      · exact (headDropped_wiresKeep n _ _ _ s).trans (spacedEvent_wiresKeep n _ _ _)
      · exact (headDropped_wiresKeep n _ _ _ s).trans (spacedEvent_wiresKeep n _ _ _)

theorem readyPort_wiresKeep (n : PortNo) (s : State) : WiresKeep s (readyPort n s) := by
  have hall (l : List (Fin 8)) (t : State) : WiresKeep t (l.foldl (fun t q => dropHeads n q (port n t).queues[q].length t) t) := by
    induction l generalizing t with
    | nil => exact .refl t
    | cons q l ih => exact (dropHeads_wiresKeep n q _ t).trans (ih _)
  exact (gptpQueue_wiresKeep n s).trans (hall _ _)

/-! ### The choice carried out -/

theorem egress_of_choice {n : PortNo} {s : State} {c : Choice} (hfree : (port n s).sending = none) (hmay : mayTransmit n s = true)
    (hc : choose n (readyPort n s) = some c) : egress n s = flowCheckAll (begin_ n c (readyPort n s)) := by
  simp [egress, retireSending, hfree, hmay, hc]

theorem egress_of_nothing {n : PortNo} {s : State} (hfree : (port n s).sending = none) (hmay : mayTransmit n s = true)
    (hc : choose n (readyPort n s) = none) : egress n s = flowCheckAll (readyPort n s) := by
  simp [egress, retireSending, hfree, hmay, hc]

/-- The M bytes of a cycle are no part of a port (R562). -/
@[simp] theorem countM_lp (n : PortNo) (f : OutFrame) (s : State) : (countM n f s).lp = s.lp := by
  rw [countM]
  split
  · split <;> rfl
  · rfl

@[simp] theorem countM_now (n : PortNo) (f : OutFrame) (s : State) : (countM n f s).now = s.now := by
  rw [countM]
  split
  · split <;> rfl
  · rfl

/-- What goes on the wire of a frame, and from when to when. -/
theorem putOnWire_sending (n : PortNo) (f : OutFrame) (q upTo : Nat) (pre : Bool) (s : State) :
    ∃ x, (port n (putOnWire n f q upTo pre s)).sending = some x ∧ x.frame.bytes = f.bytes ∧ x.startAt = s.now
      ∧ x.endAt = s.now + wireNs (port n s).speed (upTo - f.sent + 4) ∧ x.upTo = upTo ∧ x.from_ = f.sent ∧ x.preemptable = pre
      ∧ x.queue = q := by
  refine ⟨_, by rw [putOnWire, port_modPort], ?_, rfl, rfl, rfl, rfl, rfl, rfl⟩
  dsimp only
  split <;> rfl

/-- The head of a queue is put on the wire and leaves it. -/
theorem begin_head (n : PortNo) (q : Fin 8) (f : OutFrame) (k : Nat) (pre : Bool) (s : State) :
    ∃ x, (port n (begin_ n (.head q f k pre) s)).sending = some x ∧ x.frame.bytes = f.bytes ∧ x.startAt = s.now
      ∧ x.endAt = s.now + wireNs (port n s).speed (k - f.sent + 4) ∧ x.upTo = k ∧ x.from_ = f.sent ∧ x.preemptable = pre
      ∧ x.queue = q.val ∧ (port n (begin_ n (.head q f k pre) s)).queues[q] = dropFree n s (port n s).queues[q] := by
  have hport : port n (countM n f (modPort n (fun p => { p with queues := p.queues.set q (dropFree n s p.queues[q]) }) s))
      = { port n s with queues := (port n s).queues.set q (dropFree n s (port n s).queues[q]) } := by
    rw [port_of_lp (countM_lp ..), port_modPort]
  obtain ⟨x, hx, hbytes, hstart, hend, hupTo, hfrom, hpre, hqueue⟩ := putOnWire_sending n f q.val k pre
    (countM n f (modPort n (fun p => { p with queues := p.queues.set q (dropFree n s p.queues[q]) }) s))
  rw [countM_now] at hstart hend
  rw [hport] at hend
  refine ⟨x, hx, hbytes, hstart, hend, hupTo, hfrom, hpre, hqueue, ?_⟩
  rw [begin_, putOnWire, port_modPort, hport]
  simp

/-! ### The gate entry in force -/

/-- The hold an entry of the active list leaves at a port (R263, R276). -/
def holdAfter (p : LinePort) (w : Word) : Bool :=
  p.preemptActive && (match entryOp w with | 1 => true | 2 => false | _ => p.hold)

theorem gateChange_of_entry {n : PortNo} {s : State} {i : Nat} {left : Ns} (hen : (port n s).gateEn = true)
    (hnow : gateNow (port n s) s = some (i, left)) :
    let w := (listEntries (activeList (port n s))).getD i 0
    gateChange n s = preempt n (modPort n (fun x =>
      { x with gateEntry := BitVec.ofNat 6 i, gates := entryGates w, hold := holdAfter (port n s) w }) s) := by
  simp only [gateChange, hen, hnow]
  rfl

/-- Settles O28: `egress` with and without a choice, `gateChange` with gates and without. -/
theorem aPortStartsTheChosenFrame : Obligations.APortStartsTheChosenFrame := by
  intro n s
  have hready := readyPort_wiresKeep n s
  refine ⟨fun hfree hmay => ⟨fun q f k pre hc hwhole => ?_, fun hc => ⟨_, exec_egressStart n s, ?_⟩⟩,
    fun i left hen hnow => ⟨_, exec_gateEntryChange n s, ?_⟩, fun hoff => ?_⟩
  · have hkept := flowCheckAll_unsent (begin_ n (.head q f k pre) (readyPort n s))
    obtain ⟨x, hx, hbytes, hstart, hend, hupTo, hfrom, hpre, hqueue, hleft⟩ := begin_head n q f k pre (readyPort n s)
    rw [hready.now] at hstart hend
    rw [hready.speed, hwhole] at hend
    refine ⟨_, x, exec_egressStart n s, ?_⟩
    rw [egress_of_choice hfree hmay hc, hkept.at n LinePort.sending, hkept.at n LinePort.queues]
    exact ⟨hx, hbytes, hstart, hend, hupTo, hfrom.trans hwhole, hpre, hqueue, hleft⟩
  · rw [egress_of_nothing hfree hmay hc, (flowCheckAll_unsent _).at n LinePort.sending, hready.sending, hfree]
  · have hkept (t : State) : FramesMove t (preempt n t) := preempt_framesMove n t
    rw [gateChange_of_entry hen hnow, (hkept _).at n LinePort.gateEntry, (hkept _).at n LinePort.gates, (hkept _).at n LinePort.hold,
      port_modPort]
    refine ⟨rfl, rfl, fun hinactive => ?_, fun hrelease => ?_, fun hactive hset => ?_⟩
    · rw [holdAfter, hinactive, Bool.false_and]
    · simp only [holdAfter, hrelease, Bool.and_false]
    · simp only [holdAfter, hactive, hset, Bool.and_true]
  · rw [exec_gateEntryChange, gateChange, hoff]
    rfl

end Sys2Proof.Machine
end

section
/-! SUPPORT. Verify (R270, R273), received stops (R279), XOFF sent again (R280) and pause storms (R283) of a line port. Settles O29. -/
namespace Sys2Proof.Machine

theorem exec_verifyWaitExpiry (n : PortNo) (s : State) : exec (.verifyWaitExpiry n) s = .next (verifyWait n s) := rfl
theorem exec_laneVerifyRetry (n : PortNo) (s : State) : exec (.laneVerifyRetry n) s = .next (verifyAgain n s) := rfl
theorem exec_pauseExpiry (n : PortNo) (s : State) : exec (.pauseExpiry n) s = .next (expireStops n s) := rfl
theorem exec_xoffRepeat (n : PortNo) (s : State) : exec (.xoffRepeat n) s = .next (repeatXoff n s) := rfl
theorem exec_pauseStorm (n : PortNo) (s : State) : exec (.pauseStorm n) s = .next (stormBegins n s) := rfl
theorem exec_pauseStormEnd (n : PortNo) (s : State) : exec (.pauseStormEnd n) s = .next (stormEnds n s) := rfl

/-! ### Timers -/

theorem due_of_le {d : Ns} {s : State} (h : d ≤ s.now) : due (some d) s = true := decide_eq_true h

theorem not_due_of_lt {d : Ns} {s : State} (h : s.now < d) : due (some d) s = false := decide_eq_false (Nat.not_le.mpr h)

/-! ### Verify (R270, R273) -/

theorem sendVerify_out (n : PortNo) (k : Nat) (s : State) : (sendVerify n k s).out = s.out ++ [.verify n true] := rfl

theorem port_sendVerify (n : PortNo) (k : Nat) (s : State) : port n (sendVerify n k s)
    = { port n s with verify := .verifying, verifyTries := k, verifyDue := some (s.now + verifyTime n s) } := by
  rw [sendVerify, port_of_lp (emit_lp ..), port_modPort]

section
variable {n : PortNo} {s : State} {d : Ns}

theorem verifyWait_of_more (hverify : (port n s).verify = .verifying) (hdue : (port n s).verifyDue = some d) (hd : d ≤ s.now)
    (hmore : (port n s).verifyTries % 3 ≠ 0) : verifyWait n s = sendVerify n ((port n s).verifyTries + 1) s := by
  simp [verifyWait, hverify, hdue, due_of_le hd, hmore]

/-- A port whose verify has failed, with the time at which it is repeated on a lane. -/
def LinePort.verifyFailed (again : Option Ns) (p : LinePort) : LinePort := { p with verify := .failed, verifyDue := again }

/-- The third wait is over: the failure is counted and told, and a lane's span goes down. -/
theorem verifyWait_of_third (hverify : (port n s).verify = .verifying) (hdue : (port n s).verifyDue = some d) (hd : d ≤ s.now)
    (hthird : (port n s).verifyTries % 3 = 0) : ∃ again,
    let u := raise 0x3071 (d1 n.val) (bump n 0x4F4 (modPort n (LinePort.verifyFailed again) s))
    verifyWait n s = if laneMode n u then portSpanDown n u else u := by
  simp only [verifyWait, hverify, hdue, due_of_le hd, hthird]
  exact ⟨_, rfl⟩

theorem verifyWait_fails (hverify : (port n s).verify = .verifying) (hdue : (port n s).verifyDue = some d) (hd : d ≤ s.now)
    (hthird : (port n s).verifyTries % 3 = 0) : (port n (verifyWait n s)).verify = .failed
      ∧ portCount n 0x4F4 (verifyWait n s) = portCount n 0x4F4 s + 1 := by
  obtain ⟨again, heq⟩ := verifyWait_of_third hverify hdue hd hthird
  have hmoves : FramesMove (bump n 0x4F4 (modPort n (LinePort.verifyFailed again) s)) (verifyWait n s) := by
    rw [heq]
    exact (raise_framesMove _ _ _).trans (ite_portsKeep (portSpanDown_framesMove n _) (.refl _ _))
  have hcount := bump_uncounted n 0x4F4 (modPort n (LinePort.verifyFailed again) s)
  rw [portCount, hmoves.at n LinePort.verify, hmoves.at n LinePort.cnt, hcount.at n LinePort.verify, port_modPort]
  refine ⟨rfl, (portCount_addCount_same n 0x4F4 1 _).trans ?_⟩
  rw [portCount, port_modPort]
  rfl

theorem verifyAgain_of_due (hlink : (port n s).link = true) (hfailed : (port n s).verify = .failed) (hlane : laneMode n s = true)
    (hdue : (port n s).verifyDue = some d) (hd : d ≤ s.now) : verifyAgain n s = sendVerify n 4 s := by
  simp [verifyAgain, hlink, hfailed, hlane, hdue, due_of_le hd]
end

/-! ### Received stops (R279) -/

/-- The end of a pause leaves of a port all but the pause and its counters. -/
theorem endPause_uncounted (n : PortNo) (s : State) : PortsKeep LinePort.uncounted
    (modPort n (fun x => { x with rxPauseUntil := none, pauseFrom := none }) s) (endPause n s) := addCount_uncounted n _ _ _

theorem endPause_rxPauseUntil (n : PortNo) (s : State) : (port n (endPause n s)).rxPauseUntil = none := by
  rw [(endPause_uncounted n s).at n LinePort.rxPauseUntil, port_modPort]

theorem endPause_onlyChanges (n : PortNo) (s : State) : onlyChanges (.lp :: eventParts) s (endPause n s) :=
  onlyChanges_trans (onlyChanges_mono (modPort_onlyChanges_lp n _ s) (by simp)) (addCount_onlyChanges n _ _ _)

theorem endPause_hostSame (n : PortNo) (s : State) : hostSame s (endPause n s) :=
  hostSame_trans (modPort_hostSame n _ s) (addCount_hostSame n _ _ _)

/-- The 802.3x pause of a port ends once its quanta have passed. -/
def pauseExpired (n : PortNo) (s : State) : State := if due (port n s).rxPauseUntil s then endPause n s else s

theorem pauseExpired_rxPauseUntil (n : PortNo) (s : State) : (port n (pauseExpired n s)).rxPauseUntil
    = if due (port n s).rxPauseUntil s then none else (port n s).rxPauseUntil := by
  rw [pauseExpired]
  split
  · exact endPause_rxPauseUntil n s
  · rfl

/-- Beyond the pause only PFC stops end, and the beginnings of the queues' stops are noted. -/
theorem expireStops_spec (n : PortNo) (s : State) : PortsKeep LinePort.rxPauseUntil (pauseExpired n s) (expireStops n s)
    ∧ onlyChanges (.lp :: eventParts) s (expireStops n s) ∧ hostSame s (expireStops n s) := by
  have hport (g : LinePort → LinePort) (t : State) : onlyChanges (.lp :: eventParts) t (modPort n g t) :=
    onlyChanges_mono (modPort_onlyChanges_lp n g t) (by simp)
  obtain ⟨hparts, hhost⟩ : onlyChanges (.lp :: eventParts) s (pauseExpired n s) ∧ hostSame s (pauseExpired n s) := by
    rw [pauseExpired]
    split
    · exact ⟨endPause_onlyChanges n s, endPause_hostSame n s⟩
    · exact ⟨onlyChanges_refl _ s, hostSame_refl s⟩
  exact ⟨(modPort_portsKeep n _).trans (modPort_portsKeep n _),
    onlyChanges_trans hparts (onlyChanges_trans (hport _ _) (hport _ _)), hhost⟩

/-! ### XOFF sent again (R280) -/

/-- The bits of a sum of bits in their own places. -/
theorem testBit_sum_putBit (f : Nat → Bool) (k : Nat) :
    ((List.range k).map fun p => putBit p (f p)).sum < 2 ^ k
      ∧ ∀ i, i < k → ((List.range k).map fun p => putBit p (f p)).sum.testBit i = f i := by
  induction k with
  | zero => exact ⟨Nat.zero_lt_one, fun i hi => absurd hi (Nat.not_lt_zero i)⟩
  | succ k ih =>
    rw [List.range_succ, List.map_append, List.sum_append_nat, List.map_singleton, List.sum_singleton]
    generalize ((List.range k).map fun p => putBit p (f p)).sum = low at ih ⊢
    obtain ⟨hlt, hbits⟩ := ih
    have hpow : 2 ^ (k + 1) = 2 ^ k + 2 ^ k := Nat.two_pow_succ k
    cases hk : f k with
    | false =>
      refine ⟨Nat.lt_of_lt_of_le hlt (hpow ▸ Nat.le_add_right _ _), fun i hi => ?_⟩
      rcases Nat.lt_succ_iff_lt_or_eq.mp hi with h | rfl
      · exact hbits i h
      · exact (Nat.testBit_lt_two_pow hlt).trans hk.symm
    | true =>
      rw [putBit, if_pos rfl, Nat.add_comm]
      refine ⟨hpow ▸ Nat.add_lt_add_left hlt _, fun i hi => ?_⟩
      rcases Nat.lt_succ_iff_lt_or_eq.mp hi with h | rfl
      · rw [Nat.testBit_two_pow_add_gt h, hbits i h]
      · rw [Nat.testBit_two_pow_add_eq, Nat.testBit_lt_two_pow hlt, hk, Bool.not_false]

theorem bitOf_prioMask (f : Nat → Bool) (p : Fin 8) : bitOf (prioMask f) p.val = f p.val := by
  obtain ⟨-, hbits⟩ := testBit_sum_putBit f 8
  rw [← hbits p.val p.isLt, Nat.testBit_eq_decide_div_mod_eq]
  rfl

theorem prioMask_ne_zero {f : Nat → Bool} {p : Fin 8} (h : f p.val = true) : prioMask f ≠ 0 := by
  intro hzero
  have hbit := bitOf_prioMask f p
  rw [hzero, h] at hbit
  simp [bitOf] at hbit

theorem port_pfcOff (n : PortNo) (mask : Nat) (s : State) : ∃ b, port n (pfcOff n mask s)
    = { port n s with
        ctl := (port n s).ctl ++ [b], txXoff := (port n s).txXoff ||| BitVec.ofNat 8 mask,
        xoffRepeatAt := Vector.ofFn fun p => if inMask mask p then some (halfQuanta n s) else (port n s).xoffRepeatAt[p] } :=
  ⟨_, by rw [pfcOff, sendPfc, pushCtl, port_modPort, port_modPort]⟩

theorem port_pauseOff (n : PortNo) (s : State) : ∃ b, port n (pauseOff n s)
    = { port n s with ctl := (port n s).ctl ++ [b], txPauseXoff := true, pauseRepeatAt := some (halfQuanta n s) } :=
  ⟨_, by rw [pauseOff, sendPause, pushCtl, port_modPort, port_modPort]⟩

/-- The priorities above XON whose XOFF is due again. -/
def xoffDue (p : LinePort) (s : State) : Nat := prioMask fun i => p.txXoff.getLsbD i && due (p.xoffRepeatAt.toList.getD i none) s

/-- The port is checked, then their XOFF is sent again. -/
def pfcRepeated (n : PortNo) (s : State) : State :=
  let u := flowCheck n s
  if xoffDue (port n u) s = 0 then u else pfcOff n (xoffDue (port n u) s) u

theorem repeatXoff_eq (n : PortNo) (s : State) : repeatXoff n s =
    if (port n (flowCheck n s)).txPauseXoff && due (port n (flowCheck n s)).pauseRepeatAt s then pauseOff n (pfcRepeated n s)
    else pfcRepeated n s := rfl

theorem pfcRepeated_flowSent (n : PortNo) (s : State) : FlowSent n s (pfcRepeated n s) :=
  (flowCheck_flowSent n s).trans (ite_flowSent (.refl n _) (pfcOff_flowSent n _ _))

theorem repeatXoff_flowSent (n : PortNo) (s : State) : FlowSent n s (repeatXoff n s) := by
  rw [repeatXoff_eq]
  exact (pfcRepeated_flowSent n s).trans (ite_flowSent (pauseOff_flowSent n _) (.refl n _))

section
variable {n : PortNo} {s : State} {d : Ns}

theorem pfcRepeated_of_due {p : Fin 8} (hxoff : (port n (flowCheck n s)).txXoff.getLsbD p.val = true)
    (hdue : (port n (flowCheck n s)).xoffRepeatAt[p] = some d) (hd : d ≤ s.now) :
    (port n (pfcRepeated n s)).xoffRepeatAt[p] = some (halfQuanta n s)
      ∧ (port n s).ctl.length < (port n (pfcRepeated n s)).ctl.length := by
  have hchecked := flowCheck_flowSent n s
  have hp : ((port n (flowCheck n s)).txXoff.getLsbD p.val
      && due ((port n (flowCheck n s)).xoffRepeatAt.toList.getD p.val none) s) = true := by
    rw [Fin.getElem_fin] at hdue
    simp [hxoff, hdue, due_of_le hd]
  have hmask : xoffDue (port n (flowCheck n s)) s ≠ 0 := prioMask_ne_zero hp
  have hin : inMask (xoffDue (port n (flowCheck n s)) s) p = true := (bitOf_prioMask _ p).trans hp
  obtain ⟨b, hport⟩ := port_pfcOff n (xoffDue (port n (flowCheck n s)) s) (flowCheck n s)
  rw [pfcRepeated, if_neg hmask, hport, hchecked.halfQuanta, List.length_append]
  refine ⟨?_, Nat.lt_succ_of_le hchecked.ctl⟩
  simp [hin]

theorem repeatXoff_of_pfcDue {p : Fin 8} (hxoff : (port n (flowCheck n s)).txXoff.getLsbD p.val = true)
    (hdue : (port n (flowCheck n s)).xoffRepeatAt[p] = some d) (hd : d ≤ s.now) :
    (port n (repeatXoff n s)).xoffRepeatAt[p] = some (halfQuanta n s)
      ∧ (port n s).ctl.length < (port n (repeatXoff n s)).ctl.length := by
  obtain ⟨hrepeat, hctl⟩ := pfcRepeated_of_due hxoff hdue hd
  rw [repeatXoff_eq]
  split
  · obtain ⟨b, hport⟩ := port_pauseOff n (pfcRepeated n s)
    simp only [hport, hrepeat, List.length_append, true_and]
    exact Nat.lt_succ_of_lt hctl
  · exact ⟨hrepeat, hctl⟩

theorem repeatXoff_of_pauseDue (hxoff : (port n (flowCheck n s)).txPauseXoff = true)
    (hdue : (port n (flowCheck n s)).pauseRepeatAt = some d) (hd : d ≤ s.now) :
    (port n (repeatXoff n s)).pauseRepeatAt = some (halfQuanta n s)
      ∧ (port n s).ctl.length < (port n (repeatXoff n s)).ctl.length := by
  have hsent := pfcRepeated_flowSent n s
  obtain ⟨b, hport⟩ := port_pauseOff n (pfcRepeated n s)
  have heq : repeatXoff n s = pauseOff n (pfcRepeated n s) := by simp [repeatXoff_eq, hxoff, hdue, due_of_le hd]
  rw [heq, hport, hsent.halfQuanta, List.length_append]
  exact ⟨rfl, Nat.lt_succ_of_le hsent.ctl⟩

/-! ### Pause storms (R283) -/

/-- A port that honours no flow control until a time. -/
def LinePort.stormy (until_ : Ns) (p : LinePort) : LinePort :=
  { p with rxPfcUntil := Vector.replicate 8 none, stoppedSince := Vector.replicate 8 none, storm := true, stormUntil := some until_ }

/-- A queue stopped for 500 ms begins a storm: every stop ends, and the event tells of it. -/
theorem stormBegins_of_long {q : Fin 8} (hstopped : queueStopped n q.val s = true) (hsince : (port n s).stoppedSince[q] = some d)
    (hd : d + ms 500 ≤ s.now) : stormBegins n s
      = raise 0x3073 (d1 n.val) (modPort n (LinePort.stormy (s.now + sec 10)) (endPause n s)) := by
  have hlong : ((List.finRange 8).any fun (q : Fin 8) => queueStopped n q.val s
      && (match (port n s).stoppedSince[q] with | some t => decide (t + ms 500 ≤ s.now) | none => false)) = true := by
    refine List.any_eq_true.mpr ⟨q, List.mem_finRange q, ?_⟩
    simp [hstopped, hsince, hd]
  exact if_pos hlong

theorem stormEnds_of_due (hdue : (port n s).stormUntil = some d) (hd : d ≤ s.now) :
    stormEnds n s = modPort n (fun p => { p with stormUntil := none }) s := by
  simp [stormEnds, hdue, due_of_le hd]

theorem stormEnds_of_early (hdue : (port n s).stormUntil = some d) (hd : s.now < d) : stormEnds n s = s := by
  simp [stormEnds, hdue, not_due_of_lt hd]
end

/-- Settles O29: one clause for each command, from what its meaning does once its timer is due. -/
theorem verifyAndPauseTimers : Obligations.VerifyAndPauseTimers := by
  intro n s
  refine ⟨fun d hverify hdue hd => ⟨fun hmore => ⟨_, exec_verifyWaitExpiry n s, ?_⟩, fun hthird =>
      ⟨_, exec_verifyWaitExpiry n s, verifyWait_fails hverify hdue hd hthird⟩⟩,
    fun d hlink hfailed hlane hdue hd => ⟨_, exec_laneVerifyRetry n s, ?_⟩, fun d hpause => ⟨_, exec_pauseExpiry n s, ?_⟩,
    ⟨fun p d hxoff hdue hd => ⟨_, exec_xoffRepeat n s, ?_⟩, fun d hxoff hdue hd => ⟨_, exec_xoffRepeat n s, ?_⟩⟩,
    fun q d hstopped hsince hd => ⟨_, exec_pauseStorm n s, ?_⟩, fun d hstorm => ⟨fun hd => ?_, fun hd => ?_⟩⟩
  · rw [verifyWait_of_more hverify hdue hd hmore, sendVerify_out, port_sendVerify]
    exact ⟨rfl, rfl, rfl⟩
  · rw [verifyAgain_of_due hlink hfailed hlane hdue hd, sendVerify_out, port_sendVerify]
    exact ⟨rfl, rfl⟩
  · obtain ⟨hkept, hparts, hhost⟩ := expireStops_spec n s
    rw [hkept n, pauseExpired_rxPauseUntil, hpause]
    exact ⟨hparts, hhost, fun hd => if_pos (due_of_le hd), fun hd => if_neg (Bool.eq_false_iff.mp (not_due_of_lt hd))⟩
  · obtain ⟨hrepeat, hctl⟩ := repeatXoff_of_pfcDue hxoff hdue hd
    have hsent := repeatXoff_flowSent n s
    exact ⟨hrepeat, hsent.parts, hsent.host, hctl⟩
  · obtain ⟨hrepeat, hctl⟩ := repeatXoff_of_pauseDue hxoff hdue hd
    have hsent := repeatXoff_flowSent n s
    exact ⟨hrepeat, hsent.parts, hsent.host, hctl⟩
  · rw [stormBegins_of_long hstopped hsince hd, port_of_lp (raise_lp ..), port_modPort]
    exact ⟨rfl, rfl, endPause_rxPauseUntil n s, rfl⟩
  · rw [exec_pauseStormEnd, stormEnds_of_due hstorm hd]
  · rw [exec_pauseStormEnd, stormEnds_of_early hstorm hd]

end Sys2Proof.Machine
end

section
/-! SUPPORT. What leaves the VX-2 as it is: completions, frames and messages sent, responses, refreshes of Rolavo's ends, a renumbering
(R85, R91, R111, R119, R408, R421); of wake causes the coupling inputs (R538). -/
namespace Sys2Proof.Machine

variable (l : Link) (c : Nat) (e : End) (s : State)

/-- What has left the node stays among what an event lets leave. -/
theorem raise_out_subset (code : Half) (data : List Byte) (s : State) : s.out ⊆ (raise code data s).out := by
  have hsp (x : Ct) (it : MgmtItem) (u : State) : u.out ⊆ (offerSp x it u).out := by
    rw [offerSp]
    split
    · rw [spSend_eq]
      exact List.subset_append_left _ _
    · rw [modSp_out]
      exact List.Subset.refl _
  rw [raise, raiseRank]
  split
  · exact List.Subset.refl _
  · rw [record_out, deliverRank]
    calc s.out ⊆ (offerLink .h2 (eventItem 4 code data s) (offerLink .h1 (eventItem 4 code data s) s)).out := by
          simp only [offerLink_out, List.Subset.refl]
      _ ⊆ _ := hsp _ _ _
      _ ⊆ _ := hsp _ _ _

theorem foldl_vx {α : Type} {f : State → α → State} (hf : ∀ t x, (f t x).vx = t.vx) (xs : List α) (s : State) :
    (xs.foldl f s).vx = s.vx := by
  induction xs generalizing s with
  | nil => rfl
  | cons x xs ih => rw [List.foldl_cons, ih, hf]

/-- A choice leaves the VX-2 where both its branches do. -/
theorem ite_vx {p : Prop} [Decidable p] {a b : State} {v : VxUnit} (ha : a.vx = v) (hb : b.vx = v) :
    (if p then a else b).vx = v := by
  split
  · exact ha
  · exact hb

theorem vx_of_ledger {s t : State} (h : onlyChanges ledgerParts s t) : t.vx = s.vx := by
  obtain ⟨-, -, -, hparts⟩ := h
  exact hparts .vx (by simp [ledgerParts])

/-! ### Completions and waiting items -/

@[simp] theorem flushTx_vx : (flushTx l c s).vx = s.vx :=
  (foldl_vx (fun _ _ => modCq_vx ..) _ _).trans (modCtx_vx ..)

@[simp] theorem completeOrigin_vx (o : Option TxRef) (status : Nat) (f : TxPend → TxPend) :
    (completeOrigin o status f s).vx = s.vx := by
  cases o with
  | none => rfl
  | some r => simp [completeOrigin, completeTx]

@[simp] theorem rxReport_vx (it : RxItemDue) : (rxReport l c it s).vx = s.vx := ite_vx (modCq_vx ..) rfl

@[simp] theorem rxOffer_vx (it : RxItemDue) : (rxOffer c it s).vx = s.vx := by
  have hcounted (t : State) : (countGaps 1 t).vx = t.vx := rfl
  exact ite_vx (modCtx_vx ..) (ite_vx (ite_vx (by simp [hcounted]) (by simp)) (rxReport_vx ..))

/-! ### Frames and responses sent -/

@[simp] theorem flowChan_vx (f : NatFrame) (x : Chan) (stn : BitVec 7) : (flowChan f x stn s).2.vx = s.vx := by
  rw [flowChan]
  split <;> rfl

@[simp] theorem sendOnLane_vx (x : Lane) (f : NatFrame) (o : Option TxRef) (n : Option PortNo) :
    (sendOnLane x e f o n s).vx = s.vx := by
  rw [sendOnLane]
  split <;> rfl

@[simp] theorem launch_vx (r : Route) (f : NatFrame) (o : Option TxRef) (n : Option PortNo) : (launch r f o n s).vx = s.vx := by
  cases r with
  | self => rfl
  | lane e x =>
    refine ite_vx rfl ?_
    split
    · rfl
    · exact completeOrigin_vx ..
  | plc x stn => exact ite_vx (flowChan_vx ..) (flowChan_vx ..)
  | held => exact ite_vx rfl (completeOrigin_vx ..)
  | nowhere => exact completeOrigin_vx ..

/-- A node's own message goes over a lane, over the power line or nowhere. -/
@[simp] theorem sendNode_vx (dst : Key) (payload : List Byte) : (sendNode dst payload s).vx = s.vx := by
  have hplc (f : NatFrame) : (match plcTo dst s with
      | some (x, stn) => plcQueue x (plcNextHop x stn s) f none none s
      | none => s).vx = s.vx := by split <;> rfl
  rw [sendNode]
  split
  · exact hplc _
  · split
    · exact hplc _
    · exact ite_vx rfl (ite_vx (sendOnLane_vx ..) (ite_vx (sendOnLane_vx ..) (hplc _)))

@[simp] theorem respond_vx (p : MgmtPort) (tag op : Half) (status : Nat) (body : List Byte) :
    (respond p tag op status body s).vx = s.vx := by
  cases p <;> simp [respond, respondPart]

@[simp] theorem releaseHeld_vx : (releaseHeld s).vx = s.vx := by
  refine foldl_vx (fun t o => ?_) _ _
  split
  · rfl
  · exact ite_vx (completeOrigin_vx ..) (launch_vx ..)

/-! ### Rolavo's ends and renumberings -/

@[simp] theorem refreshEnd_vx : (refreshEnd e s).vx = s.vx := by
  have hconflict (p : Prop) [Decidable p] (code : Half) (data : List Byte) (g : EndState → EndState) (t : State) :
      (if p then raise code data (modEnd e g t) else t).vx = t.vx := ite_vx (by simp) rfl
  exact ite_vx (by simp [hconflict]) (by simp [hconflict])

@[simp] theorem sendRlv_vx (m : RlvMsg) : (sendRlv e m s).vx = s.vx := by
  have hlane (x : Lane) (f : NatFrame) (t : State) (p : Prop) [Decidable p] :
      (if p then sendOnLane x e f none none t else t).vx = t.vx := ite_vx (sendOnLane_vx ..) rfl
  exact ite_vx ((hlane .b _ _ _).trans (hlane .a _ s _)) rfl

@[simp] theorem sendTrigger_vx : (sendTrigger e s).vx = s.vx := ite_vx (sendRlv_vx ..) rfl

@[simp] theorem originateSweep_vx : (originateSweep s).vx = s.vx := by
  have hsend (x : End) : (originateSweep.send x s).vx = s.vx := sendRlv_vx ..
  rw [originateSweep]
  split
  · rfl
  · split
    · exact ite_vx rfl (hsend _)
    · exact hsend _

@[simp] theorem sendRenumber_vx : (sendRenumber s).vx = s.vx := by
  have hsent : (originateSweep (sendTrigger .e2 (sendTrigger .e1 s))).vx = s.vx := by simp
  exact ite_vx hsent hsent

@[simp] theorem staleOut_vx : (staleOut s).vx = s.vx := foldl_vx (fun t o => completeOrigin_vx t o _ _) _ _

@[simp] theorem toNative_vx (ran : Bool) : (toNative ran s).vx = s.vx := by
  refine ite_vx rfl (foldl_vx (fun t x => ?_) _ _)
  split
  · exact completeOrigin_vx ..
  · exact ite_vx rfl (ite_vx rfl rfl)

@[simp] theorem epochEvent_vx (changed : Bool) : (epochEvent changed s).vx = s.vx := by
  rw [epochEvent, vx_of_ledger (timeMark_onlyChanges ..), raiseRank_vx]

@[simp] theorem newMaster_vx (old : Key) : (newMaster old s).vx = s.vx := ite_vx rfl (raise_vx ..)

@[simp] theorem becomeAlone_vx : (becomeAlone s).vx = s.vx := by
  rw [becomeAlone, releaseHeld_vx, staleOut_vx, toNative_vx, newMaster_vx]
  exact ite_vx (epochEvent_vx ..) rfl

@[simp] theorem renumber_vx : (renumber s).vx = s.vx := by
  have halone : (goAlone s).vx = s.vx := ite_vx (becomeAlone_vx s) ((sendRenumber_vx _).trans (becomeAlone_vx s))
  exact ite_vx rfl (ite_vx (ite_vx rfl halone) (sendRenumber_vx s))

@[simp] theorem shrinkHold_vx (new : Option Hold) : (shrinkHold e new s).vx = s.vx := by
  unfold shrinkHold
  split <;> simp [sendHold, newMsg]

/-- A pair that reads inactive ends a hold; the pair itself is as it was (R91). -/
@[simp] theorem inactiveEndsHold_vx : (inactiveEndsHold e s).vx = s.vx := ite_vx (by simp) rfl

/-! ### A wake cause leaves the coupling inputs -/

@[simp] theorem assertWake_vx : (assertWake l s).vx = s.vx := by
  have hat (x : Endpoint) (t : State) : (assertWakeAt x t).vx = t.vx := ite_vx rfl (modEndpoint_vx ..)
  rw [assertWake, hat, hat]

@[simp] theorem gatherCause_vx (b : Nat) : (gatherCause b s).vx = s.vx := by simp [gatherCause]

@[simp] theorem leaveSettling_vx (k : Key) : (leaveSettling k s).vx = s.vx := ite_vx rfl (raise_vx ..)

@[simp] theorem localWake_vx : (localWake s).vx = s.vx := by simp [localWake, enterSettling]

@[simp] theorem noteOut1_vx (was : Bool) : (noteOut1 was s).vx = s.vx := ite_vx (raise_vx ..) rfl

@[simp] theorem out1Drive_vx (closed : Bool) : (out1Drive closed s).vx = { s.vx with out1Closed := closed } := noteOut1_vx ..

@[simp] theorem requestAwake_pairs : (requestAwake s).vx.pairs = s.vx.pairs := by
  rw [requestAwake, refreshOut1]
  split
  · simp
  · split <;> simp

@[simp] theorem trainWake_pairs (first : Nat) : (trainWake first s).vx.pairs = s.vx.pairs := by
  rw [trainWake, requestAwake_pairs]
  dsimp only
  split <;> simp

@[simp] theorem judgeWake_pairs (causes : Word) (first : Nat) : (judgeWake causes first s).vx.pairs = s.vx.pairs := by
  rw [judgeWake]
  split
  · rfl
  · split
    · simp
    · split <;> simp

@[simp] theorem tryRise_pairs : (tryRise s).vx.pairs = s.vx.pairs := by
  rw [tryRise]
  split
  · simp [beginRise, plcHoldEnds]
  · split
    · rfl
    · split <;> simp

@[simp] theorem requestOn_pairs : (requestOn s).vx.pairs = s.vx.pairs := by
  unfold requestOn
  split
  · simp
  · rfl
  · split <;> rfl
  · rfl

@[simp] theorem raiseCause_pairs (b : Nat) : (raiseCause b s).vx.pairs = s.vx.pairs := by
  unfold raiseCause
  split
  · dsimp only
    split
    · split <;> simp
    · split <;> simp
  · simp
  · split <;> simp
  · split <;> simp
  · rfl

end Sys2Proof.Machine
end

section
/-! SUPPORT. The CAN channels of the VX-2 (R346 to R363): what each operation on a channel sets and keeps, and that what the channel sets off on
the host's side leaves it alone. Settles O35 and O36. -/
namespace Sys2Proof.Machine

theorem exec_canDescriptorLoad (ch : Chan) (stores : List Host.Cell) (s : State) : exec (.canDescriptorLoad ch stores) s
    = execCanDescriptorLoad ch stores s := rfl
theorem exec_canFrameSent (ch : Chan) (ago : Ns) (s : State) : exec (.canFrameSent ch ago) s = .next (canSent ch ago s) := rfl
theorem exec_canTxTimeout (ch : Chan) (i : Fin 3) (s : State) : exec (.canTxTimeout ch i) s = .next (canTimeout ch i s) := rfl
theorem exec_canFrameReceived (ch : Chan) (r : CanRx) (stores : List Host.Cell) (s : State) :
    exec (.canFrameReceived ch r stores) s = .next (canReceived ch r stores s) := rfl
theorem exec_canBusError (ch : Chan) (a b : Nat) (s : State) : exec (.canBusError ch a b) s = .next (canError ch a b s) := rfl
theorem exec_canBusoffRecovered (ch : Chan) (s : State) : exec (.canBusoffRecovered ch) s = .next (canRecovered ch s) := rfl
theorem exec_vxCanRecover (r : Req) (s : State) : exec (.vxCanRecover r) s = .next (canRecover r s) := rfl
theorem exec_canBusDominant (ch : Chan) (s : State) : exec (.canBusDominant ch) s = .next (canDominant ch s) := rfl
theorem exec_canBusFaultClear (ch : Chan) (s : State) :
    exec (.canBusFaultClear ch) s = .next (modCan ch (fun c => { c with busFault := false }) s) := rfl

/-! ### Reading a channel, a ring and a memory -/

/-- A channel is as before where the VX-2 is. -/
theorem can_of_vx {s t : State} (h : t.vx = s.vx) (ch : Chan) : can ch t = can ch s := by simp only [can, h]

@[simp] theorem can_raise (ch : Chan) (code : Half) (data : List Byte) (s : State) : can ch (raise code data s) = can ch s :=
  can_of_vx (raise_vx ..) ch

@[simp] theorem can_completeOrigin (ch : Chan) (o : Option TxRef) (status : Nat) (f : TxPend → TxPend) (s : State) :
    can ch (completeOrigin o status f s) = can ch s := can_of_vx (completeOrigin_vx ..) ch

@[simp] theorem can_hostStores (ch : Chan) (l : Link) (st : List Host.Cell) (s : State) :
    can ch (hostStores l st s) = can ch s := can_of_vx (modLink_vx ..) ch

@[simp] theorem can_writeHost (ch : Chan) (l : Link) (a : Dword) (bs : List Byte) (s : State) :
    can ch (writeHost l a bs s) = can ch s := can_of_vx (modLink_vx ..) ch

theorem writeHost_hmem (l : Link) (a : Dword) (bs : List Byte) (s : State) :
    (hlink l (writeHost l a bs s)).hmem = memStore hostFill (hlink l s).hmem a.toNat bs := by
  simp only [writeHost, hlink_modLink]

@[simp] theorem ctx_modCtx (l : Link) (c : Nat) (g : Ctx → Ctx) (s : State) : ctx l c (modCtx l c g s) = g (ctx l c s) := by
  by_cases hc : c = 0
  · simp [ctx, modCtx, hc]
  · simp [ctx, modCtx, hc, Tab.getD_put_same]

theorem hlink_of_hif {s t : State} (h : t.hif = s.hif) (l : Link) : hlink l t = hlink l s := by cases l <;> simp only [hlink, h]

@[simp] theorem hlink_modCan (l : Link) (ch : Chan) (g : CanChan → CanChan) (s : State) :
    hlink l (modCan ch g s) = hlink l s := hlink_of_hif (modCan_hif ..) l

@[simp] theorem ctx_modCan (l : Link) (c : Nat) (ch : Chan) (g : CanChan → CanChan) (s : State) :
    ctx l c (modCan ch g s) = ctx l c s := by simp [ctx]

/-! ### A descriptor is loaded (R346 to R349) -/

section
variable {l : Link} {n : Nat} {ch : Chan} {s : State} {b : TxBuffer}

/-- The descriptor a channel's ring is to fetch next. -/
def nextSend (l : Link) (n : Nat) (s : State) : SendDesc := sendDesc (ringEntry l n .tx (ctx l n s).txFetch s)

/-- A channel that is on, does not listen and may fetch finds a well-formed record at its ring's fetch position, and a free buffer. -/
structure CanMayLoad (l : Link) (n : Nat) (ch : Chan) (b : TxBuffer) (i : Fin 3) (s : State) : Prop where
  fetches : canFetches ch s = true
  record : canRecord (canFd (can ch s)) (readHost l (nextSend l n s).buf (nextSend l n s).len s)
    ⟨l, n, (ctx l n s).txFetch⟩ s = some b
  bare : (nextSend l n s).bareOk = true
  on : canEn (can ch s) = true
  sends : canListen (can ch s) = false
  free : canFree (can ch s) = some i

/-- An identifier that waits in a buffer holds its ring up (R348). -/
theorem canLoad_of_sameId {i : Fin 3} (h : CanMayLoad l n ch b i s) (hid : canSameId (can ch s) b = true) :
    canLoad l n ch s = s := by
  obtain ⟨hfetches, hrecord, hbare, hon, hsends, hfree⟩ := h
  rw [nextSend] at hrecord hbare
  simp [canLoad, hfetches, hrecord, hbare, hon, hsends, hfree, hid]

/-- A frame of another identifier goes into the free buffer and its descriptor is pending (R348, R349). -/
theorem canLoad_of_newId {i : Fin 3} (h : CanMayLoad l n ch b i s) (hid : canSameId (can ch s) b = false) :
    ∃ t : TxPend, canLoad l n ch s
      = modCan ch (fun y => { y with bufs := y.bufs.set i (some b), nextLoad := canNext i }) (pushPend l n t s) := by
  obtain ⟨hfetches, hrecord, hbare, hon, hsends, hfree⟩ := h
  rw [nextSend] at hrecord hbare
  simp only [canLoad, hfetches, hrecord, hbare, hon, hsends, hfree, hid, Bool.not_true, Bool.or_false, Bool.false_eq_true,
    if_false]
  exact ⟨_, rfl⟩

theorem pushPend_hostSame (l : Link) (n : Nat) (t : TxPend) (s : State) : hostSame s (pushPend l n t s) :=
  hostSame_of_hmem fun _ => modCtx_hmem ..

theorem modCan_hostSame (ch : Chan) (g : CanChan → CanChan) (s : State) : hostSame s (modCan ch g s) :=
  hostSame_of_hmem fun _ => by rw [hlink_modCan]

/-- The command for a channel's ring loads where that ring may be fetched. -/
theorem execCanDescriptorLoad_of_allowed {stores : List Host.Cell} (hn : (can ch s).cqp.toNat ≠ 0)
    (hbound : canOf (can ch s).cqp.toNat (hostStores (ownerOf (can ch s).cqp.toNat s) stores s) = some ch)
    (hallowed : fetchAllowed (ownerOf (can ch s).cqp.toNat s) (can ch s).cqp.toNat
      (hostStores (ownerOf (can ch s).cqp.toNat s) stores s) = true) :
    execCanDescriptorLoad ch stores s = .next (canLoad (ownerOf (can ch s).cqp.toNat s) (can ch s).cqp.toNat ch
      (hostStores (ownerOf (can ch s).cqp.toNat s) stores s)) := by
  simp [execCanDescriptorLoad, hn, hbound, hallowed]
end

/-! ### The error state and the buffers (R361, R351, R352) -/

/-- A change of a channel counts only at the channel as it is. -/
theorem modCan_congr {ch : Chan} {f g : CanChan → CanChan} {s : State} (h : f (can ch s) = g (can ch s)) :
    modCan ch f s = modCan ch g s := by
  by_cases hc : ch = 0
  · simp only [modCan, can, hc, if_true] at h ⊢
    rw [h]
  · simp only [modCan, can, hc, if_false] at h ⊢
    rw [h]

/-- A channel in the error state that its counters give, and `k` passive entries more (R361). -/
def CanChan.judge (k : Word) (c : CanChan) : CanChan :=
  { c with st := if 128 ≤ c.tec ∨ 128 ≤ c.recCnt then .errPassive else .errActive, cntErrPassive := c.cntErrPassive + k }

/-- The judgement of the counters changes the channel, and may raise an event (R361). -/
theorem canJudge_cases (ch : Chan) (s : State) : ∃ k, canJudge ch s = modCan ch (CanChan.judge k) s
    ∨ ∃ code data, canJudge ch s = raise code data (modCan ch (CanChan.judge k) s) := by
  simp only [canJudge]
  split
  · next hentered =>
    have hpassive : 128 ≤ (can ch s).tec ∨ 128 ≤ (can ch s).recCnt := by simpa using (Bool.and_eq_true_iff.mp hentered).1
    exact ⟨1, .inr ⟨_, _, congrArg (raise _ _) (modCan_congr (by simp [CanChan.judge, hpassive]))⟩⟩
  · split
    · next hleft =>
      have hactive : ¬(128 ≤ (can ch s).tec ∨ 128 ≤ (can ch s).recCnt) := by simpa using (Bool.and_eq_true_iff.mp hleft).1
      exact ⟨0, .inr ⟨_, _, congrArg (raise _ _) (modCan_congr (by simp [CanChan.judge, hactive]))⟩⟩
    · exact ⟨0, .inl (modCan_congr (by simp [CanChan.judge]))⟩

theorem can_canJudge (ch : Chan) (s : State) : ∃ k, can ch (canJudge ch s) = (can ch s).judge k := by
  obtain ⟨k, h | ⟨code, data, h⟩⟩ := canJudge_cases ch s
  · exact ⟨k, by rw [h, can_modCan]⟩
  · exact ⟨k, by rw [h, can_raise, can_modCan]⟩

theorem canJudge_out_subset (ch : Chan) (s : State) : s.out ⊆ (canJudge ch s).out := by
  obtain ⟨k, h | ⟨code, data, h⟩⟩ := canJudge_cases ch s
  · rw [h, modCan_out]
    exact List.Subset.refl _
  · rw [h, ← modCan_out (c := ch) (s := s) (g := CanChan.judge k)]
    exact raise_out_subset ..

/-- A buffer left empty. -/
def CanChan.emptied (i : Fin 3) (c : CanChan) : CanChan := { c with bufs := c.bufs.set i none }

theorem emptied_bufs (i : Fin 3) (c : CanChan) : (c.emptied i).bufs[i] = none := by simp [CanChan.emptied]

@[simp] theorem can_canDone (ch : Chan) (i : Fin 3) (b : TxBuffer) (status : Nat) (f : TxPend → TxPend) (s : State) :
    can ch (canDone ch i b status f s) = (can ch s).emptied i := by
  rw [canDone, can_completeOrigin, can_modCan]
  rfl

/-- An event of limited spacing and the note of its time leave what does not look at the notes. -/
theorem raiseSpaced_keeps {α : Type} {view : CanChan → α} {g : CanChan → CanChan} (last : Option Ns) (d : Ns) (ch : Chan)
    (code : Half) (data : List Byte) (s : State) (hg : ∀ c, view (g c) = view c := by intro; rfl) :
    view (can ch (raiseSpaced last d (modCan ch g) code data s)) = view (can ch s) := by
  obtain h | h := raiseSpaced_cases last d (modCan ch g) code data s
  · rw [h]
  · rw [h, can_raise, can_modCan, hg]

section
variable {ch : Chan} {ago : Ns} {i : Fin 3} {b : TxBuffer} {s : State}

/-- The channel after a frame of a buffer has been sent, before its error state is judged (R352). -/
def CanChan.sent (i : Fin 3) (c : CanChan) : CanChan :=
  { c.emptied i with cntTx := c.cntTx + 1, tec := c.tec - 1, nextOffer := canNext i }

/-- The frame offered at its start of frame leaves (R352). -/
theorem canSent_of_offered (hsends : canSends ch s = true) (hoffered : canOffered (can ch s) (s.now - ago) = some (i, b)) :
    ∃ u, canSent ch ago s = canJudge ch (emit (.can ch b.id b.ide b.remote b.fd b.brs b.dlc b.data) u)
      ∧ can ch u = (can ch s).sent i := by
  refine ⟨modCan ch (fun c => { c with cntTx := c.cntTx + 1, tec := c.tec - 1, nextOffer := canNext i })
    (canDone ch i b stOk (fun t => { t with time := trainTime s - BitVec.ofNat 64 ago }) s), ?_, ?_⟩
  · simp [canSent, hsends, hoffered]
  · rw [can_modCan, can_canDone]
    rfl

/-- The buffers and the count of those given up (R351). -/
def CanChan.givenUp (c : CanChan) : Vector (Option TxBuffer) 3 × Word := (c.bufs, c.cntTxto)

/-- A frame that has waited for VX_CANn_TXTO is removed (R351). -/
theorem canTimeout_of_overdue (hbuf : (can ch s).bufs[i] = some b) (hon : (can ch s).txto ≠ 0)
    (hdue : b.loadedAt + (can ch s).txto.toNat * 1000000 ≤ s.now) :
    (can ch (canTimeout ch i s)).givenUp = (((can ch s).emptied i).bufs, (can ch s).cntTxto + 1) := by
  have hlate : ((can ch s).txto == 0 || decide (s.now < b.loadedAt + ms (can ch s).txto.toNat)) = false :=
    Bool.or_eq_false_iff.mpr ⟨beq_false_of_ne hon, decide_eq_false (Nat.not_lt.mpr hdue)⟩
  simp only [canTimeout, hbuf, hlate, Bool.false_eq_true, if_false]
  rw [raiseSpaced_keeps (view := CanChan.givenUp), can_modCan, can_canDone]
  rfl

theorem canTimeout_of_early (hbuf : (can ch s).bufs[i] = some b)
    (h : (can ch s).txto = 0 ∨ s.now < b.loadedAt + (can ch s).txto.toNat * 1000000) : canTimeout ch i s = s := by
  have hearly : ((can ch s).txto == 0 || decide (s.now < b.loadedAt + ms (can ch s).txto.toNat)) = true :=
    Bool.or_eq_true_iff.mpr (h.imp beq_iff_eq.mpr decide_eq_true)
  simp only [canTimeout, hbuf, hearly, if_true]
end

/-! ### O35 -/

/-- Settles O35: what loading, an end of frame and an overdue frame make of the channel and of its ring. -/
theorem canFramesLoadAndLeave : Obligations.CanFramesLoadAndLeave := by
  refine fun ch s => ⟨fun stores b i hn hbound hallowed hrecord hbare hon hsends hfetches hfree => ?_,
    fun ago i b hsends hoffered => ⟨_, exec_canFrameSent ch ago s, ?_⟩,
    fun i b hbuf => ⟨fun hon hdue => ⟨_, exec_canTxTimeout ch i s, ?_⟩, fun hstays => ?_⟩⟩
  · rw [exec_canDescriptorLoad, execCanDescriptorLoad_of_allowed hn hbound hallowed]
    have hmay : CanMayLoad _ _ ch b i _ := ⟨hfetches, hrecord, hbare, hon, hsends, hfree⟩
    refine ⟨fun hid => ⟨_, rfl, ?_⟩, fun hid => by rw [canLoad_of_sameId hmay hid]⟩
    obtain ⟨t, hload⟩ := canLoad_of_newId hmay hid
    rw [hload, can_modCan, ctx_modCan, pushPend, ctx_modCtx]
    exact ⟨by simp, rfl, by simp, hostSame_trans (pushPend_hostSame _ _ t _) (modCan_hostSame ch _ _)⟩
  · obtain ⟨u, hsent, hchan⟩ := canSent_of_offered hsends hoffered
    obtain ⟨k, hjudged⟩ := can_canJudge ch (emit (.can ch b.id b.ide b.remote b.fd b.brs b.dlc b.data) u)
    rw [hsent, hjudged, can_of_vx (emit_vx ..) ch, hchan]
    exact ⟨emptied_bufs i _, rfl, rfl, canJudge_out_subset ch _ (by simp)⟩
  · have hgone := canTimeout_of_overdue hbuf hon hdue
    exact ⟨(congrArg (fun v => v.1[i]) hgone).trans (emptied_bufs i _), congrArg Prod.snd hgone⟩
  · rw [exec_canTxTimeout, canTimeout_of_early hbuf hstays]

/-! ### What a channel finds of its host -/

/-- A channel reaches the same host as before: the owners of the CQPs, the links' DMA and the hosts' memories. -/
structure HostKept (s t : State) : Prop where
  owner : ∀ c, ownerOf c t = ownerOf c s
  dma : ∀ l, dmaOk l t = dmaOk l s
  hmem : ∀ l, (hlink l t).hmem = (hlink l s).hmem

theorem HostKept.trans {s t u : State} (h : HostKept s t) (k : HostKept t u) : HostKept s u :=
  ⟨fun c => (k.owner c).trans (h.owner c), fun l => (k.dma l).trans (h.dma l), fun l => (k.hmem l).trans (h.hmem l)⟩

/-- Where the links' endpoints and the active controller are the same, so is the reach of DMA. -/
theorem dmaOk_congr {s t : State} (hact : activeCt t = activeCt s) (hep : ∀ e, endpoint e t = endpoint e s) (l : Link) :
    dmaOk l t = dmaOk l s := by
  simp only [dmaOk, activeEp, hact, hep]

theorem raise_hostKept (code : Half) (data : List Byte) (s : State) : HostKept s (raise code data s) := by
  refine ⟨fun c => by simp [ownerOf], dmaOk_congr (by simp [activeCt]) fun e => ?_, fun l => raise_hmem ..⟩
  obtain ⟨l, t⟩ := e
  cases l <;> cases t <;> simp [endpoint]

theorem modCan_hostKept (ch : Chan) (g : CanChan → CanChan) (s : State) : HostKept s (modCan ch g s) := by
  refine ⟨fun c => by simp [ownerOf], dmaOk_congr (by simp [activeCt]) fun e => ?_, fun l => by rw [hlink_modCan]⟩
  obtain ⟨l, t⟩ := e
  cases l <;> cases t <;> simp [endpoint]

theorem canJudge_hostKept (ch : Chan) (s : State) : HostKept s (canJudge ch s) := by
  obtain ⟨k, h | ⟨code, data, h⟩⟩ := canJudge_cases ch s
  · rw [h]
    exact modCan_hostKept ..
  · rw [h]
    exact (modCan_hostKept ..).trans (raise_hostKept ..)

/-! ### Vectors -/

section
variable (l : Link) (n : CqNo) (v : Nat) (s : State)

@[simp] theorem raiseVec_vx : (raiseVec l v s).vx = s.vx := ite_vx rfl (ite_vx (modEndpoint_vx ..) rfl)

@[simp] theorem raiseVec_hmem (x : Link) : (hlink x (raiseVec l v s)).hmem = (hlink x s).hmem := by
  rw [raiseVec, raiseVecAt]
  split
  · rfl
  · split
    · rw [hlink_modEndpoint]
    · rfl

@[simp] theorem modCq_hlink (x : Link) (g : CqState → CqState) : hlink x (modCq n g s) = hlink x s := by cases x <;> rfl

theorem cqNote_vx (urgent : Bool) : (cqNote n urgent s).vx = s.vx := ite_vx (raiseVec_vx ..) rfl

theorem cqNote_hmem (urgent : Bool) (x : Link) : (hlink x (cqNote n urgent s)).hmem = (hlink x s).hmem := by
  rw [cqNote]
  split
  · simp [cqFire]
  · simp

@[simp] theorem mailboxVec_vx : (mailboxVec l v s).vx = s.vx := by
  rw [mailboxVec]
  split
  · exact cqNote_vx ..
  · exact raiseVec_vx ..

@[simp] theorem mailboxVec_hmem (x : Link) : (hlink x (mailboxVec l v s)).hmem = (hlink x s).hmem := by
  rw [mailboxVec]
  split
  · exact cqNote_hmem ..
  · exact raiseVec_hmem ..
end

/-! ### A frame received (R354 to R359) -/

section
variable (ch : Chan) (r : CanRx) (filter : Nat) (time : Dword) (s : State)

/-- REC after a frame received well: one less, or from above 127 a free value from 119 to 127 (ISO 11898-1). -/
def recFalls : State :=
  if 127 < (can ch s).recCnt then canJudge ch (modCan ch (fun c => { c with recCnt := 119 + (drawFree s).1 % 9 }) (drawFree s).2)
  else canJudge ch (modCan ch (fun c => { c with recCnt := c.recCnt - 1 }) s)

/-- A channel but for REC, its error state and the count of its passive entries. -/
def CanChan.unrecovered (c : CanChan) : CanChan := { c with recCnt := 0, st := .stopped, cntErrPassive := 0 }

theorem canJudge_unrecovered : (can ch (canJudge ch s)).unrecovered = (can ch s).unrecovered := by
  obtain ⟨k, h⟩ := can_canJudge ch s
  rw [h]
  rfl

theorem recFalls_unrecovered : (can ch (recFalls ch s)).unrecovered = (can ch s).unrecovered := by
  rw [recFalls]
  split
  · rw [canJudge_unrecovered, can_modCan, can_of_vx (drawFree_vx s)]
    rfl
  · rw [canJudge_unrecovered, can_modCan]
    rfl

theorem recFalls_hostKept : HostKept s (recFalls ch s) := by
  have hdrawn : HostKept s (drawFree s).2 := ⟨fun _ => rfl, fun _ => rfl, fun _ => rfl⟩
  rw [recFalls]
  split
  · exact hdrawn.trans ((modCan_hostKept ..).trans (canJudge_hostKept ..))
  · exact (modCan_hostKept ..).trans (canJudge_hostKept ..)

/-- A channel on which a frame has come in at a time. -/
def CanChan.heard (now : Ns) (c : CanChan) : CanChan := { c with lastRx := some now }

/-- A channel that has accepted a frame. -/
def CanChan.accepted (c : CanChan) : CanChan := { c with cntRx := c.cntRx + 1 }

/-- What a reception counts: the frames accepted, and when a frame last came in. -/
def CanChan.received (c : CanChan) : Word × Option Ns := (c.cntRx, c.lastRx)

theorem canToRing_received (record : List Byte) : (can ch (canToRing ch record time s)).received = (can ch s).received := by
  simp only [canToRing]
  split
  · rw [raiseSpaced_keeps (view := CanChan.received), can_modCan]
    rfl
  · rw [can_of_vx (rxOffer_vx ..)]

theorem canToMailbox_received : (can ch (canToMailbox ch r filter time s)).received = (can ch s).received := by
  simp only [canToMailbox]
  split
  · exact canToRing_received ..
  · split
    · rw [can_of_vx (mailboxVec_vx ..), can_modCan, can_writeHost]
      rfl
    · rw [canToRing_received, raiseSpaced_keeps (view := CanChan.received), can_modCan]
      rfl

/-- A mailbox entry (Table 8.3). -/
def mbxEntry (record : List Byte) (seq : Word) : List Byte :=
  record ++ List.replicate (80 - record.length) 0 ++ toLE 4 seq.toNat ++ List.replicate 40 0 ++ toLE 4 1

end

section
variable {ch : Chan} {r : CanRx} {filter : Nat} {time : Dword} {s : State}

/-- A free mailbox entry takes a high-priority frame, and the mailbox moves on (R357). -/
theorem canToMailbox_of_free (hon : flagOf (can ch s).mbxCtrl 31 = true) (hdma : dmaOk (ownerOf (can ch s).cqp.toNat s) s = true)
    (hempty : readHost32 (ownerOf (can ch s).cqp.toNat s) (mbxAddr (can ch s) (can ch s).mbxPos + 124) s = 0) :
    (can ch (canToMailbox ch r filter time s)).mbxPos = ((can ch s).mbxPos + 1) % 16
    ∧ (can ch (canToMailbox ch r filter time s)).mbxSeq = (can ch s).mbxSeq + 1
    ∧ (hlink (ownerOf (can ch s).cqp.toNat s) (canToMailbox ch r filter time s)).hmem
      = memStore hostFill (hlink (ownerOf (can ch s).cqp.toNat s) s).hmem (mbxAddr (can ch s) (can ch s).mbxPos).toNat
          (mbxEntry (canRxRecord r filter false time.toNat) (can ch s).mbxSeq) := by
  simp only [canToMailbox, hon, hdma, hempty, Bool.not_true, Bool.or_self, Bool.false_eq_true, if_false, beq_self_eq_true, if_true]
  rw [can_of_vx (mailboxVec_vx ..), can_modCan, can_writeHost, mailboxVec_hmem, hlink_modCan, writeHost_hmem]
  exact ⟨rfl, rfl, rfl⟩

/-- Where a frame heard on a channel goes by its filter (R355). -/
def canRouted (ch : Chan) (r : CanRx) (time : Dword) (u : State) : State :=
  match canFilterOf (can ch u) r with
  | none => u
  | some (k, hp) =>
    if hp then canToMailbox ch r k time (modCan ch CanChan.accepted u)
    else canToRing ch (canRxRecord r k false time.toNat) time (modCan ch CanChan.accepted u)

/-- The channel when a frame has been heard: the host's stores are visible, REC has fallen, the time is noted. -/
def canHears (ch : Chan) (stores : List Host.Cell) (s : State) : State :=
  modCan ch (CanChan.heard s.now) (recFalls ch (hostStores (ownerOf (can ch s).cqp.toNat s) stores s))

/-- A frame that an active channel may take is heard, and its filter decides (R354 to R357). -/
theorem canReceived_of_active {stores : List Host.Cell} (hst : canState ch s = .errActive) (hbus : (can ch s).busFault = false)
    (hfd : r.fdf = true → canFd (can ch s) = true) :
    canReceived ch r stores s = canRouted ch r (trainTime s - BitVec.ofNat 64 r.sofAgo) (canHears ch stores s) := by
  have htakes : (r.fdf && !canFd (can ch s)) = false := by cases h : r.fdf <;> simp [h, hfd]
  simp only [canReceived, hst, hbus, htakes]
  rfl

/-- Hearing a frame leaves what looks neither at the counters of errors nor at the time. -/
theorem canHears_keeps {α : Type} {stores : List Host.Cell} (view : CanChan → α)
    (hview : ∀ c, view c.unrecovered = view c := by intro; rfl)
    (hheard : ∀ c now, view (CanChan.heard now c) = view c := by intros; rfl) :
    view (can ch (canHears ch stores s)) = view (can ch s) := by
  rw [canHears, can_modCan, hheard, ← hview, recFalls_unrecovered, hview, can_hostStores]

theorem canHears_lastRx {stores : List Host.Cell} : (can ch (canHears ch stores s)).lastRx = some s.now := by
  rw [canHears, can_modCan]
  rfl

theorem canHears_hostKept {stores : List Host.Cell} :
    HostKept (hostStores (ownerOf (can ch s).cqp.toNat s) stores s) (canHears ch stores s) :=
  (recFalls_hostKept ..).trans (modCan_hostKept ..)

/-- A frame is counted where a filter or ACC_ALL accepts it (Table 8.8). -/
theorem canRouted_received : (can ch (canRouted ch r time s)).received
    = ((can ch s).cntRx + (if (canFilterOf (can ch s) r).isSome then 1 else 0), (can ch s).lastRx) := by
  rw [canRouted]
  split
  · next hnone => simp [hnone, CanChan.received]
  · next k hp hsome =>
    have haccepted : (can ch (modCan ch CanChan.accepted s)).received = ((can ch s).cntRx + 1, (can ch s).lastRx) := by
      rw [can_modCan]
      rfl
    rw [hsome, Option.isSome_some, if_pos rfl, ← haccepted]
    split
    · exact canToMailbox_received ..
    · exact canToRing_received ..

theorem canRouted_of_highPriority {k : Nat} (h : canFilterOf (can ch s) r = some (k, true)) :
    canRouted ch r time s = canToMailbox ch r k time (modCan ch CanChan.accepted s) := by
  simp only [canRouted, h, if_true]

/-- The channel when a frame it has heard is accepted. -/
def canAccepts (ch : Chan) (stores : List Host.Cell) (s : State) : State := modCan ch CanChan.accepted (canHears ch stores s)

/-- Accepting a frame leaves what does not look at its count either. -/
theorem canAccepts_keeps {α : Type} {stores : List Host.Cell} (view : CanChan → α)
    (hview : ∀ c, view c.unrecovered = view c := by intro; rfl)
    (hheard : ∀ c now, view (CanChan.heard now c) = view c := by intros; rfl)
    (haccepted : ∀ c, view c.accepted = view c := by intro; rfl) :
    view (can ch (canAccepts ch stores s)) = view (can ch s) := by
  rw [canAccepts, can_modCan, haccepted, canHears_keeps view hview hheard]

theorem canAccepts_hostKept {stores : List Host.Cell} :
    HostKept (hostStores (ownerOf (can ch s).cqp.toNat s) stores s) (canAccepts ch stores s) :=
  canHears_hostKept.trans (modCan_hostKept ..)

/-- A high-priority frame heard while the next mailbox entry is free is stored there (R356, R357). -/
theorem canReceived_stores {stores : List Host.Cell} {k : Nat} (hfilter : canFilterOf (can ch s) r = some (k, true))
    (hon : flagOf (can ch s).mbxCtrl 31 = true)
    (hdma : dmaOk (ownerOf (can ch s).cqp.toNat s) (hostStores (ownerOf (can ch s).cqp.toNat s) stores s) = true)
    (hempty : readHost32 (ownerOf (can ch s).cqp.toNat s) (mbxAddr (can ch s) (can ch s).mbxPos + 124)
      (hostStores (ownerOf (can ch s).cqp.toNat s) stores s) = 0) :
    (can ch (canRouted ch r time (canHears ch stores s))).mbxPos = ((can ch s).mbxPos + 1) % 16
    ∧ (can ch (canRouted ch r time (canHears ch stores s))).mbxSeq = (can ch s).mbxSeq + 1
    ∧ (hlink (ownerOf (can ch s).cqp.toNat s) (canRouted ch r time (canHears ch stores s))).hmem
      = memStore hostFill (hlink (ownerOf (can ch s).cqp.toNat s) (hostStores (ownerOf (can ch s).cqp.toNat s) stores s)).hmem
          (mbxAddr (can ch s) (can ch s).mbxPos).toNat (mbxEntry (canRxRecord r k false time.toNat) (can ch s).mbxSeq) := by
  have hkept : HostKept _ (canAccepts ch stores s) := canAccepts_hostKept
  have howner : ownerOf (can ch (canAccepts ch stores s)).cqp.toNat (canAccepts ch stores s) = ownerOf (can ch s).cqp.toNat s := by
    rw [hkept.owner, canAccepts_keeps (·.cqp)]
    simp only [ownerOf, hostStores, modLink_hif_h2Base]
  have haddr : mbxAddr (can ch (canAccepts ch stores s)) (can ch (canAccepts ch stores s)).mbxPos
      = mbxAddr (can ch s) (can ch s).mbxPos := canAccepts_keeps fun c => mbxAddr c c.mbxPos
  have hstored := canToMailbox_of_free (r := r) (filter := k) (time := time) (s := canAccepts ch stores s)
    ((canAccepts_keeps fun c => flagOf c.mbxCtrl 31).trans hon) (by rw [howner, hkept.dma, hdma])
    (by rw [howner, haddr, ← hempty, readHost32, readHost32, readHost, readHost, hkept.hmem])
  rw [howner, haddr, hkept.hmem, canAccepts_keeps (·.mbxPos), canAccepts_keeps (·.mbxSeq)] at hstored
  rw [canRouted_of_highPriority ((canHears_keeps (canFilterOf · r)).trans hfilter)]
  exact hstored
end

/-! ### Errors and bus-off (R361 to R363) -/

section
variable {ch : Chan} {a b : Nat} {s : State}

/-- A buffered frame of a bus-off channel completes TIMEOUT (R362). -/
def dropBuffer (ch : Chan) (i : Fin 3) (s : State) : State :=
  match (can ch s).bufs[i] with
  | some x => canDone ch i x stTimeout id s
  | none => s

@[simp] theorem can_dropBuffer (ch : Chan) (i : Fin 3) (s : State) : can ch (dropBuffer ch i s) = (can ch s).emptied i := by
  rw [dropBuffer]
  split
  · exact can_canDone ..
  · next hnone =>
    have hset : (can ch s).bufs.set i none = (can ch s).bufs := by rw [← hnone]; simp
    simp only [CanChan.emptied, hset]

theorem canDropAll_eq (ch : Chan) (s : State) : canDropAll ch s = dropBuffer ch 2 (dropBuffer ch 1 (dropBuffer ch 0 s)) := rfl

theorem can_canDropAll (ch : Chan) (s : State) :
    can ch (canDropAll ch s) = (((can ch s).emptied 0).emptied 1).emptied 2 := by
  simp only [canDropAll_eq, can_dropBuffer]

theorem emptied_all_bufs (c : CanChan) (i : Fin 3) : (((c.emptied 0).emptied 1).emptied 2).bufs[i] = none := by
  obtain ⟨i, hi⟩ := i
  simp [CanChan.emptied, Vector.getElem_set]
  omega

/-- A channel that enters bus-off (R362). -/
def CanChan.offBus (c : CanChan) : CanChan := { c with st := .busOff, recovering := canAuto c, cntBusoff := c.cntBusoff + 1 }

theorem can_canBusOff (ch : Chan) (s : State) :
    can ch (canBusOff ch s) = (((can ch s).offBus.emptied 0).emptied 1).emptied 2 := by
  rw [canBusOff, can_raise, can_canDropAll, can_modCan]
  rfl

/-- A channel that counts a bus error (R361). -/
def CanChan.erred (a b : Nat) (c : CanChan) : CanChan :=
  { c with cntBusErr := c.cntBusErr + 1, tec := c.tec + a, recCnt := min 255 (c.recCnt + b) }

theorem sat_eq_min (m v : Nat) : sat m v = min m v := by
  rw [sat]
  split <;> omega

/-- A bus error grows the counters of an active channel, and the state follows (R361, R362). -/
theorem canError_of_active (hst : canState ch s = .errActive) : ∃ u, can ch u = (can ch s).erred a b
    ∧ canError ch a b s = if 255 < (can ch s).tec + a then canBusOff ch u else canJudge ch u := by
  refine ⟨modCan ch (fun c => { c with tec := c.tec + a, recCnt := sat 255 (c.recCnt + b) })
    (modCan ch (fun c => { c with cntBusErr := c.cntBusErr + 1 }) s), ?_, ?_⟩
  · rw [can_modCan, can_modCan, sat_eq_min]
    rfl
  · simp [canError, hst]

theorem canError_counts (hst : canState ch s = .errActive) (h : (can ch s).tec + a ≤ 255) :
    ∃ k, can ch (canError ch a b s) = ((can ch s).erred a b).judge k := by
  obtain ⟨u, hu, heq⟩ := canError_of_active (b := b) hst
  rw [heq, if_neg (Nat.not_lt.mpr h), ← hu]
  exact can_canJudge ch u

theorem canError_busOff (hst : canState ch s = .errActive) (h : 255 < (can ch s).tec + a) :
    can ch (canError ch a b s) = ((((can ch s).erred a b).offBus.emptied 0).emptied 1).emptied 2 := by
  obtain ⟨u, hu, heq⟩ := canError_of_active (b := b) hst
  rw [heq, if_pos h, can_canBusOff, hu]

theorem canRecovered_of_running (hst : canState ch s = .busOff) (hrun : (can ch s).recovering = true) :
    can ch (canRecovered ch s) = { can ch s with st := .errActive, tec := 0, recCnt := 0, recovering := false } := by
  simp only [canRecovered, hst, hrun, beq_self_eq_true, Bool.and_self, if_true]
  rw [can_raise, can_modCan]

theorem canRecovered_of_idle (hidle : (can ch s).recovering = false) : canRecovered ch s = s := by
  simp [canRecovered, hidle]

/-- Byte 0 of the request names the channel (log entry 17). -/
theorem byteAt_chan (ch : Chan) (rest : List Byte) : byteAt (BitVec.ofNat 8 ch.val :: rest) 0 = ch.val :=
  (BitVec.toNat_ofNat ..).trans (Nat.mod_eq_of_lt (by omega))

theorem chan_of_val (ch : Chan) : (if ch.val = 0 then 0 else 1 : Chan) = ch := by
  revert ch
  decide

/-- The request starts the recovery of the bus-off channel it names (R362). -/
theorem canRecover_of_busOff {r : Req} (hst : canState ch s = .busOff) (hallow : allowedAt 0x0701 (authorityOf r.port s) = some true)
    (hbody : r.body = [BitVec.ofNat 8 ch.val, 0, 0, 0]) :
    canRecover r s = answer r 0x0701 stOk [] (modCan ch (fun c => { c with recovering := true }) s) := by
  have hchan : ¬ 1 < ch.val := by omega
  have hzeros : zeros [BitVec.ofNat 8 ch.val, 0, 0, 0] 1 4 = true := rfl
  rw [canRecover, authorised_of_allowed 0x0701 hallow, hbody]
  simp only [byteAt_chan, chan_of_val, hzeros, hchan, hst]
  rfl

theorem canDominant_of_on (hst : canState ch s ≠ .stopped) (hbus : (can ch s).busFault = false) :
    canDominant ch s = raise 0x7004 (d1 ch.val) (modCan ch (fun c => { c with busFault := true }) s) := by
  simp [canDominant, hst, hbus]
end

/-! ### O36 -/

/-- Settles O36: what a frame heard, a bus error, a recovery and a stuck bus make of the channel and of its mailbox. -/
theorem canReceptionErrorsAndBusOff : Obligations.CanReceptionErrorsAndBusOff := by
  refine fun ch s => ⟨fun r stores hst hbus hfd => ⟨_, exec_canFrameReceived ch r stores s, ?_⟩,
    fun a b hst => ⟨_, exec_canBusError ch a b s, ?_⟩,
    fun hst => ⟨fun hrun => ⟨_, exec_canBusoffRecovered ch s, ?_⟩, fun hidle => ?_, fun r hallow hbody => ?_⟩,
    fun hst hbus => ?_, exec_canBusFaultClear ch s⟩
  · have hreceived := canRouted_received (ch := ch) (r := r) (time := trainTime s - BitVec.ofNat 64 r.sofAgo)
      (s := canHears ch stores s)
    rw [canHears_lastRx, canHears_keeps (canFilterOf · r), canHears_keeps CanChan.cntRx] at hreceived
    rw [canReceived_of_active hst hbus hfd]
    exact ⟨congrArg Prod.snd hreceived, congrArg Prod.fst hreceived, fun k hfilter hon hdma hempty =>
      canReceived_stores hfilter hon hdma hempty⟩
  · refine ⟨?_, fun hlow => ?_, fun hhigh => ?_⟩
    · rcases Nat.lt_or_ge 255 ((can ch s).tec + a) with hhigh | hlow
      · rw [canError_busOff hst hhigh]
        rfl
      · obtain ⟨k, h⟩ := canError_counts (b := b) hst hlow
        rw [h]
        rfl
    · obtain ⟨k, h⟩ := canError_counts (b := b) hst hlow
      rw [h]
      exact ⟨rfl, rfl, rfl⟩
    · rw [canError_busOff hst hhigh]
      exact ⟨rfl, rfl, emptied_all_bufs _⟩
  · rw [canRecovered_of_running hst hrun]
    exact ⟨rfl, rfl, rfl, rfl⟩
  · rw [exec_canBusoffRecovered, canRecovered_of_idle hidle]
  · rw [exec_vxCanRecover, canRecover_of_busOff hst hallow hbody]
  · rw [exec_canBusDominant, canDominant_of_on hst hbus]

end Sys2Proof.Machine
end

section
/-! SUPPORT. Coupling pairs and contacts of the VX-2 (R369 to R375, R378 to R380): what a tick's decision makes of a pair, what each drive,
hold and test makes of a contact. Settles O37. -/
namespace Sys2Proof.Machine

theorem exec_debounceChange (p : PairNo) (chB : Bool) (volts : List Int) (s : State) :
    exec (.debounceChange p chB volts) s = .next (debounced p chB volts s) := rfl
theorem exec_pairUnknown (p : PairNo) (s : State) : exec (.pairUnknown p) s = .next (disagreeLong p s) := rfl
theorem exec_pairAgreeAgain (p : PairNo) (s : State) : exec (.pairAgreeAgain p) s = .next (agreeLong p s) := rfl
theorem exec_out0DrivePulse (s : State) : exec .out0DrivePulse s = .next (out0Pulse s) := rfl
theorem exec_out0HoldExpiry (s : State) : exec .out0HoldExpiry s = .next (out0Expire s) := rfl
theorem exec_healthCondition (c : Fin 8) (s : State) : exec (.healthCondition c) s = .next (healthArises c s) := rfl
theorem exec_out1PulseEnd (s : State) : exec .out1PulseEnd s = .next (out1PulseEnd s) := rfl
theorem exec_vxContactTest (r : Req) (s : State) : exec (.vxContactTest r) s = .next (contactTest r s) := rfl
theorem exec_contactTestEnd (out1 : Bool) (s : State) : exec (.contactTestEnd out1) s = .next (testEnd out1 s) := rfl

theorem vx_onlyChanges_vx (x : VxUnit) (s : State) : onlyChanges [.vx] s { s with vx := x } := by
  refine ⟨rfl, rfl, rfl, fun p hp => ?_⟩
  cases p <;> simp [samePart] at hp ⊢

/-! ### What becomes of a pair -/

@[simp] theorem pair_modPair (p : PairNo) (f : PairInput → PairInput) (s : State) :
    (modPair p f s).vx.pairs[p] = f s.vx.pairs[p] := by simp [modPair]

@[simp] theorem inputWake_pairs (p : PairNo) (s : State) : (inputWake p s).vx.pairs = s.vx.pairs := by
  rw [inputWake]
  split
  · exact raiseCause_pairs ..
  · rfl

/-- A pair AGREED on its channel a's value (Table 8.4). -/
def PairInput.agree (c : PairInput) : PairInput :=
  { c with st := .agreed, value := c.debA, everAgreed := true, sinceTick := none, broke := none }

/-- A pair UNKNOWN, its fault noted (R374). -/
def PairInput.lose (agreeing : Option Ticks) (c : PairInput) : PairInput :=
  { c with st := .unknown, fault := true, sinceTick := agreeing, broke := none }

/-- A debounced value taken by a channel (R370). -/
def PairInput.take (chB v : Bool) (c : PairInput) : PairInput :=
  if chB then { c with debB := v, hasB := true } else { c with debA := v, hasA := true }

/-- A disagreement begun in AGREED at a tick (R371). -/
def PairInput.part (t : Ticks) (c : PairInput) : PairInput := { c with st := .discrepant, sinceTick := some t }

theorem pair_pairAgreed (p : PairNo) (s : State) : (pairAgreed p s).vx.pairs[p] = (s.vx.pairs[p]).agree := by
  have hpairs : (pairAgreed p s).vx.pairs = (modPair p (fun c => { c with
      st := .agreed, value := (s.vx.pairs[p]).debA, everAgreed := true, sinceTick := none, broke := none }) s).vx.pairs := by
    rw [pairAgreed, refreshEnd_vx, inactiveEndsHold_vx]
    split <;> split <;> simp
  simp [hpairs, PairInput.agree, -Fin.getElem_fin]

theorem pair_pairLost (p : PairNo) (agreeing : Option Ticks) (s : State) :
    (pairLost p agreeing s).vx.pairs[p] = (s.vx.pairs[p]).lose agreeing := by
  have hpairs : (pairLost p agreeing s).vx.pairs = (modPair p (PairInput.lose agreeing) s).vx.pairs := by
    simp only [pairLost, refreshEnd_vx, inputWake_pairs, raise_vx]
    rfl
  simp [hpairs, -Fin.getElem_fin]

section
variable {p : PairNo} {chB v : Bool} {volts : List Int} {k t0 : Nat} {t : Ticks} {s : State}

/-- Samples that have not stood for DEBOUNCE ticks change nothing (R370). -/
theorem debounced_of_few (h : (readings (s.vx.pairs[p]).onLevel.toNat
    (if chB then (s.vx.pairs[p]).debB else (s.vx.pairs[p]).debA) volts).2 < (s.vx.pairs[p]).debounce.toNat) :
    debounced p chB volts s = s := by
  simp only [debounced, h, decide_true, Bool.or_true, if_true]

/-- A reading other than the debounced value that has stood for DEBOUNCE ticks is taken (R370). -/
theorem debounced_of_enough (hrun : monitorsRun s = true)
    (hread : readings (s.vx.pairs[p]).onLevel.toNat (if chB then (s.vx.pairs[p]).debB else (s.vx.pairs[p]).debA) volts = (v, k))
    (hnew : v ≠ if chB then (s.vx.pairs[p]).debB else (s.vx.pairs[p]).debA) (hk : (s.vx.pairs[p]).debounce.toNat ≤ k) :
    debounced p chB volts s = pairDecide p (mono s) (modPair p (PairInput.take chB v) s) := by
  simp only [debounced, hrun, hread, beq_false_of_ne hnew, Nat.not_lt.mpr hk, Bool.not_true, Bool.and_false, decide_false,
    Bool.or_self, Bool.false_eq_true, if_false]
  rfl

/-- Channels that agree again before N + 2 ticks make the pair AGREED (R373). -/
theorem pairDecide_of_agreeing (hA : (s.vx.pairs[p]).hasA = true) (hB : (s.vx.pairs[p]).hasB = true)
    (hst : (s.vx.pairs[p]).st ≠ .unknown) (heq : (s.vx.pairs[p]).debA = (s.vx.pairs[p]).debB)
    (hsince : (s.vx.pairs[p]).sinceTick = some t0) (hshort : t - t0 < discTicks s.vx.pairs[p] + 2) :
    pairDecide p t s = pairAgreed p s := by
  simp [pairDecide, hA, hB, hst, heq, hsince, Nat.not_le.mpr hshort, -Fin.getElem_fin]

/-- A disagreement that begins in AGREED makes the pair DISCREPANT from its tick on (Table 8.4). -/
theorem pairDecide_of_parting (hA : (s.vx.pairs[p]).hasA = true) (hB : (s.vx.pairs[p]).hasB = true)
    (hst : (s.vx.pairs[p]).st = .agreed) (hne : (s.vx.pairs[p]).debA ≠ (s.vx.pairs[p]).debB)
    (hsince : (s.vx.pairs[p]).sinceTick = none) : pairDecide p t s = modPair p (PairInput.part t) s := by
  simp [pairDecide, hA, hB, hst, hne, hsince, modPair, PairInput.part, -Fin.getElem_fin]

theorem disagreeLong_of_long (hrun : monitorsRun s = true) (hsince : (s.vx.pairs[p]).sinceTick = some t0)
    (hst : (s.vx.pairs[p]).st ≠ .unknown) (hlong : discTicks s.vx.pairs[p] ≤ mono s - t0 + 1) :
    disagreeLong p s = pairLost p none s := by
  simp [disagreeLong, hrun, hsince, hst, hlong, -Fin.getElem_fin]

theorem disagreeLong_of_short (hsince : (s.vx.pairs[p]).sinceTick = some t0)
    (hshort : mono s - t0 + 1 < discTicks s.vx.pairs[p]) : disagreeLong p s = s := by
  simp [disagreeLong, hsince, Nat.not_le.mpr hshort, -Fin.getElem_fin]

theorem agreeLong_of_long (hrun : monitorsRun s = true) (hsince : (s.vx.pairs[p]).sinceTick = some t0)
    (hst : (s.vx.pairs[p]).st = .unknown) (heq : (s.vx.pairs[p]).debA = (s.vx.pairs[p]).debB)
    (hlong : discTicks s.vx.pairs[p] ≤ mono s - t0 + 1) : agreeLong p s = pairAgreed p s := by
  simp [agreeLong, hrun, hsince, hst, heq, hlong, -Fin.getElem_fin]

theorem agreeLong_of_short (hsince : (s.vx.pairs[p]).sinceTick = some t0)
    (hshort : mono s - t0 + 1 < discTicks s.vx.pairs[p]) : agreeLong p s = s := by
  simp [agreeLong, hsince, Nat.not_le.mpr hshort, -Fin.getElem_fin]
end

/-! ### Contacts -/

theorem noteOut0_onlyChanges (was : Bool) (s : State) : onlyChanges eventParts s (noteOut0 was s) := by
  rw [noteOut0]
  split
  · exact onlyChanges_refl _ s
  · exact raise_onlyChanges _ _ s

@[simp] theorem noteOut0_vx (was : Bool) (s : State) : (noteOut0 was s).vx = s.vx := ite_vx rfl (raise_vx ..)

@[simp] theorem out0Drive_vx (closed : Bool) (s : State) : (out0Drive closed s).vx = { s.vx with out0Closed := closed } :=
  noteOut0_vx ..

@[simp] theorem out0Open_vx (s : State) : (out0Open s).vx = { s.vx with out0Closed := false, out0HoldUntil := none } := by
  simp [out0Open]

theorem out0Drive_onlyChanges (closed : Bool) (s : State) : onlyChanges (.vx :: eventParts) s (out0Drive closed s) :=
  onlyChanges_trans (onlyChanges_mono (vx_onlyChanges_vx _ s) (by simp))
    (onlyChanges_mono (noteOut0_onlyChanges _ _) (by simp))

theorem out0Open_onlyChanges (s : State) : onlyChanges (.vx :: eventParts) s (out0Open s) :=
  onlyChanges_trans (out0Drive_onlyChanges false s) (onlyChanges_mono (vx_onlyChanges_vx _ _) (by simp))

theorem mem_out_noteOut0 {x : Emission} (was : Bool) {s : State} (h : x ∈ s.out) : x ∈ (noteOut0 was s).out := by
  rw [noteOut0]
  split
  · exact h
  · exact raise_out_subset _ _ s h

section
variable {r : Req} {a b : Byte} {d : Ns} {s : State}

/-- A drive pulse that finds nothing against it (R378). -/
theorem out0Pulse_of_driven (hrun : s.cel.pstate = .run) (hready : slotReady vxSlot s = true) (hsafe : leverSafe vxSlot s = false)
    (hover : handingOver 2 s = false) (hmask : maskedHealth s = false) :
    out0Pulse s = out0Drive true (emit .out0Pulse { s with vx.out0HoldUntil := some (s.now + ms 40) }) := by
  simp [out0Pulse, hrun, hready, hsafe, hover, hmask]

theorem out0Pulse_onlyChanges (s : State) : onlyChanges (.vx :: eventParts) s
    (out0Drive true (emit .out0Pulse { s with vx.out0HoldUntil := some (s.now + ms 40) })) :=
  onlyChanges_trans (onlyChanges_trans (onlyChanges_mono (vx_onlyChanges_vx _ s) (by simp))
    (onlyChanges_mono (emit_onlyChanges _ _) (by simp [eventParts]))) (out0Drive_onlyChanges true _)

theorem out0Expire_of_due (hhold : s.vx.out0HoldUntil = some d) (hd : d ≤ s.now) : out0Expire s = out0Open s := by
  rw [out0Expire, hhold, due_of_le hd, if_pos rfl]

theorem out0Expire_of_early (hhold : s.vx.out0HoldUntil = some d) (hd : s.now < d) : out0Expire s = s := by
  simp [out0Expire, hhold, not_due_of_lt hd]

theorem healthArises_of_masked {k : Fin 8} (hnow : (healthNow s).getLsbD k.val = true)
    (hmask : s.vx.healthMask.getLsbD k.val = true) : healthArises k s = out0Open s := by
  simp [healthArises, hnow, hmask]

theorem out1PulseEnd_of_due (huntil : s.vx.out1Until = some d) (hd : d ≤ s.now) :
    out1PulseEnd s = out1Drive false { s with vx.out1Until := none } := by
  rw [out1PulseEnd, huntil, due_of_le hd, if_pos rfl]

theorem out1PulseEnd_of_early (huntil : s.vx.out1Until = some d) (hd : s.now < d) : out1PulseEnd s = s := by
  simp [out1PulseEnd, huntil, not_due_of_lt hd]

/-- The duration of a contact test stands in bytes 2 and 3. -/
theorem leAt_two_two (x y a b : Byte) : leAt [x, y, a, b] 2 2 = ofLE [a, b] := rfl

/-- A well-formed test of OUT0 begins at once (R380). -/
theorem contactTest_out0 (hallow : allowedAt 0x0702 (authorityOf r.port s) = some true) (hmin : 100 ≤ ofLE [a, b])
    (hmax : ofLE [a, b] ≤ 10000) (hbody : r.body = [0, 0, a, b]) :
    (contactTest r s).vx = { s.vx with out0Test := some (s.now + ofLE [a, b] * 1000000, !s.vx.out0Closed) } := by
  rw [contactTest, authorised_of_allowed 0x0702 hallow]
  simp [hbody, leAt_two_two, byteAt, answer, ms, Nat.not_lt.mpr hmin, Nat.not_lt.mpr hmax]

/-- A well-formed test of OUT1 begins at once (R380). -/
theorem contactTest_out1 (hallow : allowedAt 0x0702 (authorityOf r.port s) = some true) (hmin : 100 ≤ ofLE [a, b])
    (hmax : ofLE [a, b] ≤ 10000) (hbody : r.body = [1, 0, a, b]) :
    (contactTest r s).vx = { s.vx with out1Test := some (s.now + ofLE [a, b] * 1000000, !s.vx.out1Closed) } := by
  rw [contactTest, authorised_of_allowed 0x0702 hallow]
  simp [hbody, leAt_two_two, byteAt, answer, ms, Nat.not_lt.mpr hmin, Nat.not_lt.mpr hmax]

theorem testEnd_out0_of_due {v : Bool} (htest : s.vx.out0Test = some (d, v)) (hd : d ≤ s.now) :
    (testEnd false s).vx = { s.vx with out0Test := none } := by
  simp [testEnd, htest, due_of_le hd]

theorem testEnd_out0_of_early {v : Bool} (htest : s.vx.out0Test = some (d, v)) (hd : s.now < d) : testEnd false s = s := by
  simp [testEnd, htest, not_due_of_lt hd]

theorem testEnd_out1_of_due {v : Bool} (htest : s.vx.out1Test = some (d, v)) (hd : d ≤ s.now) :
    (testEnd true s).vx = { s.vx with out1Test := none } := by
  simp [testEnd, htest, due_of_le hd]
end

/-! ### O37 -/

section
variable {p : PairNo} {volts : List Int} {k t0 : Nat} {s : State}

/-- Channel a takes channel b's value within the discrepancy time: AGREED on it (R373). -/
theorem debounced_a_agrees (hrun : monitorsRun s = true) (hB : (s.vx.pairs[p]).hasB = true)
    (hst : (s.vx.pairs[p]).st ≠ .unknown) (hne : (s.vx.pairs[p]).debA ≠ (s.vx.pairs[p]).debB)
    (hsince : (s.vx.pairs[p]).sinceTick = some t0) (hshort : mono s - t0 < discTicks s.vx.pairs[p] + 2)
    (hread : readings (s.vx.pairs[p]).onLevel.toNat (s.vx.pairs[p]).debA volts = ((s.vx.pairs[p]).debB, k))
    (hk : (s.vx.pairs[p]).debounce.toNat ≤ k) :
    (debounced p false volts s).vx.pairs[p] = ((s.vx.pairs[p]).take false (s.vx.pairs[p]).debB).agree := by
  have htaken : (modPair p (PairInput.take false (s.vx.pairs[p]).debB) s).vx.pairs[p]
      = (s.vx.pairs[p]).take false (s.vx.pairs[p]).debB := pair_modPair ..
  rw [debounced_of_enough (chB := false) hrun hread hne.symm hk,
    pairDecide_of_agreeing (t0 := t0) (by rw [htaken]; rfl) (by rw [htaken]; exact hB) (by rw [htaken]; exact hst)
      (by rw [htaken]; rfl) (by rw [htaken]; exact hsince) (by rw [htaken]; exact hshort),
    pair_pairAgreed, htaken]

/-- Channel b leaves channel a in AGREED: DISCREPANT from this tick on (R371, Table 8.4). -/
theorem debounced_b_parts (hrun : monitorsRun s = true) (hA : (s.vx.pairs[p]).hasA = true)
    (hst : (s.vx.pairs[p]).st = .agreed) (heq : (s.vx.pairs[p]).debA = (s.vx.pairs[p]).debB)
    (hsince : (s.vx.pairs[p]).sinceTick = none)
    (hread : readings (s.vx.pairs[p]).onLevel.toNat (s.vx.pairs[p]).debB volts = (!(s.vx.pairs[p]).debB, k))
    (hk : (s.vx.pairs[p]).debounce.toNat ≤ k) :
    debounced p true volts s
      = modPair p (PairInput.part (mono s)) (modPair p (PairInput.take true (!(s.vx.pairs[p]).debB)) s) := by
  have htaken : (modPair p (PairInput.take true (!(s.vx.pairs[p]).debB)) s).vx.pairs[p]
      = (s.vx.pairs[p]).take true (!(s.vx.pairs[p]).debB) := pair_modPair ..
  have hnew : (!(s.vx.pairs[p]).debB) ≠ (s.vx.pairs[p]).debB := by simp
  rw [debounced_of_enough (chB := true) hrun hread hnew hk,
    pairDecide_of_parting (by rw [htaken]; exact hA) (by rw [htaken]; rfl) (by rw [htaken]; exact hst)
      (by rw [htaken]; exact heq ▸ hnew.symm) (by rw [htaken]; exact hsince)]
end

/-- Settles O37: one clause for each command, from what its meaning does where its conditions hold. -/
theorem couplingPairsAndContacts : Obligations.CouplingPairsAndContacts := by
  refine ⟨fun p s hrun => ⟨fun hA hB => ⟨fun volts chB hfew => ?_, fun volts k t0 hst hne hsince hshort hread hk => ?_,
      fun volts k hst heq hsince hread hk => ?_⟩,
    fun t0 hsince => ⟨fun hst => ⟨fun hlong => ?_, fun hshort => ?_⟩, fun hst heq => ⟨fun hlong => ?_, fun hshort => ?_⟩⟩⟩,
    fun s => ⟨fun hrun hready hsafe hover hmask => ?_, fun d hhold => ⟨fun hd => ?_, fun hd => ?_⟩, fun k hnow hmask => ?_,
      fun d huntil => ⟨fun hd => ?_, fun hd => ?_⟩,
      fun r a b hallow hmin hmax => ⟨fun hbody => ?_, fun hbody => ?_⟩,
      fun d v htest => ⟨fun hd => ?_, fun hd => ?_⟩, fun d v htest hd => ?_⟩⟩
  · rw [exec_debounceChange, debounced_of_few hfew]
  · refine ⟨_, exec_debounceChange p false volts s, ?_⟩
    rw [debounced_a_agrees hrun hB hst hne hsince hshort hread hk]
    exact ⟨rfl, rfl, rfl⟩
  · refine ⟨_, exec_debounceChange p true volts s, ?_⟩
    rw [debounced_b_parts hrun hA hst heq hsince hread hk, pair_modPair, pair_modPair]
    exact ⟨rfl, rfl, rfl, onlyChanges_trans (vx_onlyChanges_vx _ s) (vx_onlyChanges_vx _ _)⟩
  · refine ⟨_, exec_pairUnknown p s, ?_⟩
    rw [disagreeLong_of_long hrun hsince hst hlong, pair_pairLost]
    exact ⟨rfl, rfl, rfl⟩
  · rw [exec_pairUnknown, disagreeLong_of_short hsince hshort]
  · refine ⟨_, exec_pairAgreeAgain p s, ?_⟩
    rw [agreeLong_of_long hrun hsince hst heq hlong, pair_pairAgreed]
    exact ⟨rfl, rfl, rfl⟩
  · rw [exec_pairAgreeAgain, agreeLong_of_short hsince hshort]
  · refine ⟨_, exec_out0DrivePulse s, ?_⟩
    rw [out0Pulse_of_driven hrun hready hsafe hover hmask, out0Drive_vx]
    exact ⟨rfl, rfl, mem_out_noteOut0 _ (by simp), out0Pulse_onlyChanges s⟩
  · refine ⟨_, exec_out0HoldExpiry s, ?_⟩
    rw [out0Expire_of_due hhold hd, out0Open_vx]
    exact ⟨rfl, rfl, out0Open_onlyChanges s⟩
  · rw [exec_out0HoldExpiry, out0Expire_of_early hhold hd]
  · refine ⟨_, exec_healthCondition k s, ?_⟩
    rw [healthArises_of_masked hnow hmask, out0Open_vx]
    exact ⟨rfl, rfl⟩
  · refine ⟨_, exec_out1PulseEnd s, ?_⟩
    rw [out1PulseEnd_of_due huntil hd, out1Drive_vx]
    exact ⟨rfl, rfl⟩
  · rw [exec_out1PulseEnd, out1PulseEnd_of_early huntil hd]
  · refine ⟨_, exec_vxContactTest r s, ?_⟩
    rw [contactTest_out0 hallow hmin hmax hbody]
    exact ⟨rfl, rfl⟩
  · refine ⟨_, exec_vxContactTest r s, ?_⟩
    rw [contactTest_out1 hallow hmin hmax hbody]
    exact ⟨rfl, rfl⟩
  · refine ⟨_, exec_contactTestEnd false s, ?_⟩
    rw [testEnd_out0_of_due htest hd]
  · rw [exec_contactTestEnd, testEnd_out0_of_early htest hd]
  · refine ⟨_, exec_contactTestEnd true s, ?_⟩
    rw [testEnd_out1_of_due htest hd]

end Sys2Proof.Machine
end

section
/-! SUPPORT. What a link's host side is kept by: contexts, completion queues, links and endpoints read after each shared operation, seen through a
view that leaves out what the operation fills. Every operation of the rings is given its frame here once. -/
namespace Sys2Proof.Machine

/-! ### Reading one part after an update of another -/

section
variable (l x : Link) (c e : Nat) (n : CqNo) (s : State)

theorem ctx_modCtx_ne (g : Ctx → Ctx) (h : e ≠ c) : ctx x e (modCtx l c g s) = ctx x e s := by
  by_cases hc : c = 0
  · have he : e ≠ 0 := hc ▸ h
    simp [ctx, modCtx, hc, he]
  · by_cases he : e = 0
    · simp only [ctx, modCtx, he, hc, if_true, if_false]
      cases x <;> rfl
    · simp [ctx, modCtx, hc, he, Tab.getD_put_ne _ h]

/-- A context seen through a view that the update does not touch. -/
theorem view_ctx_modCtx {α : Type} {view : Ctx → α} {g : Ctx → Ctx} (hg : view (g (ctx l c s)) = view (ctx l c s)) :
    view (ctx x e (modCtx l c g s)) = view (ctx x e s) := by
  by_cases h : e = c
  · subst h
    by_cases hc : e = 0
    · by_cases hx : x = l
      · subst hx; rw [ctx_modCtx, hg]
      · simp only [ctx, modCtx, hc, if_true, hlink_modLink_ne _ _ _ _ hx]
    · have hown : ∀ u, ctx x e u = ctx l e u := fun u => by simp [ctx, hc]
      rw [hown, hown, ctx_modCtx, hg]
  · rw [ctx_modCtx_ne _ _ _ _ _ _ h]

@[simp] theorem cq_modCtx (g : Ctx → Ctx) : cq n (modCtx l c g s) = cq n s := by simp [cq]

@[simp] theorem ctx_modCq (g : CqState → CqState) : ctx l c (modCq n g s) = ctx l c s := by simp [ctx]

@[simp] theorem cq_modLink (g : HifLink → HifLink) : cq n (modLink l g s) = cq n s := by simp [cq]

/-- A link's other state does not hold its context entry 0. -/
theorem ctx_modLink {g : HifLink → HifLink} (hg : ∀ h, (g h).ctx0 = h.ctx0) : ctx x c (modLink l g s) = ctx x c s := by
  by_cases hx : x = l
  · subst hx; simp [ctx, hg]
  · simp [ctx, hlink_modLink_ne _ _ _ _ hx]

@[simp] theorem ctx_writeHost (a : Dword) (bs : List Byte) : ctx x c (writeHost l a bs s) = ctx x c s :=
  ctx_modLink _ _ _ _ fun _ => rfl

@[simp] theorem cq_writeHost (a : Dword) (bs : List Byte) : cq n (writeHost l a bs s) = cq n s := cq_modLink ..

@[simp] theorem ctx_raise (code : Half) (data : List Byte) : ctx l c (raise code data s) = ctx l c s := by simp [ctx]

@[simp] theorem cq_raise (code : Half) (data : List Byte) : cq n (raise code data s) = cq n s := by simp [cq]

@[simp] theorem endpoint_raise (ep : Endpoint) (code : Half) (data : List Byte) :
    endpoint ep (raise code data s) = endpoint ep s := by
  obtain ⟨l, t⟩ := ep
  cases l <;> cases t <;> simp [endpoint]

@[simp] theorem endpoint_modLink (ep : Endpoint) (g : HifLink → HifLink) : endpoint ep (modLink l g s) = endpoint ep s := by
  obtain ⟨y, t⟩ := ep
  cases y <;> cases t <;> simp [endpoint]

@[simp] theorem endpoint_modCtx (ep : Endpoint) (g : Ctx → Ctx) : endpoint ep (modCtx l c g s) = endpoint ep s := by
  obtain ⟨y, t⟩ := ep
  cases y <;> cases t <;> simp [endpoint]

@[simp] theorem endpoint_modCq (ep : Endpoint) (g : CqState → CqState) : endpoint ep (modCq n g s) = endpoint ep s := by
  obtain ⟨y, t⟩ := ep
  cases y <;> cases t <;> simp [endpoint]
end

/-! ### The views -/

/-- A completion queue without the completions that wait in it. -/
def CqState.unfilled (q : CqState) : CqState := { q with pend := [] }

/-- A link without its context entry 0 and without what waits on its CQP 0 or was taken from it. -/
def HifLink.setup (h : HifLink) : HifLink := { h with ctx0 := Ctx.reset, items := [], dropped := 0, reqs := [] }

/-- A context without its Send descriptors that wait for a completion. -/
def Ctx.unsent (x : Ctx) : Ctx := { x with txPend := [] }

/-- A context without what frames on their way to it or from it change: the Send descriptors that wait for a completion, the frames that
wait for a Receive descriptor and the count of those dropped. -/
def Ctx.quiet (x : Ctx) : Ctx := { x with txPend := [], rxWait := [], cntRxNobuf := 0 }

/-- From one state to the other the host side is kept: each context as the view shows it, each completion queue but for what waits in it, each
link's set-up and memory, the endpoints, whose CQPs are whose and which controller is active. -/
structure HostKeeps {α : Type} (view : Ctx → α) (s t : State) : Prop where
  ctx : ∀ l c, view (ctx l c t) = view (ctx l c s)
  cq : ∀ n, (cq n t).unfilled = (cq n s).unfilled
  link : ∀ l, (hlink l t).setup = (hlink l s).setup
  ep : ∀ e, endpoint e t = endpoint e s
  base : t.hif.h2Base = s.hif.h2Base
  act : activeCt t = activeCt s

section
variable {α : Type} {view : Ctx → α} {s t u : State}

theorem HostKeeps.refl (view : Ctx → α) (s : State) : HostKeeps view s s :=
  ⟨fun _ _ => rfl, fun _ => rfl, fun _ => rfl, fun _ => rfl, rfl, rfl⟩

theorem HostKeeps.trans (h : HostKeeps view s t) (k : HostKeeps view t u) : HostKeeps view s u :=
  ⟨fun l c => (k.ctx l c).trans (h.ctx l c), fun n => (k.cq n).trans (h.cq n), fun l => (k.link l).trans (h.link l),
    fun e => (k.ep e).trans (h.ep e), k.base.trans h.base, k.act.trans h.act⟩

/-- What leaves the host interface alone keeps it under every view. -/
theorem HostKeeps.of_hif (h : t.hif = s.hif) (hact : activeCt t = activeCt s := by rfl) : HostKeeps view s t := by
  have hep : ∀ e, endpoint e t = endpoint e s := fun ⟨l, c⟩ => by cases l <;> cases c <;> simp only [endpoint, h]
  refine ⟨fun l c => ?_, fun n => ?_, fun l => ?_, hep, by rw [h], hact⟩
  · simp only [Machine.ctx, hlink_of_hif h, h]
  · simp only [Machine.cq, h]
  · rw [hlink_of_hif h]

/-- What a view keeps, a view through it keeps. -/
theorem HostKeeps.through {rest : Ctx → Ctx} (h : HostKeeps rest s t) (hview : ∀ x, view (rest x) = view x := by intro; rfl) :
    HostKeeps view s t :=
  ⟨fun l c => by rw [← hview, h.ctx l c, hview], h.cq, h.link, h.ep, h.base, h.act⟩

/-- A context read through a view of what is kept. -/
theorem HostKeeps.at {rest : Ctx → Ctx} (h : HostKeeps rest s t) (view : Ctx → α) (l : Link) (c : Nat)
    (hview : ∀ x, view (rest x) = view x := by intro; rfl) : view (Machine.ctx l c t) = view (Machine.ctx l c s) :=
  (h.through hview).ctx l c

/-- A completion queue read where nothing that waits in it is looked at. -/
theorem HostKeeps.cqAt (h : HostKeeps view s t) {β : Type} (f : CqState → β) (n : CqNo)
    (hf : ∀ q, f q.unfilled = f q := by intro; rfl) : f (Machine.cq n t) = f (Machine.cq n s) := by rw [← hf, h.cq n, hf]

/-- A link read where neither its CQP 0 nor what waits there is looked at. -/
theorem HostKeeps.linkAt (h : HostKeeps view s t) {β : Type} (f : HifLink → β) (l : Link)
    (hf : ∀ x, f x.setup = f x := by intro; rfl) : f (hlink l t) = f (hlink l s) := by rw [← hf, h.link l, hf]

theorem HostKeeps.hmem (h : HostKeeps view s t) (l : Link) : (hlink l t).hmem = (hlink l s).hmem := h.linkAt HifLink.hmem l

theorem HostKeeps.hostSame (h : HostKeeps view s t) : hostSame s t := hostSame_of_hmem h.hmem

theorem HostKeeps.ownsCqp (h : HostKeeps view s t) (l : Link) (c : Nat) : ownsCqp l c t = ownsCqp l c s := by
  simp only [Machine.ownsCqp, ownerOf, h.base]

theorem HostKeeps.dmaOk (h : HostKeeps view s t) (l : Link) : dmaOk l t = dmaOk l s := dmaOk_congr h.act h.ep l

theorem HostKeeps.readHost32 (h : HostKeeps view s t) (l : Link) (a : Dword) : readHost32 l a t = readHost32 l a s := by
  simp only [Machine.readHost32, readHost, h.hmem]

theorem HostKeeps.dbAddr (h : HostKeeps view s t) (l : Link) (off : Nat) : dbAddr l off t = dbAddr l off s := by
  simp only [Machine.dbAddr, h.linkAt HifLink.db]

theorem HostKeeps.shAddr (h : HostKeeps view s t) (l : Link) (off : Nat) : shAddr l off t = shAddr l off s := by
  simp only [Machine.shAddr, h.linkAt HifLink.shadow]

theorem ite_hostKeeps {p : Prop} [Decidable p] (ht : HostKeeps view s t) (hu : HostKeeps view s u) :
    HostKeeps view s (if p then t else u) := by
  split
  · exact ht
  · exact hu

theorem foldl_hostKeeps {β : Type} {f : State → β → State} (hf : ∀ s x, HostKeeps view s (f s x)) (xs : List β) (s : State) :
    HostKeeps view s (xs.foldl f s) := by
  induction xs generalizing s with
  | nil => exact .refl _ _
  | cons x xs ih => exact (hf s x).trans (ih _)
end

/-! ### Updates -/

section
variable {α : Type} {view : Ctx → α} (s : State)

theorem raise_hostKeeps (code : Half) (data : List Byte) : HostKeeps view s (raise code data s) :=
  ⟨fun l c => by rw [ctx_raise], fun n => by rw [cq_raise], fun l => by simp [HifLink.setup], fun e => endpoint_raise ..,
    raise_hif_h2Base .., by simp [activeCt]⟩

theorem setup_modLink (l x : Link) {g : HifLink → HifLink} (hg : ∀ h, (g h).setup = h.setup) :
    (hlink x (modLink l g s)).setup = (hlink x s).setup := by
  by_cases hx : x = l
  · subst hx; rw [hlink_modLink, hg]
  · rw [hlink_modLink_ne _ _ _ _ hx]

theorem modLink_hostKeeps (l : Link) {g : HifLink → HifLink} (hg : ∀ h, (g h).setup = h.setup := by intro; rfl)
    (hctx : ∀ h, (g h).ctx0 = h.ctx0 := by intro; rfl) : HostKeeps view s (modLink l g s) :=
  ⟨fun x c => by rw [ctx_modLink _ _ _ _ hctx], fun n => by rw [cq_modLink], fun x => setup_modLink s l x hg,
    fun e => endpoint_modLink .., modLink_hif_h2Base .., by simp [activeCt]⟩

theorem modCtx_hostKeeps (l : Link) (c : Nat) {g : Ctx → Ctx} (hg : view (g (ctx l c s)) = view (ctx l c s) := by rfl) :
    HostKeeps view s (modCtx l c g s) := by
  refine ⟨fun x e => view_ctx_modCtx _ _ _ _ _ hg, fun n => by rw [cq_modCtx], fun x => ?_, fun e => endpoint_modCtx ..,
    modCtx_hif_h2Base .., by simp [activeCt]⟩
  by_cases hc : c = 0
  · simp only [modCtx, hc, if_true]
    exact setup_modLink s l x fun _ => rfl
  · simp only [modCtx, hc, if_false]
    cases x <;> rfl

theorem modCq_hostKeeps (n : CqNo) {g : CqState → CqState} (hg : ∀ q, (g q).unfilled = q.unfilled := by intro; rfl) :
    HostKeeps view s (modCq n g s) := by
  refine ⟨fun l c => by rw [ctx_modCq], fun m => ?_, fun l => by rw [modCq_hlink], fun e => endpoint_modCq .., rfl, rfl⟩
  by_cases hm : m = n
  · subst hm; rw [cq_modCq, hg]
  · rw [cq_modCq_ne _ _ _ _ hm]

theorem cqPush_hostKeeps (n : CqNo) (p : CqPend) : HostKeeps view s (cqPush n p s) := modCq_hostKeeps s n

theorem rxReport_hostKeeps (l : Link) (c : Nat) (it : RxItemDue) : HostKeeps view s (rxReport l c it s) :=
  ite_hostKeeps (cqPush_hostKeeps ..) (.refl _ s)

theorem countGaps_hostKeeps (n : Nat) : HostKeeps view s (countGaps n s) := .of_hif rfl

theorem modPort_hostKeeps (n : PortNo) (g : LinePort → LinePort) : HostKeeps view s (modPort n g s) := .of_hif rfl

theorem haltRing_hostKeeps (l : Link) (c : Nat) (r : Ring) (idx : Half) (why : HaltWhy)
    (hv : ∀ x st i w b, view (match r with
      | .tx => { x with txState := st, haltIdx := i, haltWhy := w, haltTx := b }
      | .rx => { x with rxState := st, haltIdx := i, haltWhy := w, haltRx := b }) = view x) :
    HostKeeps view s (haltRing l c r idx why s) := by
  refine (modCtx_hostKeeps s l c ?_).trans (raise_hostKeeps ..)
  cases r <;> exact hv _ _ _ _ _
end

/-! ### Completions -/

section
variable {α : Type} {view : Ctx → α} (s : State) (hview : ∀ x p, view { x with txPend := p } = view x)
include hview

theorem flushTx_hostKeeps (l : Link) (c : Nat) : HostKeeps view s (flushTx l c s) :=
  (modCtx_hostKeeps s l c (hview _ _)).trans (foldl_hostKeeps (fun t _ => cqPush_hostKeeps t _ _) _ _)

theorem completeTx_hostKeeps (r : TxRef) (status : Nat) (f : TxPend → TxPend) : HostKeeps view s (completeTx r status f s) :=
  (modCtx_hostKeeps s r.link r.cqp (hview _ _)).trans (flushTx_hostKeeps _ hview _ _)

theorem completeOrigin_hostKeeps (o : Option TxRef) (status : Nat) (f : TxPend → TxPend) :
    HostKeeps view s (completeOrigin o status f s) := by
  cases o with
  | none => exact .refl _ s
  | some r => exact completeTx_hostKeeps s hview r status f

theorem completeAll_hostKeeps (items : List RxItemDue) :
    HostKeeps view s (items.foldl (fun t it => completeOrigin it.localTx stOk id t) s) :=
  foldl_hostKeeps (fun t it => completeOrigin_hostKeeps t hview it.localTx stOk id) items s
end

/-! ### A Receive ring that keeps no waiting frame (R406) -/

theorem dropWaiting_hostKeeps (l : Link) (c : Nat) (s : State) : HostKeeps Ctx.quiet s (dropWaiting l c s) := by
  rw [dropWaiting]
  split
  · exact .refl _ s
  · exact (modCtx_hostKeeps s l c).trans ((countGaps_hostKeeps ..).trans
      ((foldl_hostKeeps (fun t g => rxReport_hostKeeps t l c g) _ _).trans (completeAll_hostKeeps _ (fun _ _ => rfl) _)))

/-- A ring in which no frame waits drops none. -/
theorem dropWaiting_of_none {l : Link} {c : Nat} {s : State} (h : (ctx l c s).rxWait = []) :
    HostKeeps id s (dropWaiting l c s) ∧ (dropWaiting l c s).hif.cqs = s.hif.cqs := by
  rw [dropWaiting]
  split
  · exact ⟨.refl _ s, rfl⟩
  · simp only [h, List.map_nil, expireRun, Option.toList_none, List.foldl_nil, List.length_nil]
    refine ⟨(modCtx_hostKeeps s l c ?_).trans (countGaps_hostKeeps ..), modCtx_hif_cqs ..⟩
    simp [← h]

end Sys2Proof.Machine
end

section
/-! SUPPORT. Where an event arrives (R422, R420): the items of CQP 0 of each link and the store-room writer. Settles O7 and O41. -/
namespace Sys2Proof.Machine

theorem insertEvent_length (it : MgmtItem) (items : List MgmtItem) : (insertEvent it items).length = items.length + 1 := by
  induction items with
  | nil => rfl
  | cons x rest ih =>
    rw [insertEvent]
    split
    · rfl
    · rw [List.length_cons, ih, List.length_cons]

theorem mem_insertEvent (it : MgmtItem) (items : List MgmtItem) : it ∈ insertEvent it items := by
  induction items with
  | nil => exact List.mem_singleton_self it
  | cons x rest ih =>
    rw [insertEvent]
    split
    · exact List.mem_cons_self ..
    · exact List.mem_cons_of_mem x ih

section
variable (l : Link) (code : Half) (data : List Byte) (s : State)

theorem items_offerLink (x : Link) (it : MgmtItem) : (hlink x (offerLink l it s)).items
    = if x = l then (offerEvent it (hlink x s).items).1 else (hlink x s).items := by
  by_cases hx : x = l
  · subst hx; simp [offerLink]
  · simp [offerLink, hx, hlink_modLink_ne _ _ _ _ hx]

/-- Outside OFF an event joins the items of both links. -/
theorem items_raise (hoff : s.cel.pstate ≠ .off) :
    (hlink l (raise code data s)).items = (offerEvent (eventItem 4 code data s) (hlink l s).items).1 := by
  rw [raise, raiseRank, if_neg (by simpa using hoff), record_hlink, deliverRank, offerSp_hlink, offerSp_hlink]
  cases l <;> simp [items_offerLink]

/-- Outside OFF, with the store-room writer stopped, an event is kept for later (R375, R688). -/
theorem deferred_raise (hoff : s.cel.pstate ≠ .off) (hw : s.srm.writerOn = false) :
    (raise code data s).srm.deferred
      = s.srm.deferred ++ [⟨code, data, BitVec.ofNat 64 (mono (deliverRank 4 code data s)), trainTime (deliverRank 4 code data s)⟩] := by
  rw [raise, raiseRank, if_neg (by simpa using hoff), record]
  simp [hw]
end

/-- Settles O7: the frame of an event, and what an offer and a record of it add. -/
theorem eventsReachLinksAndStoreRoom : Obligations.EventsReachLinksAndStoreRoom := by
  intro code data s hoff hroom
  refine ⟨raise_onlyChanges .., raise_hostSame _ _ _, fun l => ?_, fun hw => ?_⟩
  · rw [items_raise l code data s hoff, offerEvent, if_pos (hroom l)]
    exact ⟨insertEvent_length .., _, mem_insertEvent .., rfl, rfl, rfl, rfl⟩
  · rw [deferred_raise code data s hoff hw, List.map_append]
    rfl

/-- The time of a failed read of a summary or producer word is noted. -/
def noteReadFail (l : Link) (s : State) : State := modLink l (fun h => { h with readFailAt := some s.now }) s

theorem exec_summaryReadFail (l : Link) (s : State) : exec (.summaryReadFail l) s
    = .next (if spaced (hlink l s).readFailAt (sec 1) s then raise 0x8020 (d1 (Link.num l)) (noteReadFail l s) else s) := rfl

theorem spaced_iff {last : Option Ns} {d : Ns} {s : State} : spaced last d s = true ↔ ∀ x, last = some x → x + d ≤ s.now := by
  cases last <;> simp [spaced]

/-- Settles O41: the event is spaced by a second, and all it changes is its time and where an event arrives. -/
theorem aFailedSummaryReadIsSkipped : Obligations.AFailedSummaryReadIsSkipped := by
  intro l s
  refine ⟨_, exec_summaryReadFail l s, ?_⟩
  split
  case isTrue hspaced =>
    refine ⟨fun x c => (ctx_raise ..).trans (ctx_modLink _ _ _ _ fun _ => rfl), by simp [noteReadFail],
      hostSame_trans (t := noteReadFail l s) (modLink_hostSame _ _ _ fun _ => rfl) (raise_hostSame _ _ _),
      onlyChanges_trans (onlyChanges_mono (modLink_onlyChanges ..) (by simp [eventParts])) (raise_onlyChanges ..), ?_,
      fun _ => ⟨rfl, by simp [noteReadFail]⟩⟩
    rintro ⟨d, hd, hlt⟩
    exact absurd (spaced_iff.mp hspaced d hd) (Nat.not_le.mpr hlt)
  case isFalse hearly =>
    exact ⟨fun _ _ => rfl, rfl, hostSame_refl s, onlyChanges_refl _ s, fun _ => rfl,
      fun hlate => absurd (spaced_iff.mpr hlate) hearly⟩

end Sys2Proof.Machine
end

section
/-! SUPPORT. Polls and producer words (R396 to R398, R418): what a ring makes of a producer value, what a poll of a summary does where one bit is
set. Settles O38. -/
namespace Sys2Proof.Machine

theorem exec_urgentPoll (l : Link) (stores : List Host.Cell) (s : State) :
    exec (.urgentPoll l stores) s = .next (pollSummary l 0x1000 (hostStores l stores s)) := rfl
theorem exec_generalPoll (l : Link) (stores : List Host.Cell) (s : State) :
    exec (.generalPoll l stores) s = .next (pollSummary l 0x1080 (hostStores l stores s)) := rfl
theorem exec_scanPoll (l : Link) (u : Bool) (stores : List Host.Cell) (s : State) :
    exec (.scanPoll l u stores) s = .next (pollScan l u (hostStores l stores s)) := rfl

/-! ### A producer value taken (R398) -/

/-- A context whose Send ring takes a producer value. -/
def Ctx.tookTx (v : Half) (x : Ctx) : Ctx :=
  if x.txState != .running then x
  else if overruns x.txDone x.txProd v (ctxSize .tx x) then
    { x with txState := .halted, haltIdx := x.txFetch, haltWhy := .overrun, haltTx := true }
  else { x with txProd := v }

/-- A context whose Receive ring takes a producer value. -/
def Ctx.tookRx (v : Half) (x : Ctx) : Ctx :=
  if x.rxState != .running then x
  else if overruns x.rxDone x.rxProd v (ctxSize .rx x) then
    { x with rxState := .halted, haltIdx := x.rxFetch, haltWhy := .overrun, haltRx := true }
  else { x with rxProd := v }

section
variable (l : Link) (c : Nat) (v : Half) (s : State)

theorem ctx_haltRing (r : Ring) (idx : Half) (why : HaltWhy) : ctx l c (haltRing l c r idx why s) = match r with
    | .tx => { ctx l c s with txState := .halted, haltIdx := idx, haltWhy := why, haltTx := true }
    | .rx => { ctx l c s with rxState := .halted, haltIdx := idx, haltWhy := why, haltRx := true } := by
  cases r <;> simp [haltRing]

@[simp] theorem haltRing_cqs (r : Ring) (idx : Half) (why : HaltWhy) : (haltRing l c r idx why s).hif.cqs = s.hif.cqs := by
  simp [haltRing]

/-- A Receive ring halts, and its waiting frames are dropped. -/
theorem ctx_haltRx (idx : Half) (why : HaltWhy) : (ctx l c (haltRx l c idx why s)).quiet
    = Ctx.quiet { ctx l c s with rxState := .halted, haltIdx := idx, haltWhy := why, haltRx := true } := by
  rw [haltRx, (dropWaiting_hostKeeps l c _).ctx l c, ctx_haltRing]

/-- A Receive ring in which no frame waits halts, and no completion is due. -/
theorem ctx_haltRx_of_none (idx : Half) (why : HaltWhy) (h : (ctx l c s).rxWait = []) :
    ctx l c (haltRx l c idx why s) = { ctx l c s with rxState := .halted, haltIdx := idx, haltWhy := why, haltRx := true }
    ∧ (haltRx l c idx why s).hif.cqs = s.hif.cqs := by
  have hnone : (ctx l c (haltRing l c .rx idx why s)).rxWait = [] := by rw [ctx_haltRing]; exact h
  obtain ⟨hkeeps, hcqs⟩ := dropWaiting_of_none hnone
  exact ⟨(hkeeps.ctx l c).trans (ctx_haltRing ..), hcqs.trans (haltRing_cqs ..)⟩

theorem ctx_takeTxProd : ctx l c (takeTxProd l c v s) = (ctx l c s).tookTx v := by
  rw [takeTxProd, Ctx.tookTx]
  split
  · rfl
  · split
    · rw [ctx_haltRing]
    · rw [ctx_modCtx]

@[simp] theorem takeTxProd_cqs : (takeTxProd l c v s).hif.cqs = s.hif.cqs := by
  rw [takeTxProd]
  split
  · rfl
  · split <;> simp

theorem ctx_takeRxProd : (ctx l c (takeRxProd l c v s)).quiet = ((ctx l c s).tookRx v).quiet := by
  rw [takeRxProd, Ctx.tookRx]
  split
  · rfl
  · split
    · rw [ctx_haltRx]
    · rw [ctx_modCtx]

theorem ctx_takeRxProd_of_none (h : (ctx l c s).rxWait = []) :
    ctx l c (takeRxProd l c v s) = (ctx l c s).tookRx v ∧ (takeRxProd l c v s).hif.cqs = s.hif.cqs := by
  rw [takeRxProd, Ctx.tookRx]
  split
  · exact ⟨rfl, rfl⟩
  · split
    · exact ctx_haltRx_of_none l c s _ _ h
    · exact ⟨ctx_modCtx .., modCtx_hif_cqs ..⟩
end

/-- The producer values of a CQP's word (Table 9.3). -/
def txProdOf (w : Word) : Half := BitVec.ofNat 16 (fieldOf w 0 16)
def rxProdOf (w : Word) : Half := BitVec.ofNat 16 (fieldOf w 16 16)

section
variable {l : Link} {c : Nat} {s : State}

theorem readProd_of_owned (h : ownsCqp l c s = true) : readProd l c s
    = takeRxProd l c (rxProdOf (readHost32 l (dbAddr l (4 * c) s) s)) (takeTxProd l c (txProdOf (readHost32 l (dbAddr l (4 * c) s) s)) s) := by
  rw [readProd, h]
  rfl

theorem ctx_readProd (h : ownsCqp l c s = true) : (ctx l c (readProd l c s)).quiet
    = (((ctx l c s).tookTx (txProdOf (readHost32 l (dbAddr l (4 * c) s) s))).tookRx
        (rxProdOf (readHost32 l (dbAddr l (4 * c) s) s))).quiet := by
  rw [readProd_of_owned h, ctx_takeRxProd, ctx_takeTxProd]

theorem tookTx_rxWait (v : Half) (x : Ctx) : (x.tookTx v).rxWait = x.rxWait := by
  rw [Ctx.tookTx]
  split
  · rfl
  · split <;> rfl

theorem ctx_readProd_of_none (h : ownsCqp l c s = true) (hwait : (ctx l c s).rxWait = []) :
    ctx l c (readProd l c s) = ((ctx l c s).tookTx (txProdOf (readHost32 l (dbAddr l (4 * c) s) s))).tookRx
        (rxProdOf (readHost32 l (dbAddr l (4 * c) s) s))
    ∧ (readProd l c s).hif.cqs = s.hif.cqs := by
  have hnone : (ctx l c (takeTxProd l c (txProdOf (readHost32 l (dbAddr l (4 * c) s) s)) s)).rxWait = [] := by
    rw [ctx_takeTxProd, tookTx_rxWait, hwait]
  obtain ⟨hctx, hcqs⟩ := ctx_takeRxProd_of_none l c (rxProdOf (readHost32 l (dbAddr l (4 * c) s) s)) _ hnone
  rw [readProd_of_owned h, hctx, ctx_takeTxProd]
  exact ⟨rfl, hcqs.trans (takeTxProd_cqs ..)⟩
end

/-! #### What a context becomes -/

section
variable {x : Ctx} (tx rx : Half)

theorem tookTx_of_posted (hrun : x.txState = .running) (h : overruns x.txDone x.txProd tx (ctxSize .tx x) = false) :
    x.tookTx tx = { x with txProd := tx } := by
  simp [Ctx.tookTx, hrun, h]

theorem tookTx_of_overrun (hrun : x.txState = .running) (h : overruns x.txDone x.txProd tx (ctxSize .tx x) = true) :
    x.tookTx tx = { x with txState := .halted, haltIdx := x.txFetch, haltWhy := .overrun, haltTx := true } := by
  simp [Ctx.tookTx, hrun, h]

theorem tookRx_of_posted (hrun : x.rxState = .running) (h : overruns x.rxDone x.rxProd rx (ctxSize .rx x) = false) :
    x.tookRx rx = { x with rxProd := rx } := by
  simp [Ctx.tookRx, hrun, h]

theorem tookRx_of_overrun (hrun : x.rxState = .running) (h : overruns x.rxDone x.rxProd rx (ctxSize .rx x) = true) :
    x.tookRx rx = { x with rxState := .halted, haltIdx := x.rxFetch, haltWhy := .overrun, haltRx := true } := by
  simp [Ctx.tookRx, hrun, h]
end

/-- What two contexts agree on through a view, read from them. -/
theorem view_read {α : Type} {view : Ctx → Ctx} {x y : Ctx} (f : Ctx → α) (h : view x = view y)
    (hf : ∀ z, f (view z) = f z := by intro; rfl) : f x = f y := by rw [← hf x, h, hf]

/-- A context as its Send ring sees it. -/
def Ctx.sendSide (x : Ctx) : Ctx := { x with rxState := .stopped, haltIdx := 0, haltWhy := .malformed, haltRx := false, rxProd := 0 }
/-- A context as its Receive ring sees it. -/
def Ctx.recvSide (x : Ctx) : Ctx := { x with txState := .stopped, haltIdx := 0, haltWhy := .malformed, haltTx := false, txProd := 0 }

theorem tookRx_sendSide (v : Half) (x : Ctx) : (x.tookRx v).sendSide = x.sendSide := by
  rw [Ctx.tookRx]
  split
  · rfl
  · split <;> rfl

theorem tookTx_recvSide (v : Half) (x : Ctx) : (x.tookTx v).recvSide = x.recvSide := by
  rw [Ctx.tookTx]
  split
  · rfl
  · split <;> rfl

/-- A producer value halts a ring with OVERRUN or not at all. -/
theorem tookRx_haltWhy (v : Half) (x : Ctx) (h : x.haltWhy = .overrun) : (x.tookRx v).haltWhy = .overrun := by
  rw [Ctx.tookRx]
  split
  · exact h
  · split
    · rfl
    · exact h

/-! ### Producer words leave the host side alone -/

/-- A context without what a producer value sets and what frames on their way change. -/
def Ctx.unposted (x : Ctx) : Ctx :=
  { x.quiet with txState := .stopped, rxState := .stopped, haltIdx := 0, haltWhy := .malformed, haltTx := false, haltRx := false,
                 txProd := 0, rxProd := 0 }

theorem haltRing_unposted (l : Link) (c : Nat) (r : Ring) (idx : Half) (why : HaltWhy) (s : State) :
    HostKeeps Ctx.unposted s (haltRing l c r idx why s) :=
  haltRing_hostKeeps s l c r idx why fun x st i w b => by cases r <;> rfl

theorem haltRx_unposted (l : Link) (c : Nat) (idx : Half) (why : HaltWhy) (s : State) :
    HostKeeps Ctx.unposted s (haltRx l c idx why s) :=
  (haltRing_unposted l c .rx idx why s).trans (dropWaiting_hostKeeps l c _).through

theorem takeTxProd_unposted (l : Link) (c : Nat) (v : Half) (s : State) : HostKeeps Ctx.unposted s (takeTxProd l c v s) :=
  ite_hostKeeps (.refl _ s) (ite_hostKeeps (haltRing_unposted ..) (modCtx_hostKeeps s l c))

theorem takeRxProd_unposted (l : Link) (c : Nat) (v : Half) (s : State) : HostKeeps Ctx.unposted s (takeRxProd l c v s) :=
  ite_hostKeeps (.refl _ s) (ite_hostKeeps (haltRx_unposted ..) (modCtx_hostKeeps s l c))

theorem readProd_unposted (l : Link) (c : Nat) (s : State) : HostKeeps Ctx.unposted s (readProd l c s) :=
  ite_hostKeeps (.refl _ s) ((takeTxProd_unposted ..).trans (takeRxProd_unposted ..))

/-! ### Words of host memory -/

theorem ofLE_four_eq_zero {a b c d : Byte} : word (ofLE [a, b, c, d]) = 0 ↔ a = 0 ∧ b = 0 ∧ c = 0 ∧ d = 0 := by
  have ha := a.isLt
  have hb := b.isLt
  have hc := c.isLt
  have hd := d.isLt
  simp only [word, ofLE, BitVec.toNat_eq, BitVec.ofNat_eq_ofNat, BitVec.toNat_ofNat]
  omega

theorem readHost32_eq_zero {l : Link} {a : Dword} {s : State} : readHost32 l a s = 0
    ↔ ∀ k, k < 4 → memGet hostFill (hlink l s).hmem (a.toNat + k) = 0 := by
  rw [readHost32, readHost, memLoad, memLoad, memLoad, memLoad, memLoad, ofLE_four_eq_zero]
  constructor
  · rintro ⟨h0, h1, h2, h3⟩ k hk
    obtain rfl | rfl | rfl | rfl : k = 0 ∨ k = 1 ∨ k = 2 ∨ k = 3 := by omega
    · exact h0
    · exact h1
    · exact h2
    · exact h3
  · exact fun h => ⟨h 0 (by omega), h 1 (by omega), h 2 (by omega), h 3 (by omega)⟩

/-- A byte of a word of zeros. -/
theorem getD_zeros (k : Nat) (d : Byte) (hd : d = 0) : ([0, 0, 0, 0] : List Byte).getD k d = 0 := by
  subst hd
  rcases k with _ | _ | _ | _ | k <;> rfl

/-- A word that reads 0 still does after any word has been cleared. -/
theorem readHost32_clear {l : Link} {a : Dword} {s : State} (b : Dword) (hwf : memWf hostFill (hlink l s).hmem = true)
    (h : readHost32 l a s = 0) : readHost32 l a (writeHost l b [0, 0, 0, 0] s) = 0 := by
  rw [readHost32_eq_zero] at h ⊢
  intro k hk
  rw [writeHost_get l b _ s _ hwf]
  split
  · exact getD_zeros _ _ (h k hk)
  · exact h k hk

@[simp] theorem dbAddr_writeHost (l x : Link) (off : Nat) (a : Dword) (bs : List Byte) (s : State) :
    dbAddr x off (writeHost l a bs s) = dbAddr x off s := by
  by_cases hx : x = l
  · subst hx; simp [dbAddr, writeHost]
  · simp [dbAddr, writeHost_other _ _ _ _ _ hx]

theorem flagOf_twoPow {b i : Nat} (hb : b < 32) : flagOf (BitVec.ofNat 32 (2 ^ b)) i = decide (b = i) := by
  have hlt : 2 ^ b < 2 ^ 32 := Nat.pow_lt_pow_right (by decide) hb
  rw [flagOf, bitOf, BitVec.toNat_ofNat, Nat.mod_eq_of_lt hlt, Bool.beq_eq_decide_eq, ← Nat.testBit_eq_decide_div_mod_eq,
    Nat.testBit_two_pow]

theorem twoPow_ne_zero {b : Nat} (hb : b < 32) : (BitVec.ofNat 32 (2 ^ b) == 0) = false := by
  have hlt : 2 ^ b < 2 ^ 32 := Nat.pow_lt_pow_right (by decide) hb
  have hpos : 0 < 2 ^ b := Nat.two_pow_pos b
  rw [beq_eq_false_iff_ne]
  intro h
  have := congrArg BitVec.toNat h
  rw [BitVec.toNat_ofNat, Nat.mod_eq_of_lt hlt] at this
  simp at this

/-! ### Polls of a summary (R396) -/

theorem foldl_stays {α β : Type} {f : β → α → β} {s : β} {xs : List α} (h : ∀ x ∈ xs, f s x = s) : xs.foldl f s = s := by
  induction xs with
  | nil => rfl
  | cons x xs ih =>
    rw [List.foldl_cons, h x (List.mem_cons_self ..)]
    exact ih fun y hy => h y (List.mem_cons_of_mem x hy)

/-- A fold over the first `n` numbers in which only `i` moves, and `i` leaves what the others do not act on. -/
theorem foldl_range_one {β : Type} {f : β → Nat → β} {s : β} {n i : Nat} (hi : i < n) (hbefore : ∀ j, j < n → j ≠ i → f s j = s)
    (hafter : ∀ j, j < n → j ≠ i → f (f s i) j = f s i) : (List.range n).foldl f s = f s i := by
  obtain ⟨k, rfl⟩ : ∃ k, n = i + (k + 1) := ⟨n - i - 1, by omega⟩
  rw [List.range_add, List.range_succ_eq_map, List.map_cons, List.foldl_append, List.foldl_cons]
  rw [foldl_stays fun j hj => hbefore j (by have := List.mem_range.mp hj; omega) (by have := List.mem_range.mp hj; omega)]
  refine foldl_stays fun j hj => ?_
  obtain ⟨m, hm, rfl⟩ := List.mem_map.mp hj
  obtain ⟨k', hk', rfl⟩ := List.mem_map.mp hm
  have := List.mem_range.mp hk'
  exact hafter _ (by omega) (by omega)

section
variable {l : Link} {off i : Nat} {s : State}

theorem pollWord_of_zero (h : readHost32 l (dbAddr l (off + 4 * i) s) s = 0) : pollWord l off i s = s := by
  simp [pollWord, h]

theorem pollWord_of_bit {b : Nat} (hb : b < 32) (h : readHost32 l (dbAddr l (off + 4 * i) s) s = BitVec.ofNat 32 (2 ^ b)) :
    pollWord l off i s = readProd l (32 * i + b) (writeHost l (dbAddr l (off + 4 * i) s) [0, 0, 0, 0] s) := by
  simp only [pollWord, h, twoPow_ne_zero hb, Bool.false_eq_true, if_false, flagOf_twoPow hb, decide_eq_true_eq]
  rw [foldl_range_one hb (fun j _ hj => if_neg hj.symm) (fun j _ hj => if_neg hj.symm), if_pos rfl]

theorem pollSummary_of_polls (hpolls : polls l s = true) (hscan : scanMode l s = false) :
    pollSummary l off s = (List.range 32).foldl (fun t i => pollWord l off i t) s := by
  simp [pollSummary, hpolls, hscan]

theorem pollSummary_of_zero (hpolls : polls l s = true) (hscan : scanMode l s = false)
    (h : ∀ j, j < 32 → readHost32 l (dbAddr l (off + 4 * j) s) s = 0) : pollSummary l off s = s := by
  rw [pollSummary_of_polls hpolls hscan]
  exact foldl_stays fun j hj => pollWord_of_zero (h j (List.mem_range.mp hj))

theorem pollSummary_of_bit {b : Nat} (hpolls : polls l s = true) (hscan : scanMode l s = false)
    (hwf : memWf hostFill (hlink l s).hmem = true) (hi : i < 32) (hb : b < 32)
    (hbit : readHost32 l (dbAddr l (off + 4 * i) s) s = BitVec.ofNat 32 (2 ^ b))
    (hzero : ∀ j, j < 32 → j ≠ i → readHost32 l (dbAddr l (off + 4 * j) s) s = 0) :
    pollSummary l off s = readProd l (32 * i + b) (writeHost l (dbAddr l (off + 4 * i) s) [0, 0, 0, 0] s) := by
  rw [pollSummary_of_polls hpolls hscan,
    foldl_range_one hi (fun j hj hne => pollWord_of_zero (hzero j hj hne)) fun j hj hne => ?_, pollWord_of_bit hb hbit]
  have hkeeps := readProd_unposted l (32 * i + b) (writeHost l (dbAddr l (off + 4 * i) s) [0, 0, 0, 0] s)
  rw [pollWord_of_bit hb hbit]
  refine pollWord_of_zero ?_
  rw [hkeeps.dbAddr, hkeeps.readHost32, dbAddr_writeHost]
  exact readHost32_clear _ hwf (hzero j hj hne)
end

/-! ### Polls in scan mode (R397) -/

/-- Scan mode noted, with its event, once since link-up. -/
def noteScan (l : Link) (s : State) : State :=
  if (hlink l s).scanNoted then s else raise 0x8032 (d1 (Link.num l)) (modLink l (fun h => { h with scanNoted := true }) s)

theorem ctx_noteScan (l x : Link) (c : Nat) (s : State) : ctx x c (noteScan l s) = ctx x c s := by
  rw [noteScan]
  split
  · rfl
  · exact (ctx_raise ..).trans (ctx_modLink _ _ _ _ fun _ => rfl)

theorem noteScan_ctxs (l : Link) (s : State) :
    (noteScan l s).hif.ctxs = s.hif.ctxs ∧ (noteScan l s).hif.h2Base = s.hif.h2Base := by
  rw [noteScan]
  split <;> simp

theorem cqpRunning_noteScan (l : Link) (c : Nat) (s : State) : cqpRunning l c (noteScan l s) = cqpRunning l c s := by
  simp only [cqpRunning, ownsCqp, ownerOf, ctx_noteScan, (noteScan_ctxs l s).2]

/-- With no running ring of the kind polled, a scan only notes scan mode. -/
theorem pollScan_of_none {l : Link} {s : State} (hpolls : polls l s = true) (hscan : scanMode l s = true)
    (h : ∀ c ∈ liveCqps s, cqpRunning l c s = true → ctxUrg (ctx l c s) = false) : pollScan l true s = noteScan l s := by
  have hlive : liveCqps (noteScan l s) = liveCqps s := by simp only [liveCqps, (noteScan_ctxs l s).1]
  rw [pollScan, if_pos (by rw [hpolls, hscan]; rfl)]
  refine foldl_stays (s := noteScan l s) fun c hc => if_neg ?_
  rw [cqpRunning_noteScan, ctx_noteScan, Bool.and_eq_true, beq_iff_eq]
  rintro ⟨hrun, hurg⟩
  exact absurd ((h c (hlive ▸ hc) hrun).symm.trans hurg) (by decide)

/-- Settles O38: a poll by what a summary's words read, a producer word by what each ring makes of its value. -/
theorem pollsSwapTheSummaryAndReadProducers : Obligations.PollsSwapTheSummaryAndReadProducers := by
  intro l stores s v
  refine ⟨fun hpolls u => ?_, fun hscan => ?_, fun hscan u => ?_, fun hpolls hscan hwf off k hk => ?_,
    fun hpolls hscan hnone => ?_, fun c hown => ?_⟩
  · rw [exec_urgentPoll, exec_generalPoll, exec_scanPoll]
    simp [pollSummary, pollScan, hpolls, v]
  · rw [exec_urgentPoll, exec_generalPoll]
    simp [pollSummary, hscan, v]
  · rw [exec_scanPoll]
    simp [pollScan, hscan, v]
  · have hexec : exec k s = .next (pollSummary l off v) := by
      obtain ⟨rfl, rfl⟩ | ⟨rfl, rfl⟩ := hk
      · exact exec_urgentPoll l stores s
      · exact exec_generalPoll l stores s
    rw [hexec]
    exact ⟨fun hzero => congrArg _ (pollSummary_of_zero hpolls hscan hzero),
      fun i b hbit hzero => congrArg _ (pollSummary_of_bit hpolls hscan hwf i.isLt b.isLt hbit hzero)⟩
  · rw [exec_scanPoll, pollScan_of_none hpolls hscan hnone]
    rfl
  · intro x w y tx rx
    have hy : y.quiet = ((x.tookTx tx).tookRx rx).quiet := ctx_readProd hown
    have hsend : (Ctx.sendSide ∘ Ctx.quiet) y = (Ctx.sendSide ∘ Ctx.quiet) (x.tookTx tx) :=
      (congrArg Ctx.sendSide hy).trans (congrArg Ctx.quiet (tookRx_sendSide rx _))
    have hrecv := tookTx_recvSide tx x
    have hrx : (x.tookTx tx).rxState = x.rxState := view_read _ hrecv
    have hprod : (x.tookTx tx).rxProd = x.rxProd := view_read _ hrecv
    have hfree : (x.tookTx tx).rxFree = x.rxFree := view_read _ hrecv
    have hsame : overruns (x.tookTx tx).rxDone (x.tookTx tx).rxProd rx (ctxSize .rx (x.tookTx tx))
        = overruns x.rxDone x.rxProd rx (ctxSize .rx x) :=
      view_read (fun z => overruns z.rxDone z.rxProd rx (ctxSize .rx z)) hrecv
    refine ⟨fun hrun => ⟨fun hpost => ?_, fun hover => ?_⟩, fun hrun => ⟨fun hpost => ?_, fun hover => ?_⟩,
      fun hwait => (ctx_readProd_of_none hown hwait).2⟩
    · have htook := tookTx_of_posted tx hrun hpost
      exact ⟨(view_read _ hsend).trans (by rw [htook]), (view_read _ hsend).trans (by rw [htook]; exact hrun)⟩
    · have htook := tookTx_of_overrun tx hrun hover
      refine ⟨(view_read _ hsend).trans (by rw [htook]), (view_read _ hy).trans (tookRx_haltWhy rx _ (by rw [htook])),
        (view_read _ hsend).trans (by rw [htook]), (view_read _ hsend).trans (by rw [htook]), fun hwait => ?_⟩
      rw [show y = (x.tookTx tx).tookRx rx from (ctx_readProd_of_none hown hwait).1,
        view_read Ctx.txPend (tookRx_sendSide rx _), htook]
    · have htook := tookRx_of_posted rx (hrx.trans hrun) (hsame.trans hpost)
      exact ⟨(view_read _ hy).trans (by rw [htook]), (view_read _ hy).trans (by rw [htook]; exact hrx.trans hrun)⟩
    · have htook := tookRx_of_overrun rx (hrx.trans hrun) (hsame.trans hover)
      exact ⟨(view_read _ hy).trans (by rw [htook]), (view_read _ hy).trans (by rw [htook]),
        (view_read _ hy).trans (by rw [htook]), (view_read _ hy).trans (by rw [htook]; exact hprod),
        (view_read _ hy).trans (by rw [htook]; exact hfree)⟩

end Sys2Proof.Machine
end

section
/-! SUPPORT. Frames, answers and stop requests keep the host side (R400, R421, R425): what queueing, routing, delivering and answering leave
alone, and what rings become that stop. -/
namespace Sys2Proof.Machine

/-! ### Queues, routes and deliveries -/

section
variable {α : Type} {view : Ctx → α} (s : State)

theorem enqueue_hostKeeps (n : PortNo) (f : OutFrame) : HostKeeps view s (enqueue n f s) := .of_hif rfl

theorem sendOnLane_hostKeeps (l : Lane) (e : End) (f : NatFrame) (origin : Option TxRef) (inPort : Option PortNo) :
    HostKeeps view s (sendOnLane l e f origin inPort s) := by
  rw [sendOnLane]
  split
  · exact enqueue_hostKeeps ..
  · exact .refl _ s

theorem plcQueue_hostKeeps (c : Chan) (hop : BitVec 7) (f : NatFrame) (origin : Option TxRef) (inPort : Option PortNo) :
    HostKeeps view s (plcQueue c hop f origin inPort s) := .of_hif rfl

/-- A node's own message goes over a lane, over the power line or nowhere. -/
theorem sendNode_hostKeeps (dst : Key) (payload : List Byte) : HostKeeps view s (sendNode dst payload s) := by
  have hplc (f : NatFrame) : HostKeeps view s (match plcTo dst s with
      | some (c, stn) => plcQueue c (plcNextHop c stn s) f none none s
      | none => s) := by
    split
    · exact plcQueue_hostKeeps ..
    · exact .refl _ s
  rw [sendNode]
  split
  · exact hplc _
  · split
    · exact hplc _
    · exact ite_hostKeeps (.refl _ s)
        (ite_hostKeeps (sendOnLane_hostKeeps ..) (ite_hostKeeps (sendOnLane_hostKeeps ..) (hplc _)))

theorem flowChan_hostKeeps (f : NatFrame) (c : Chan) (stn : BitVec 7) : HostKeeps view s (flowChan f c stn s).2 := by
  rw [flowChan]
  split
  · exact .refl _ s
  · exact .of_hif rfl

theorem learnMac_hostKeeps (b : List Byte) (e : Option End) : HostKeeps view s (learnMac b e s) :=
  ite_hostKeeps (.refl _ s) (.of_hif rfl)

theorem sendRaw_hostKeeps (n : PortNo) (f : OutFrame) : HostKeeps view s (sendRaw n f s) :=
  (ite_hostKeeps (learnMac_hostKeeps ..) (.refl _ s)).trans (enqueue_hostKeeps ..)

/-- A message leaves on a service port. -/
theorem spSend_hostKeeps (c : Ct) (dst : Key) (kind : Nat) (msg : List Byte) : HostKeeps view s (spSend c dst kind msg s) :=
  .of_hif (spSend_hif ..) (by simp [activeCt])

theorem modSp_hostKeeps (c : Ct) (g : SpState → SpState) : HostKeeps view s (modSp c g s) :=
  .of_hif (modSp_hif ..) (by simp [activeCt])

/-- An answer joins the items of its link, or leaves by a service port or as a frame. -/
theorem respond_hostKeeps (p : MgmtPort) (tag opcode : Half) (status : Nat) (body : List Byte) :
    HostKeeps view s (respond p tag opcode status body s) := by
  cases p with
  | h1 => simp only [respond, respondPart]; exact modLink_hostKeeps s .h1
  | h2 => simp only [respond, respondPart]; exact modLink_hostKeeps s .h2
  | sp c mac => simp only [respond, respondPart]; exact (spSend_hostKeeps ..).trans (modSp_hostKeeps ..)
  | lane _ src => exact sendNode_hostKeeps ..
  | powerLine _ src => exact sendNode_hostKeeps ..

theorem addCount_hostKeeps (n : PortNo) (off k : Nat) : HostKeeps view s (addCount n off k s) :=
  .trans (modPort_hostKeeps ..) (ite_hostKeeps (.refl _ _) (.trans (modPort_hostKeeps ..) (raise_hostKeeps ..)))

variable (hview : ∀ x p, view { x with txPend := p } = view x)
include hview

theorem launch_hostKeeps (r : Route) (f : NatFrame) (origin : Option TxRef) (inPort : Option PortNo) :
    HostKeeps view s (launch r f origin inPort s) := by
  cases r with
  | self => exact .refl _ s
  | lane e l =>
    rw [launch]
    refine ite_hostKeeps (.of_hif rfl) ?_
    split
    · exact enqueue_hostKeeps ..
    · exact completeOrigin_hostKeeps _ hview ..
  | plc c stn => exact (flowChan_hostKeeps ..).trans (ite_hostKeeps (.of_hif rfl) (plcQueue_hostKeeps ..))
  | held => exact ite_hostKeeps (.of_hif rfl) (completeOrigin_hostKeeps _ hview ..)
  | nowhere => exact completeOrigin_hostKeeps _ hview ..
end

theorem launchEvery_hostKeeps {α : Type} {view : Ctx → α} (f : NatFrame) (origin : Option TxRef) (s : State) :
    HostKeeps view s (launchEvery f origin s) := by
  refine foldl_hostKeeps (fun t g => ?_) _ s
  cases g with
  | inl n => exact enqueue_hostKeeps ..
  | inr x => exact plcQueue_hostKeeps ..

/-- An item offered to a Receive ring waits there, or is dropped, counted and reported (R406, R178). -/
theorem rxOffer_hostKeeps (c : Nat) (it : RxItemDue) (s : State) : HostKeeps Ctx.quiet s (rxOffer c it s) := by
  refine ite_hostKeeps (modCtx_hostKeeps s _ c) (ite_hostKeeps ?_ (rxReport_hostKeeps ..))
  have hdropped := (modCtx_hostKeeps (view := Ctx.quiet) s (ownerOf c s) c (g := fun y => { y with cntRxNobuf := y.cntRxNobuf + 1 })).trans
    (completeOrigin_hostKeeps _ (fun _ _ => rfl) it.localTx 0 id)
  exact ite_hostKeeps (hdropped.trans ((countGaps_hostKeeps ..).trans (rxReport_hostKeeps ..))) hdropped

theorem deliverLocal_hostKeeps (dstPort : Nat) (f : NatFrame) (bcast : Bool) (origin : Option TxRef) (s : State) :
    HostKeeps Ctx.quiet s (deliverLocal dstPort f bcast origin s) :=
  ite_hostKeeps (ite_hostKeeps (sendRaw_hostKeeps ..) (completeOrigin_hostKeeps _ (fun _ _ => rfl) ..))
    (ite_hostKeeps (completeOrigin_hostKeeps _ (fun _ _ => rfl) ..) (rxOffer_hostKeeps ..))

/-! #### What preemption leaves alone altogether -/

theorem preemptAll_hif (s : State) : (preemptAll s).hif = s.hif := by
  have hone (n : PortNo) (t : State) : (preempt n t).hif = t.hif := by
    rw [preempt]
    split
    · rfl
    · dsimp only
      split <;> rfl
  rw [preemptAll]
  induction List.finRange 8 generalizing s with
  | nil => rfl
  | cons n ns ih => rw [List.foldl_cons, ih, hone]

theorem ctx_of_hif {s t : State} (h : t.hif = s.hif) (l : Link) (c : Nat) : ctx l c t = ctx l c s := by
  simp only [ctx, hlink_of_hif h, h]

theorem cq_of_hif {s t : State} (h : t.hif = s.hif) (n : CqNo) : cq n t = cq n s := by simp only [cq, h]

@[simp] theorem ctx_preemptAll (l : Link) (c : Nat) (s : State) : ctx l c (preemptAll s) = ctx l c s := ctx_of_hif (preemptAll_hif s) ..

@[simp] theorem cq_preemptAll (n : CqNo) (s : State) : cq n (preemptAll s) = cq n s := cq_of_hif (preemptAll_hif s) n

/-! ### Rings stopped (R425, R426) -/

/-- The state of a ring that `ring_stop` names. -/
def RingState.stops (y : RingState) : RingState := if y == .running || y == .stopping then .stopping else .stopped

/-- A context whose named rings begin to stop. -/
def Ctx.beganStop (m : Nat) (x : Ctx) : Ctx :=
  { x with txState := if named .tx m then x.txState.stops else x.txState, rxState := if named .rx m then x.rxState.stops else x.rxState }

theorem beginStop_eq (l : Link) (c m : Nat) (s : State) : beginStop l c m s = dropWaiting l c (modCtx l c (Ctx.beganStop m) s) := rfl

theorem ctx_beginStop (l : Link) (c m : Nat) (s : State) : (ctx l c (beginStop l c m s)).quiet = ((ctx l c s).beganStop m).quiet := by
  rw [beginStop_eq, (dropWaiting_hostKeeps l c _).ctx l c, ctx_modCtx]

/-- Where no frame waits, beginning to stop changes the rings' states alone. -/
theorem beginStop_of_none {l : Link} {c m : Nat} {s : State} (h : (ctx l c s).rxWait = []) :
    ctx l c (beginStop l c m s) = (ctx l c s).beganStop m ∧ (beginStop l c m s).hif.cqs = s.hif.cqs := by
  have hnone : (ctx l c (modCtx l c (Ctx.beganStop m) s)).rxWait = [] := by rw [ctx_modCtx]; exact h
  obtain ⟨hkeeps, hcqs⟩ := dropWaiting_of_none hnone
  exact ⟨(hkeeps.ctx l c).trans (ctx_modCtx ..), hcqs.trans (modCtx_hif_cqs ..)⟩

/-- A context without its rings' states and positions, its free Receive descriptors and its stop requests. -/
def Ctx.unstopped (x : Ctx) : Ctx :=
  { x.quiet with txState := .stopped, rxState := .stopped, txDone := 0, txFetch := 0, rxDone := 0, rxFetch := 0, rxFree := [],
                 stopReqs := [] }

theorem answerStop_hostKeeps {α : Type} {view : Ctx → α} (l : Link) (c : Nat) (q : StopReq) (s : State) :
    HostKeeps view s (answerStop l c q s) :=
  (ite_hostKeeps (raise_hostKeeps ..) (.refl _ s)).trans (respond_hostKeeps ..)

theorem beginStop_unstopped (l : Link) (c m : Nat) (s : State) : HostKeeps Ctx.unstopped s (beginStop l c m s) :=
  (modCtx_hostKeeps s l c).trans (dropWaiting_hostKeeps l c _).through

/-- Whether a ring is idle rests on its context's control word, its uncompleted Send descriptors and the completions that wait. -/
theorem ringIdle_congr {l : Link} {c : Nat} {s t : State} (r : Ring) (hctrl : (ctx l c t).ctrl = (ctx l c s).ctrl)
    (hpend : (ctx l c t).txPend = (ctx l c s).txPend) (hredo : (ctx l c t).redo = (ctx l c s).redo)
    (hcqs : t.hif.cqs = s.hif.cqs) : ringIdle l c r t = ringIdle l c r s := by
  have hq : ctxCq r (ctx l c t) = ctxCq r (ctx l c s) := by cases r <;> simp only [ctxCq, hctrl]
  simp only [ringIdle, hq, cq, hcqs, hpend, hredo]

@[simp] theorem ctx_writeCons (l x : Link) (c e : Nat) (s : State) : ctx x e (writeCons l c s) = ctx x e s := by simp [writeCons]

@[simp] theorem writeCons_mgmtEn (l x : Link) (c : Nat) (s : State) : (hlink x (writeCons l c s)).mgmtEn = (hlink x s).mgmtEn := by
  by_cases hx : x = l
  · subst hx; simp [writeCons, writeHost]
  · rw [writeCons, writeHost_other _ _ _ _ _ hx]

/-- What finishing the stops of a CQP makes of it: a stopping ring without anything left to complete is STOPPED, no other changes. -/
structure StopsFinished (l : Link) (c : Nat) (s t : State) : Prop where
  txState : (ctx l c t).txState
    = if (ctx l c s).txState == .stopping && ringIdle l c .tx s then .stopped else (ctx l c s).txState
  rxState : (ctx l c t).rxState
    = if (ctx l c s).rxState == .stopping && ringIdle l c .rx s then .stopped else (ctx l c s).rxState
  rxFree : (ctx l c s).rxFree = [] → (ctx l c t).rxFree = []
  mgmtEn : ∀ x, (hlink x t).mgmtEn = (hlink x s).mgmtEn

theorem finishStops_spec (l : Link) (c : Nat) (s : State) : StopsFinished l c s (finishStops l c s) := by
  rw [finishStops]
  dsimp only
  have hanswers (qs : List StopReq) (u : State) : HostKeeps id u (qs.foldl (fun t q => answerStop l c q t) u) :=
    foldl_hostKeeps (fun t q => answerStop_hostKeeps l c q t) qs u
  have hwrite (p : Bool) (u : State) : ctx l c (if p then writeCons l c u else u) = ctx l c u := by split <;> simp
  have hwriteEn (p : Bool) (u : State) (x : Link) :
      (hlink x (if p then writeCons l c u else u)).mgmtEn = (hlink x u).mgmtEn := by split <;> simp
  refine ⟨?_, ?_, fun hfree => ?_, fun x => ?_⟩
  · rw [(hanswers _ _).at Ctx.txState, hwrite, ctx_modCtx]
  · rw [(hanswers _ _).at Ctx.rxState, hwrite, ctx_modCtx]
  · rw [(hanswers _ _).at Ctx.rxFree, hwrite, ctx_modCtx]
    simp [hfree]
  · rw [(hanswers _ _).linkAt HifLink.mgmtEn, hwriteEn, (modCtx_hostKeeps (view := fun _ => ()) s l c).linkAt HifLink.mgmtEn]

/-! ### Rings started (R424) -/

/-- A context without its Send ring's state and positions. -/
def Ctx.noSendRing (x : Ctx) : Ctx := { x with txState := .stopped, txFetch := 0, txProd := 0, txDone := 0, haltTx := false }
/-- A context without its Receive ring's state and positions. -/
def Ctx.noRecvRing (x : Ctx) : Ctx := { x with rxState := .stopped, rxFetch := 0, rxProd := 0, rxDone := 0, haltRx := false }

theorem startTx_hostKeeps (l : Link) (c : Nat) (s : State) : HostKeeps Ctx.noSendRing s (startTx l c s) := by
  rw [startTx]
  exact modCtx_hostKeeps s l c

theorem startRx_hostKeeps (l : Link) (c : Nat) (s : State) : HostKeeps Ctx.noRecvRing s (startRx l c s) := by
  simp only [startRx]
  split <;> exact modCtx_hostKeeps s l c

theorem startRings_hostKeeps (l : Link) (c m : Nat) (s : State) : HostKeeps (fun _ => ()) s (startRings l c m s) := by
  have htx : HostKeeps (fun _ => ()) s (if named .tx m then startTx l c s else s) :=
    ite_hostKeeps (startTx_hostKeeps l c s).through (.refl _ s)
  have hrx (t : State) : HostKeeps (fun _ => ()) t (if named .rx m then startRx l c t else t) :=
    ite_hostKeeps (startRx_hostKeeps l c t).through (.refl _ t)
  exact ite_hostKeeps (htx.trans ((hrx _).trans (readProd_unposted ..).through)) (htx.trans (hrx _))

end Sys2Proof.Machine
end

section
/-! SUPPORT. The links' resets, trainings and configuration writes, and the enables of queues and of CQP 0 (R385, R386, R388, R392, R417, R422,
R540). Settles O42. -/
namespace Sys2Proof.Machine

theorem exec_linkReset (ep : Endpoint) (cause : ResetCause) (s : State) :
    exec (.linkReset ep cause) s = .next (linkReset ep cause s) := rfl
theorem exec_linkL0Reached (ep : Endpoint) (g : Fin 4) (w : Fin 3) (p : Bool) (s : State) :
    exec (.linkL0Reached ep ⟨g, w⟩ p) s = .next (reachL0 ep g.val w.val (setPrsnt ep.ct p s)) := rfl
theorem exec_configSpaceWrite (ep : Endpoint) (w : CfgWrite) (s : State) :
    exec (.configSpaceWrite ep w) s = .next (configWrite ep w s) := rfl
theorem exec_pmeTurnOff (ep : Endpoint) (s : State) : exec (.pmeTurnOff ep) s = .next (turnOff ep s) := rfl
theorem exec_cqEnable (ep : Endpoint) (n : CqNo) (v : Word) (s : State) :
    exec (.cqEnable ep n v) s = .next (hostAccess ep true (BitVec.ofNat 20 (0x1108 + 16 * n.val)) v s) := rfl
theorem exec_mgmtEnable (ep : Endpoint) (v : Word) (s : State) :
    exec (.mgmtEnable ep v) s = .next (hostAccess ep true 0x1004 v s) := rfl

/-! ### Frames that lose their descriptor, and the set-up at reset (R386) -/

section
variable {α β : Type} {g : Nat × α → Nat × α} {d : α} {k : Nat}

/-- An entry of a table whose values change but in what a view leaves out. -/
theorem Tab.view_getD_map (view : α → β) (t : Tab α) (hkey : ∀ x, (g x).1 = x.1) (hview : ∀ x, view (g x).2 = view x.2) :
    view (Tab.getD d k (t.map g)) = view (Tab.getD d k t) := by
  induction t with
  | nil => rfl
  | cons x rest ih =>
    rw [List.map_cons, Tab.getD, Tab.getD, hkey]
    split
    · exact hview x
    · exact ih

/-- What holds of every changed value of a key, and of the value of an entry that is not listed. -/
theorem Tab.getD_map_of {P : α → Prop} (t : Tab α) (hkey : ∀ x, (g x).1 = x.1) (hd : P d) (hP : ∀ x, x.1 = k → P (g x).2) :
    P (Tab.getD d k (t.map g)) := by
  induction t with
  | nil => exact hd
  | cons x rest ih =>
    rw [List.map_cons, Tab.getD, hkey]
    split
    case isTrue h => exact hP x h
    case isFalse => exact ih
end

section
variable (l : Link) (s : State)

/-- Frames that lose their descriptor keep all but the references to it. -/
theorem mapRefs_hostKeeps (f : Option TxRef → Option TxRef) : HostKeeps Ctx.quiet s (mapRefs f s) := by
  refine ⟨fun l c => ?_, fun n => ?_, fun l => ?_, fun ⟨l, t⟩ => ?_, rfl, rfl⟩
  · by_cases hc : c = 0
    · subst hc
      cases l <;> rfl
    · simp only [ctx, hc, if_false]
      exact Tab.view_getD_map Ctx.quiet _ (fun _ => rfl) fun _ => rfl
  · simp [cq, mapRefs, CqState.unfilled]
  · cases l <;> rfl
  · cases l <;> cases t <;> rfl

theorem dropWaits_hostKeeps : HostKeeps Ctx.quiet s (dropWaits l s) :=
  foldl_hostKeeps (fun t r => completeTx_hostKeeps t (fun _ _ => rfl) r stOk id) _ s

/-- The frames that waited for a link, and those that came from it, have been let go. -/
theorem forgotten_hostKeeps : HostKeeps Ctx.quiet s (forgetLink l (dropWaits l s)) :=
  (dropWaits_hostKeeps l s).trans (mapRefs_hostKeeps ..)

/-- A context of a link after the link's reset has its rings STOPPED and no uncompleted Send descriptor. -/
theorem ctx_resetSetup {c : Nat} (h : ownsCqp l c s = true) : (ctx l c (resetSetup l s)).txState = .stopped
    ∧ (ctx l c (resetSetup l s)).rxState = .stopped ∧ (ctx l c (resetSetup l s)).txPend = [] := by
  by_cases hc : c = 0
  · subst hc
    cases l <;> exact ⟨rfl, rfl, rfl⟩
  · simp only [ctx, hc, if_false]
    refine Tab.getD_map_of (P := fun x : Ctx => x.txState = .stopped ∧ x.rxState = .stopped ∧ x.txPend = []) _ (fun _ => rfl)
      ⟨rfl, rfl, rfl⟩ ?_
    rintro ⟨k, x⟩ rfl
    simp only [h, if_true]
    exact ⟨rfl, rfl, rfl⟩

theorem cq_resetSetup (n : CqNo) : cq n (resetSetup l s)
    = if (cq n s).link == l then { CqState.reset with link := l } else cq n s := by
  simp [cq, resetSetup]

theorem hlink_resetSetup : (hlink l (resetSetup l s)).db = 0 ∧ (hlink l (resetSetup l s)).shadow = 0
    ∧ (hlink l (resetSetup l s)).mgmtEn = false := by
  cases l <;> exact ⟨rfl, rfl, rfl⟩

theorem endpoint_resetSetup (ep : Endpoint) : endpoint ep (resetSetup l s) = endpoint ep s := by
  obtain ⟨x, t⟩ := ep
  cases l <;> cases x <;> cases t <;> rfl

end

section
variable {α : Type} {view : Ctx → α} (s : State)

theorem noteOut1_hostKeeps (was : Bool) : HostKeeps view s (noteOut1 was s) := ite_hostKeeps (raise_hostKeeps ..) (.refl _ s)

theorem out1Drive_hostKeeps (closed : Bool) : HostKeeps view s (out1Drive closed s) :=
  .trans (t := { s with vx.out1Closed := closed }) (.of_hif rfl) (noteOut1_hostKeeps ..)

theorem refreshOut1_hostKeeps : HostKeeps view s (refreshOut1 s) := ite_hostKeeps (.refl _ s) (out1Drive_hostKeeps ..)

theorem discardSet_hostKeeps (l : Link) (cause : Nat) : HostKeeps view s (discardSet l cause s) :=
  ite_hostKeeps (.trans (t := { s with red.cfgState := .empty, red.cfgItems := [], red.cfgNext := 0 }) (.of_hif rfl) (raise_hostKeeps ..))
    (.refl _ s)

theorem cfgReq_hostKeeps (r : Option (MgmtPort × Half)) : HostKeeps view s { s with red.cfgReq := r } := .of_hif rfl

theorem endHold_hostKeeps (l : Link) : HostKeeps view s (endHold l s) := by
  refine ite_hostKeeps (.trans (.trans ?_ (raise_hostKeeps ..)) (refreshOut1_hostKeeps _)) (.refl _ s)
  cases l <;> exact .of_hif rfl
end

/-- What follows the reset of a link's set-up: its event, a staged set discarded, the host hold ended (R386, R619, R583). -/
theorem linkReset_of_active {ep : Endpoint} {cause : ResetCause} {s : State} (hup : (endpoint ep s).power ≠ .down)
    (hact : epActive ep s = true) :
    HostKeeps id (resetSetup ep.link (forgetLink ep.link (dropWaits ep.link (modEndpoint ep (endpointReset cause) s))))
      (linkReset ep cause s) := by
  rw [linkReset, if_neg (by simpa using hup)]
  simp only [hact, Bool.not_true, Bool.false_eq_true, if_false]
  refine .trans (raise_hostKeeps ..) (.trans (ite_hostKeeps ?_ (.refl _ _)) (endHold_hostKeeps ..))
  exact (cfgReq_hostKeeps ..).trans (discardSet_hostKeeps ..)

theorem linkReset_of_standby {ep : Endpoint} {cause : ResetCause} {s : State} (hup : (endpoint ep s).power ≠ .down)
    (hact : epActive ep s = false) : linkReset ep cause s = modEndpoint ep (endpointReset cause) s := by
  rw [linkReset, if_neg (by simpa using hup)]
  simp [hact]

theorem linkReset_of_down {ep : Endpoint} {cause : ResetCause} {s : State} (h : (endpoint ep s).power = .down) :
    linkReset ep cause s = s := by
  simp [linkReset, h]

theorem endpoint_linkReset {ep : Endpoint} {cause : ResetCause} {s : State} (hup : (endpoint ep s).power ≠ .down) :
    endpoint ep (linkReset ep cause s) = endpointReset cause (endpoint ep s) := by
  cases hact : epActive ep s with
  | false => rw [linkReset_of_standby hup hact, endpoint_modEndpoint]
  | true =>
    rw [(linkReset_of_active hup hact).ep, endpoint_resetSetup, (forgotten_hostKeeps ..).ep, endpoint_modEndpoint]

theorem endpointReset_busMaster (cause : ResetCause) (e : EndpointState) : (endpointReset cause e).busMaster = false := by
  cases cause <;> rfl

/-- The queues of an active endpoint's link are disabled by the link's reset, the other link's are not. -/
theorem cq_linkReset {ep : Endpoint} {cause : ResetCause} {s : State} (hup : (endpoint ep s).power ≠ .down)
    (hact : epActive ep s = true) (n : CqNo) :
    (cq n (linkReset ep cause s)).en = if (cq n s).link == ep.link then false else (cq n s).en := by
  have hkept := forgotten_hostKeeps ep.link (modEndpoint ep (endpointReset cause) s)
  rw [(linkReset_of_active hup hact).cqAt CqState.en, cq_resetSetup, hkept.cqAt CqState.link,
    show cq n (modEndpoint ep (endpointReset cause) s) = cq n s by simp [cq]]
  split
  · rfl
  · rw [hkept.cqAt CqState.en]
    simp [cq]

/-- What the reset of an active endpoint's link leaves of the link (R386). -/
theorem linkReset_link {ep : Endpoint} {cause : ResetCause} {s : State} (hup : (endpoint ep s).power ≠ .down)
    (hact : epActive ep s = true) : (hlink ep.link (linkReset ep cause s)).db = 0
      ∧ (hlink ep.link (linkReset ep cause s)).shadow = 0 ∧ (hlink ep.link (linkReset ep cause s)).mgmtEn = false := by
  have hreset := linkReset_of_active (cause := cause) hup hact
  rw [hreset.linkAt HifLink.db, hreset.linkAt HifLink.shadow, hreset.linkAt HifLink.mgmtEn]
  exact hlink_resetSetup ..

theorem linkReset_rings {ep : Endpoint} {cause : ResetCause} {s : State} (hup : (endpoint ep s).power ≠ .down)
    (hact : epActive ep s = true) {c : Nat} (hown : ownsCqp ep.link c s = true) :
    (ctx ep.link c (linkReset ep cause s)).txState = .stopped ∧ (ctx ep.link c (linkReset ep cause s)).rxState = .stopped
      ∧ (ctx ep.link c (linkReset ep cause s)).txPend = [] := by
  have hkept := forgotten_hostKeeps ep.link (modEndpoint ep (endpointReset cause) s)
  have howned : ownsCqp ep.link c (forgetLink ep.link (dropWaits ep.link (modEndpoint ep (endpointReset cause) s))) = true := by
    rw [hkept.ownsCqp, ownsCqp, ownerOf, modEndpoint_hif_h2Base]
    exact hown
  rw [show ctx ep.link c (linkReset ep cause s) = ctx ep.link c (resetSetup ep.link (forgetLink ep.link (dropWaits ep.link
    (modEndpoint ep (endpointReset cause) s)))) from (linkReset_of_active hup hact).ctx _ _]
  exact ctx_resetSetup _ _ howned

/-! ### Training and configuration (R385, R388, R540) -/

theorem setPrsnt_same (c : Ct) (p : Bool) (s : State) : prsnt c (setPrsnt c p s) = p := by cases c <;> rfl

theorem setPrsnt_cel (c : Ct) (p : Bool) (s : State) : (setPrsnt c p s).cel = s.cel := by cases c <;> rfl

theorem setPrsnt_hostKeeps {α : Type} {view : Ctx → α} (c : Ct) (p : Bool) (s : State) : HostKeeps view s (setPrsnt c p s) := by
  cases c <;> exact .of_hif rfl

theorem linksPowered_setPrsnt (c : Ct) (p : Bool) (s : State) : linksPowered (setPrsnt c p s) = linksPowered s := by
  simp only [linksPowered, setPrsnt_cel]

theorem reachL0_of_unpowered {ep : Endpoint} {gen width : Nat} {s : State} (h : linksPowered s = false ∨ prsnt ep.ct s = false) :
    reachL0 ep gen width s = s := by
  obtain h | h := h <;> simp [reachL0, h]

/-- An endpoint whose link has trained. -/
def EndpointState.trained (gen width : Nat) (e : EndpointState) : EndpointState := { e with power := .l0, gen := gen, width := width }

/-- The releasing of WAKE# changes nothing else of the endpoint. -/
theorem endpoint_releaseWakeAt (ep : Endpoint) (s : State) : ∃ b, endpoint ep (releaseWakeAt ep s) = { endpoint ep s with wakeN := b } := by
  rw [releaseWakeAt]
  split
  · exact ⟨false, endpoint_modEndpoint ..⟩
  · exact ⟨_, rfl⟩

theorem releaseWakeAt_hostSame (ep : Endpoint) (s : State) : hostSame s (releaseWakeAt ep s) := by
  rw [releaseWakeAt]
  split
  · exact hostSame_trans (modEndpoint_hostSame _ _ _) (emit_hostSame _ _)
  · exact hostSame_refl s

theorem reachL0_of_powered {ep : Endpoint} {gen width : Nat} {s : State} (hpow : linksPowered s = true)
    (hhost : prsnt ep.ct s = true) (hnot : (endpoint ep s).power ≠ .l0) (hg : gen ≠ 0) (hw : width ≠ 0) :
    (∃ b, endpoint ep (reachL0 ep gen width s) = { (endpoint ep s).trained gen width with wakeN := b })
      ∧ hostSame s (reachL0 ep gen width s) := by
  have hmod : hostSame s (modEndpoint ep (EndpointState.trained gen width) s) := modEndpoint_hostSame _ _ _
  have hwake : ∃ b, endpoint ep (releaseWakeAt ep (modEndpoint ep (EndpointState.trained gen width) s))
      = { (endpoint ep s).trained gen width with wakeN := b } := by
    have h := endpoint_releaseWakeAt ep (modEndpoint ep (EndpointState.trained gen width) s)
    rwa [endpoint_modEndpoint] at h
  have hsame := hostSame_trans hmod (releaseWakeAt_hostSame ep _)
  have hgo : (!linksPowered s || !prsnt ep.ct s || (endpoint ep s).power == .l0 || decide (gen = 0) || decide (width = 0)) = false := by
    simp [hpow, hhost, hnot, hg, hw]
  rw [reachL0]
  simp only [hgo, Bool.false_eq_true, if_false]
  split
  · exact ⟨hwake, hsame⟩
  · split
    · refine ⟨?_, hostSame_trans (hostSame_trans hsame ?_) (raise_hostSame _ _ _)⟩
      · rw [endpoint_raise, endpoint_modLink]
        exact hwake
      · exact modLink_hostSame _ _ _ fun _ => rfl
    · exact ⟨hwake, hsame⟩

/-- An endpoint whose configuration space is written. -/
def EndpointState.configured (w : CfgWrite) (x : EndpointState) : EndpointState :=
  { x with aspmL1 := w.aspmL1, d3hot := w.d3hot, atomicOp := w.atomicOpRequester, memSpace := w.memorySpace,
           busMaster := w.busMaster, maxPayload := min 256 w.maxPayload, maxRead := w.maxReadRequest,
           power := if w.d3hot || w.aspmL1 then .l1 else .l0 }

section
variable {ep : Endpoint} {w : CfgWrite} {s : State}

theorem power_of_inL0 (h : inL0 ep s = true) : (endpoint ep s).power = .l0 := by
  simp only [inL0, Bool.and_eq_true, beq_iff_eq] at h
  exact h.1

theorem configWrite_of_l0 (h : inL0 ep s = true) (hserved : configServed s = true) : configWrite ep w s
    = if (endpoint ep s).busMaster && !w.busMaster then linkReset ep .busMasterCleared (modEndpoint ep (EndpointState.configured w) s)
      else modEndpoint ep (EndpointState.configured w) s := by
  simp only [configWrite, power_of_inL0 h, hserved]
  rfl

theorem configured_up (w : CfgWrite) (s : State) :
    (endpoint ep (modEndpoint ep (EndpointState.configured w) s)).power ≠ .down := by
  rw [endpoint_modEndpoint, EndpointState.configured]
  dsimp only
  split <;> decide

theorem configWrite_of_unserved (h : configServed s = false) : configWrite ep w s = s := by simp [configWrite, h]

theorem configWrite_of_down (h : (endpoint ep s).power = .down) : configWrite ep w s = s := by simp [configWrite, h]

theorem turnOff_of_down (h : (endpoint ep s).power = .down) : turnOff ep s = s := by simp [turnOff, h]

theorem turnOff_of_l0 (h : inL0 ep s = true) :
    turnOff ep s = emit (.linkL2 ep) (modEndpoint ep (fun x => { x with power := .l2 }) s) := by
  simp [turnOff, power_of_inL0 h]
end

/-! ### Enables (R417, R422) -/

/-- The offset of HIF_CQn_CTRL. -/
def cqCtrlAt (n : CqNo) : Nat := 0x1108 + 16 * n.val

theorem cqAt_ctrl (n : CqNo) : cqAt (cqCtrlAt n) = some n := by
  revert n; decide

theorem cqCtrl_plain (n : CqNo) : ctxAt (cqCtrlAt n) = none ∧ isMsix (cqCtrlAt n) = false ∧ writeLo (cqCtrlAt n) = false
    ∧ writeHi (cqCtrlAt n) = false ∧ (BitVec.ofNat 20 (cqCtrlAt n)).toNat = cqCtrlAt n ∧ cqCtrlAt n % 16 = 8 := by
  revert n; decide

/-- A write of its control register by a queue's own link takes effect. -/
theorem hostAccess_cqCtrl {ep : Endpoint} {n : CqNo} {s : State} (v : Word) (hl0 : inL0 ep s = true) (hact : epActive ep s = true)
    (hunlocked : s.rrw.locked = false) (hlink : (cq n s).link = ep.link) :
    hostAccess ep true (BitVec.ofNat 20 (cqCtrlAt n)) v s = writeCqCtrl ep.link n v s := by
  obtain ⟨hctx, hmsix, hlo, hhi, hoff, hmod⟩ := cqCtrl_plain n
  have hown : foreignReg ep.link (cqCtrlAt n) s = false := by simp [foreignReg, hctx, cqAt_ctrl, hlink]
  have hreach : WriteReaches ep (cqCtrlAt n) s := by
    refine ⟨hl0, hact, ?_, hmsix, hown⟩
    cases hep : ep.link with
    | h1 => exact .inl rfl
    | h2 => exact .inr (by simp [h2May, cqAt_ctrl, hlink, hep])
  have hlocked : lockedReg ep.link (cqCtrlAt n) s = false := by
    have : ¬(0x1008 ≤ cqCtrlAt n ∧ cqCtrlAt n < 0x1018) := by simp only [cqCtrlAt]; omega
    simp [lockedReg, this, hctx, cqAt_ctrl, hmod]
  have hbelow : cqCtrlAt n < 0x1208 := by simp only [cqCtrlAt]; omega
  rw [hostAccess_write v s (by omega) (by omega) (by omega), hostWrite_of_reaches v (by rw [hoff]; exact hreach), hoff, hlo, hhi]
  simp only [Bool.false_eq_true, if_false]
  rw [commitWrite_unlocked none v hunlocked (by rw [hoff]; exact hmsix), hoff, regWrite]
  have hlow : ¬cqCtrlAt n < 0x1000 ∧ cqCtrlAt n ≠ 0x1004 := by simp only [cqCtrlAt]; omega
  simp [hown, hlocked, hhi, hlow, cqAt_ctrl, hmod]

theorem mgmtCfg_plain : ctxAt 0x1004 = none ∧ cqAt 0x1004 = none ∧ mbxAt 0x1004 = none ∧ isMsix 0x1004 = false
    ∧ writeLo 0x1004 = false ∧ writeHi 0x1004 = false := by decide

theorem hostAccess_hifCfg {ep : Endpoint} {s : State} (v : Word) (hl0 : inL0 ep s = true) (hact : epActive ep s = true)
    (hunlocked : s.rrw.locked = false) : hostAccess ep true 0x1004 v s = writeHifCfg ep.link v s := by
  obtain ⟨hctx, hcq, hmbx, hmsix, hlo, hhi⟩ := mgmtCfg_plain
  have hown := foreignReg_of_none ep.link s hctx hcq
  have hoff : (0x1004 : Offset).toNat = 0x1004 := rfl
  have hreach : WriteReaches ep (0x1004 : Offset).toNat s := ⟨hl0, hact, .inr (by simp [h2May]), hmsix, hown⟩
  have hlocked := lockedReg_of_none (a := 0x1004) ep.link s (.inl (by decide)) hctx hcq hmbx
  rw [hostAccess_write v s (by decide) (by decide) (by decide), hostWrite_of_reaches v hreach, hoff, hlo, hhi]
  simp only [Bool.false_eq_true, if_false]
  rw [commitWrite_unlocked (off := 0x1004) none v hunlocked hmsix, hoff, regWrite]
  simp [hown, hlocked, hhi]

theorem writeHifCfg_mgmtEn (l : Link) (v : Word) (s : State) : (hlink l (writeHifCfg l v s)).mgmtEn = flagOf v 0 := by
  rw [writeHifCfg]
  split
  case isTrue h => exact (beq_iff_eq.mp h).symm
  case isFalse =>
    split
    case isTrue h =>
      have hon : HostKeeps (fun _ => ()) (modLink l (fun x => { x with mgmtEn := true }) s) (mgmtOn l s) :=
        ite_hostKeeps (startRings_hostKeeps l 0 3 _) (.refl _ _)
      rw [hon.linkAt HifLink.mgmtEn, hlink_modLink, h]
    case isFalse h =>
      rw [mgmtOff, (finishStops_spec ..).mgmtEn, (beginStop_unstopped l 0 3 _).linkAt HifLink.mgmtEn, hlink_modLink]
      exact (Bool.eq_false_iff.mpr h).symm

theorem modCq_onlyChanges (n : CqNo) (g : CqState → CqState) (s : State) : onlyChanges [.hif] s (modCq n g s) := by
  refine ⟨rfl, rfl, rfl, fun p hp => ?_⟩
  cases p <;> simp [samePart] at hp ⊢

theorem modCq_hostSame (n : CqNo) (g : CqState → CqState) (s : State) : hostSame s (modCq n g s) :=
  hostSame_of_hmem fun l => by rw [modCq_hlink]

/-- A queue enabled by its own link starts at its shadow word (R417). -/
theorem writeCqCtrl_enables {l : Link} {n : CqNo} {v : Word} {s : State} (hlink : (cq n s).link = l) (hoff : (cq n s).en = false)
    (hen : flagOf v 31 = true) (hkeep : l = .h1 → flagOf v 30 = false) :
    (cq n (writeCqCtrl l n v s)).en = true ∧ (cq n (writeCqCtrl l n v s)).vec = BitVec.ofNat 6 (fieldOf v 8 6)
      ∧ (cq n (writeCqCtrl l n v s)).pos = BitVec.ofNat 16 (fieldOf (readHost32 l (shAddr l (0x1000 + 4 * n.val) s) s) 0 16)
      ∧ (cq n (writeCqCtrl l n v s)).pass = flagOf (readHost32 l (shAddr l (0x1000 + 4 * n.val) s) s) 16
      ∧ onlyChanges [.hif] s (writeCqCtrl l n v s) ∧ hostSame s (writeCqCtrl l n v s) := by
  have hl : (if l == .h1 && true then (if flagOf v 30 then Link.h2 else .h1) else l) = l := by
    cases l with
    | h1 => simp [hkeep rfl]
    | h2 => rfl
  rw [writeCqCtrl]
  simp only [hlink, hoff, hen, beq_self_eq_true, Bool.not_false, Bool.and_self, if_true, hl]
  refine ⟨?_, ?_, ?_, ?_, ?_, ?_⟩
  · simp
  · simp
  · simp [shAddr, readHost32, readHost]
  · simp [shAddr, readHost32, readHost]
  · exact onlyChanges_trans (modCq_onlyChanges ..) (modCq_onlyChanges ..)
  · exact hostSame_trans (modCq_hostSame _ _ _) (modCq_hostSame _ _ _)

theorem fieldOf_lt (w : Word) (lo width : Nat) : fieldOf w lo width < 2 ^ width := Nat.mod_lt _ (Nat.two_pow_pos width)

theorem endpoint_emit (ep : Endpoint) (x : Emission) (s : State) : endpoint ep (emit x s) = endpoint ep s := by
  obtain ⟨l, t⟩ := ep
  cases l <;> cases t <;> rfl

/-! ### The obligation -/

/-- Settles O42: one clause for each command, from what its meaning does where its conditions hold. -/
theorem linkResetsConfigSpaceAndEnables : Obligations.LinkResetsConfigSpaceAndEnables := by
  refine ⟨fun ep cause s => ⟨fun hdown => ?_, fun hup => ?_⟩, fun ep g w p s hg hw => ⟨fun hnot => ?_, fun hpow hnot => ?_⟩,
    fun ep w s => ⟨fun hl0 hserved hkeep => ?_, fun hunserved => ?_, fun hl0 hserved hbus hclear => ?_, fun hl0 => ?_,
      fun hdown => ?_⟩,
    fun ep n v s hl0 hact hunlocked => ⟨fun hlink hoff hen hkeep => ?_, ?_⟩⟩
  · rw [exec_linkReset, linkReset_of_down hdown]
  · refine ⟨_, exec_linkReset ep cause s, fun hcause => ?_, ?_, fun hstandby => ?_, fun hact => ?_⟩
    · rw [endpoint_linkReset hup]
      obtain rfl | rfl := hcause <;> rfl
    · rw [endpoint_linkReset hup, endpointReset_busMaster]
    · rw [linkReset_of_standby hup hstandby]
      exact ⟨fun l c => by simp [ctx], modEndpoint_hif_cqs ..⟩
    · exact ⟨fun c hown => linkReset_rings hup hact hown, fun n hn => by simp [cq_linkReset hup hact, hn],
        fun n hn => by simp [cq_linkReset hup hact, hn], linkReset_link hup hact⟩
  · rw [exec_linkL0Reached, reachL0_of_unpowered]
    rwa [linksPowered_setPrsnt, setPrsnt_same]
  · have hkept : HostKeeps id s (setPrsnt ep.ct true s) := setPrsnt_hostKeeps ..
    obtain ⟨⟨b, hend⟩, hsame⟩ := reachL0_of_powered (ep := ep) (gen := g.val) (width := w.val) (s := setPrsnt ep.ct true s)
      (by rwa [linksPowered_setPrsnt]) (setPrsnt_same ..) (by rwa [hkept.ep]) (by omega) (by omega)
    refine ⟨_, exec_linkL0Reached ep g w true s, ?_, ?_, ?_, hostSame_trans hkept.hostSame hsame⟩ <;> rw [hend] <;> rfl
  · have hstays : ((endpoint ep s).busMaster && !w.busMaster) = false := by
      cases hb : (endpoint ep s).busMaster
      · rfl
      · rw [hkeep hb]; rfl
    refine ⟨_, exec_configSpaceWrite ep w s, ?_⟩
    rw [configWrite_of_l0 hl0 hserved, if_neg (by rw [hstays]; decide), endpoint_modEndpoint]
    exact ⟨rfl, rfl, rfl, rfl, rfl, modEndpoint_hostSame _ _ _, modEndpoint_onlyChanges ..⟩
  · rw [exec_configSpaceWrite, configWrite_of_unserved hunserved]
  · have hup := configured_up (ep := ep) w s
    refine ⟨_, exec_configSpaceWrite ep w s, ?_⟩
    rw [configWrite_of_l0 hl0 hserved, if_pos (by rw [hbus, hclear]; rfl), endpoint_linkReset hup, endpointReset_busMaster]
    refine ⟨rfl, fun hact n hn => ?_⟩
    rw [cq_linkReset hup (by rwa [epActive_modEndpoint]), show cq n (modEndpoint ep (EndpointState.configured w) s) = cq n s by simp [cq]]
    simp [hn]
  · refine ⟨_, exec_pmeTurnOff ep s, ?_⟩
    rw [turnOff_of_l0 hl0]
    refine ⟨?_, by simp [emit], emit_modEndpoint_frame ..⟩
    rw [endpoint_emit, endpoint_modEndpoint]
  · rw [exec_configSpaceWrite, exec_pmeTurnOff, configWrite_of_down hdown, turnOff_of_down hdown]
    exact ⟨rfl, rfl⟩
  · refine ⟨_, exec_cqEnable ep n v s, ?_⟩
    rw [show 0x1108 + 16 * n.val = cqCtrlAt n from rfl, hostAccess_cqCtrl v hl0 hact hunlocked hlink]
    obtain ⟨hon, hvec, hpos, hpass, hframe⟩ := writeCqCtrl_enables hlink hoff hen hkeep
    exact ⟨hon, by rw [hvec]; exact Nat.mod_eq_of_lt (fieldOf_lt ..), by rw [hpos]; exact Nat.mod_eq_of_lt (fieldOf_lt ..), hpass, hframe⟩
  · refine ⟨_, exec_mgmtEnable ep v s, ?_⟩
    rw [hostAccess_hifCfg v hl0 hact hunlocked, writeHifCfg_mgmtEn]

end Sys2Proof.Machine
end

section
/-! SUPPORT. Completion queues and their vectors, `ring_start`, `ring_stop` and `ring_reset`, and the items of CQP 0 (R411, R412, R414, R417, R422,
R424 to R426, R541). Settles O40. -/
namespace Sys2Proof.Machine

theorem exec_completionWrite (n : CqNo) (stores : List Host.Cell) (s : State) :
    exec (.completionWrite n stores) s = .next (completionWrite n (hostStores (cq n s).link stores s)) := rfl
theorem exec_moderationTimer (n : CqNo) (s : State) :
    exec (.moderationTimer n) s = .next (if cqModerated (cq n s) s then cqFire n s else s) := rfl
theorem exec_ringStart (r : Req) (s : State) : exec (.ringStart r) s = .next (ringStart r s) := rfl
theorem exec_ringStop (r : Req) (s : State) : exec (.ringStop r) s = .next (ringStop r s) := rfl
theorem exec_ringReset (r : Req) (s : State) : exec (.ringReset r) s = .next (ringReset r s) := rfl
theorem exec_ringStopDone (l : Link) (c : Cqp) (s : State) : exec (.ringStopDone l c) s = .next (finishStops l c.val s) := rfl
theorem exec_mgmtItemDelivery (l : Link) (s : State) : exec (.mgmtItemDelivery l) s = .next (mgmtDeliver l s) := rfl

/-! ### Writes to host memory -/

/-- A byte outside what is written reads as before. -/
theorem writeHost_get_outside {l : Link} {addr : Dword} {bs : List Byte} {s : State} {a : Nat}
    (hwf : memWf hostFill (hlink l s).hmem = true) (ha : a < addr.toNat ∨ addr.toNat + bs.length ≤ a) :
    memGet hostFill (hlink l (writeHost l addr bs s)).hmem a = memGet hostFill (hlink l s).hmem a := by
  rw [writeHost_get l addr bs s a hwf]
  split
  · rw [List.getD_eq_getElem?_getD, List.getElem?_eq_none (by omega), Option.getD_none]
  · rfl

/-- A byte of what a list begins with. -/
theorem getD_take_of_lt {α : Type} {xs : List α} {n i : Nat} (hi : i < n) (hn : n ≤ xs.length) (a b : α) :
    (xs.take n).getD i a = xs.getD i b := by
  rw [List.getD_eq_getElem?_getD, List.getD_eq_getElem?_getD, List.getElem?_take_of_lt hi,
    List.getElem?_eq_getElem (by omega), Option.getD_some, Option.getD_some]

@[simp] theorem shAddr_writeHost (l x : Link) (off : Nat) (a : Dword) (bs : List Byte) (s : State) :
    shAddr x off (writeHost l a bs s) = shAddr x off s := by
  by_cases hx : x = l
  · subst hx; simp [shAddr, writeHost]
  · simp [shAddr, writeHost_other _ _ _ _ _ hx]

@[simp] theorem shAddr_modCtx (l x : Link) (c off : Nat) (g : Ctx → Ctx) (s : State) :
    shAddr x off (modCtx l c g s) = shAddr x off s := (modCtx_hostKeeps (view := fun _ => ()) s l c).shAddr x off

@[simp] theorem shAddr_modCq (n : CqNo) (x : Link) (off : Nat) (g : CqState → CqState) (s : State) :
    shAddr x off (modCq n g s) = shAddr x off s := by simp [shAddr]

/-! ### A completion written (R411 to R417) -/

/-- The next entry of a queue is its first again. -/
def CqState.wraps (q : CqState) : Bool := decide (cqSize q ≤ q.pos.toNat + 1)

/-- A queue after its oldest completion has been written, its last entry or not. -/
def CqState.advanced (wrap : Bool) (q : CqState) : CqState :=
  { q with pend := q.pend.tail, pos := if wrap then 0 else q.pos + 1, pass := if wrap then !q.pass else q.pass }

/-- The bytes of a completion's entry, PHASE in dword 7. -/
def CqPend.entry (p : CqPend) (q : CqState) : List Byte :=
  ([p.d0, p.d1, p.d2, p.d3, p.d4, p.d5, p.d6, p.d7 ||| (if q.pass then 0 else 0x80000000)].map fun w => toLE 4 w.toNat).flatten

theorem CqPend.entry_length (p : CqPend) (q : CqState) : (p.entry q).length = 32 := by simp [CqPend.entry, toLE_length]

/-- The entry and the shadow words of a completion are written, and the ring and the queue move on. -/
def completionStored (n : CqNo) (p : CqPend) (s : State) : State :=
  writeCqProd n (writeCons (cq n s).link p.cqp (modCtx (cq n s).link p.cqp (ringAdvance p) (modCq n (CqState.advanced (cq n s).wraps)
    (writeHost (cq n s).link (entryAddr (cq n s).base (cq n s).pos.toNat) (p.entry (cq n s)) s))))

theorem writeCompletion_eq (n : CqNo) (p : CqPend) (s : State) : writeCompletion n p s
    = completeOrigin p.localTx stOk id (cqNote n p.urgent (ledgerCount p (completionStored n p s))) := rfl

section
variable (n : CqNo) (p : CqPend) (s : State)

theorem ledgerCount_hif : (ledgerCount p s).hif = s.hif := by
  rw [ledgerCount]
  dsimp only
  split
  · rfl
  · split <;> rfl

theorem cq_raiseVec (l : Link) (v : Nat) : cq n (raiseVec l v s) = cq n s := by
  rw [raiseVec, raiseVecAt]
  split
  · rfl
  · split
    · simp [cq]
    · rfl

/-- A completion noted for moderation, and the vector raised, leave the queue's positions and contents alone. -/
theorem cq_cqNote (urgent : Bool) : ∃ a b, cq n (cqNote n urgent s) = { cq n s with since := a, firstAt := b } := by
  rw [cqNote]
  split
  · rw [cqFire, cq_raiseVec, cq_modCq, cq_modCq]
    exact ⟨_, _, rfl⟩
  · rw [cq_modCq]
    exact ⟨_, _, rfl⟩

theorem cq_completionStored : cq n (completionStored n p s) = (cq n s).advanced (cq n s).wraps := by
  simp [completionStored, writeCqProd, writeCons]

/-- Of host memory a stored completion changes its entry and the two shadow words. -/
theorem completionStored_get {l : Link} (hl : (cq n s).link = l) (hwf : memWf hostFill (hlink l s).hmem = true) {a : Nat}
    (hentry : a < (entryAddr (cq n s).base (cq n s).pos.toNat).toNat ∨ (entryAddr (cq n s).base (cq n s).pos.toNat).toNat + 32 ≤ a)
    (hcons : a < (shAddr l (4 * p.cqp) s).toNat ∨ (shAddr l (4 * p.cqp) s).toNat + 4 ≤ a)
    (hprod : a < (shAddr l (0x1000 + 4 * n.val) s).toNat ∨ (shAddr l (0x1000 + 4 * n.val) s).toNat + 4 ≤ a) :
    memGet hostFill (hlink l (completionStored n p s)).hmem a = memGet hostFill (hlink l s).hmem a := by
  have hwf1 := writeHost_wf l (entryAddr (cq n s).base (cq n s).pos.toNat) (p.entry (cq n s)) s hwf
  have hget1 := writeHost_get_outside (bs := p.entry (cq n s)) hwf (by rwa [CqPend.entry_length])
  subst hl
  rw [completionStored, writeCqProd, writeCons]
  simp only [cq_writeHost, cq_modCtx, cq_modCq, CqState.advanced, shAddr_writeHost, shAddr_modCtx, shAddr_modCq]
  rw [writeHost_get_outside _ (by simpa [toLE_length] using hprod), writeHost_get_outside _ (by simpa [toLE_length] using hcons)]
  · rw [modCtx_hmem, modCq_hlink]
    exact hget1
  · rw [modCtx_hmem, modCq_hlink]
    exact hwf1
  · refine writeHost_wf _ _ _ _ ?_
    rw [modCtx_hmem, modCq_hlink]
    exact hwf1
end

section
variable {n : CqNo} {p : CqPend} {rest : List CqPend} {s : State}

theorem completionWrite_of_none (h : (cq n s).pend = []) : completionWrite n s = s := by
  simp only [completionWrite, h]

theorem completionWrite_of_full (hpend : (cq n s).pend = p :: rest)
    (hon : ((cq n s).en && dmaOk (cq n s).link s && ringsWrite s) = true) (hfull : cqIsFull n s = true) :
    (cq n (completionWrite n s)).full = true ∧ (cq n (completionWrite n s)).pend = (cq n s).pend
      ∧ hostSame s (completionWrite n s) := by
  simp only [completionWrite, hpend, hon, hfull, Bool.not_true, Bool.false_eq_true, if_false, if_true]
  split
  case isTrue h => exact ⟨h, hpend, hostSame_refl s⟩
  case isFalse =>
    rw [cq_raise, cq_modCq]
    exact ⟨rfl, hpend, hostSame_trans (modCq_hostSame _ _ _) (raise_hostSame _ _ _)⟩

theorem completionWrite_of_room (hpend : (cq n s).pend = p :: rest)
    (hon : ((cq n s).en && dmaOk (cq n s).link s && ringsWrite s) = true) (hroom : cqIsFull n s = false) :
    completionWrite n s = writeCompletion n p s := by
  simp only [completionWrite, hpend, hon, hroom, Bool.not_true, Bool.false_eq_true, if_false]

theorem cq_writeCompletion (n : CqNo) (p : CqPend) (s : State) :
    (cq n (writeCompletion n p s)).pos = ((cq n s).advanced (cq n s).wraps).pos
    ∧ (cq n (writeCompletion n p s)).pass = ((cq n s).advanced (cq n s).wraps).pass
    ∧ (p.localTx = none → (cq n (writeCompletion n p s)).pend = (cq n s).pend.tail) := by
  obtain ⟨a, b, hnote⟩ := cq_cqNote n (ledgerCount p (completionStored n p s)) p.urgent
  rw [cq_of_hif (ledgerCount_hif p _), cq_completionStored] at hnote
  have hdone := completeOrigin_hostKeeps (view := fun _ => ()) (cqNote n p.urgent (ledgerCount p (completionStored n p s)))
    (fun _ _ => rfl) p.localTx stOk id
  rw [writeCompletion_eq]
  refine ⟨?_, ?_, fun hnone => ?_⟩
  · rw [hdone.cqAt CqState.pos, hnote]
  · rw [hdone.cqAt CqState.pass, hnote]
  · rw [hnone, completeOrigin, hnote]
    rfl

theorem writeCompletion_hmem (n : CqNo) (p : CqPend) (s : State) (l : Link) :
    (hlink l (writeCompletion n p s)).hmem = (hlink l (completionStored n p s)).hmem := by
  rw [writeCompletion_eq, (completeOrigin_hostKeeps (view := fun _ => ()) _ (fun _ _ => rfl) p.localTx stOk id).hmem,
    cqNote_hmem, hlink_of_hif (ledgerCount_hif p _)]
end

/-! ### Vectors (R414) -/

section
variable {ep : Endpoint} {v : Nat} {s : State}

theorem raiseVecAt_of_unmasked (hup : (endpoint ep s).power = .l0) (hmask : flagOf (msixWord (endpoint ep s) (4 * v + 3)) 0 = false) :
    raiseVecAt ep v s = emit (.msix ep v) s := by
  simp [raiseVecAt, hup, hmask]

theorem raiseVecAt_of_masked (hup : (endpoint ep s).power = .l0) (hmask : flagOf (msixWord (endpoint ep s) (4 * v + 3)) 0 = true) :
    raiseVecAt ep v s = modEndpoint ep (fun x => { x with pba := x.pba ||| pbaBit v }) s := by
  simp [raiseVecAt, hup, hmask]

theorem getLsbD_pbaBit (old : BitVec 64) (hv : v < 64) : (old ||| pbaBit v).getLsbD v = true := by
  have hone : (pbaBit v).getLsbD v = true := by
    rw [pbaBit, BitVec.natCast_eq_ofNat, BitVec.getLsbD_ofNat, Nat.one_shiftLeft, Nat.testBit_two_pow_self]
    simp [hv]
  rw [BitVec.getLsbD_or, hone, Bool.or_true]
end

theorem cq_cqFire (n : CqNo) (s : State) : cq n (cqFire n s) = { cq n s with since := 0, firstAt := none } := by
  rw [cqFire, cq_raiseVec, cq_modCq]

theorem exec_cqFullRecheck (n : CqNo) (stores : List Host.Cell) (s : State) : exec (.cqFullRecheck n stores) s
    = .next (let v := hostStores (cq n s).link stores s
      if (cq n v).full && dmaOk (cq n v).link v && !cqIsFull n v then modCq n (fun q => { q with full := false }) v else v) := rfl

/-! ### Ring messages -/

/-- A ring message allowed at its port, for a CQP of its link, is run (R391, R631). -/
theorem ringMessage_of_allowed {op : Half} {r : Req} {c m : Nat} {s : State} {k : Link → Nat → Nat → State → State}
    (hauth : allowedAt op.toNat (authorityOf r.port s) = some true) (hbody : ringBody r.body = some (c, m))
    (hown : ownsCqp (reqLink r.port) c s = true) : ringMessage op r k s = k (reqLink r.port) c m s := by
  rw [ringMessage, authorised_of_allowed op hauth]
  simp only [hbody, hown, if_true]

/-! #### Starting (R424, R417) -/

/-- The named rings at their positions, before PROD is read. -/
def ringsPlaced (l : Link) (c m : Nat) (s : State) : State :=
  let s1 := if named .tx m then startTx l c s else s
  if named .rx m then startRx l c s1 else s1

section
variable (l : Link) (c m : Nat) (s : State)

theorem startTx_placed : HostKeeps Ctx.noSendRing s (if named .tx m then startTx l c s else s) :=
  ite_hostKeeps (startTx_hostKeeps l c s) (.refl _ s)

theorem startRx_placed : HostKeeps Ctx.noRecvRing s (if named .rx m then startRx l c s else s) :=
  ite_hostKeeps (startRx_hostKeeps l c s) (.refl _ s)

theorem ringsPlaced_dmaOk : dmaOk l (ringsPlaced l c m s) = dmaOk l s :=
  ((startRx_placed l c m _).dmaOk l).trans ((startTx_placed l c m s).dmaOk l)

theorem startRings_eq : startRings l c m s
    = if dmaOk l s then readProd l c (ringsPlaced l c m s) else ringsPlaced l c m s := by
  rw [← ringsPlaced_dmaOk l c m s]
  rfl

/-- The fetch positions of rings started are those they were placed at. -/
theorem startRings_fetch : (ctx l c (startRings l c m s)).txFetch = (ctx l c (ringsPlaced l c m s)).txFetch
    ∧ (ctx l c (startRings l c m s)).rxFetch = (ctx l c (ringsPlaced l c m s)).rxFetch := by
  have hread := readProd_unposted l c (ringsPlaced l c m s)
  rw [startRings_eq]
  split
  · exact ⟨hread.at Ctx.txFetch l c, hread.at Ctx.rxFetch l c⟩
  · exact ⟨rfl, rfl⟩

theorem ringsPlaced_tx (hm : named .tx m = true) :
    (ctx l c (ringsPlaced l c m s)).txState = (ctx l c (startTx l c s)).txState
    ∧ (ctx l c (ringsPlaced l c m s)).txFetch = (ctx l c (startTx l c s)).txFetch := by
  have hplaced := startRx_placed l c m (startTx l c s)
  rw [ringsPlaced, hm]
  exact ⟨hplaced.at Ctx.txState l c, hplaced.at Ctx.txFetch l c⟩

theorem startTx_running : (ctx l c (startTx l c s)).txState = .running := by simp [startTx]

theorem startTx_of_halted (hst : (ctx l c s).txState = .halted) (hhalt : (ctx l c s).haltTx = true)
    (hwhy : (ctx l c s).haltWhy ≠ .overrun) : (ctx l c (startTx l c s)).txFetch = (ctx l c s).haltIdx + 1 := by
  simp [startTx, hst, hhalt, hwhy]

theorem startTx_of_stopped (hst : (ctx l c s).txState = .stopped) :
    (ctx l c (startTx l c s)).txFetch = BitVec.ofNat 16 (fieldOf (readHost32 l (shAddr l (4 * c) s) s) 0 16) := by
  simp [startTx, hst]

theorem startRx_running : (ctx l c (startRx l c s)).rxState = .running := by
  simp only [startRx]
  split <;> simp

theorem startRx_of_stopped (hst : (ctx l c s).rxState = .stopped) :
    (ctx l c (startRx l c s)).rxFetch = BitVec.ofNat 16 (fieldOf (readHost32 l (shAddr l (4 * c) s) s) 16 16) := by
  simp [startRx, hst]

theorem ringsPlaced_rx_running (hm : named .rx m = true) : (ctx l c (ringsPlaced l c m s)).rxState = .running := by
  rw [ringsPlaced, hm]
  exact startRx_running ..

/-- A stopped Receive ring is placed at the shadow word's RX_DONE, whether or not the Send ring starts with it. -/
theorem ringsPlaced_rx_of_stopped (hm : named .rx m = true) (hst : (ctx l c s).rxState = .stopped) :
    (ctx l c (ringsPlaced l c m s)).rxFetch = BitVec.ofNat 16 (fieldOf (readHost32 l (shAddr l (4 * c) s) s) 16 16) := by
  have htx := startTx_placed l c m s
  rw [← htx.readHost32, ← htx.shAddr, ringsPlaced, hm]
  exact startRx_of_stopped _ _ _ ((htx.at Ctx.rxState l c).trans hst)
end

/-! #### Stopping (R425) -/

/-- What a ring named in a stop request becomes, where it has nothing left to complete or has. -/
def RingState.ended (idle : Bool) (y : RingState) : RingState := if y.stops == .stopping && idle then .stopped else y.stops

theorem RingState.ended_ne_running (idle : Bool) (y : RingState) : y.ended idle ≠ .running := by cases y <;> cases idle <;> decide

theorem RingState.ended_halted (idle : Bool) : RingState.halted.ended idle = .stopped := by cases idle <;> decide

theorem RingState.ended_idle (y : RingState) : y.ended true = .stopped := by cases y <;> decide

section
variable (l : Link) (c m : Nat) (r : Req) (op : Half) (reset : Bool) (body : List Byte) (s : State)

/-- The named rings stop, and a stop request joins those that wait. -/
theorem stopRings_spec : ∃ idle : Ring → Bool, ((ctx l c s).rxWait = [] → ∀ k, idle k = ringIdle l c k s)
    ∧ (named .tx m = true →
        (ctx l c (joinStop l c m r op reset body (beginStop l c m s))).txState = (ctx l c s).txState.ended (idle .tx))
    ∧ (named .rx m = true →
        (ctx l c (joinStop l c m r op reset body (beginStop l c m s))).rxState = (ctx l c s).rxState.ended (idle .rx))
    ∧ ((ctx l c s).rxFree = [] → (ctx l c (joinStop l c m r op reset body (beginStop l c m s))).rxFree = []) := by
  rw [joinStop]
  generalize (⟨r.port, r.tag, op, body, named .tx m, named .rx m, reset, m⟩ : StopReq) = q
  have hspec := finishStops_spec l c (modCtx l c (fun x => { x with stopReqs := x.stopReqs ++ [q] }) (beginStop l c m s))
  have hbegan := ctx_beginStop l c m s
  have htx : (ctx l c (beginStop l c m s)).txState = ((ctx l c s).beganStop m).txState := view_read _ hbegan
  have hrx : (ctx l c (beginStop l c m s)).rxState = ((ctx l c s).beganStop m).rxState := view_read _ hbegan
  have hfree : (ctx l c (beginStop l c m s)).rxFree = (ctx l c s).rxFree := view_read (y := (ctx l c s).beganStop m) _ hbegan
  refine ⟨fun k => ringIdle l c k (modCtx l c (fun x => { x with stopReqs := x.stopReqs ++ [q] }) (beginStop l c m s)),
    fun hwait k => ?_, fun hm => ?_, fun hm => ?_, fun h => hspec.rxFree ?_⟩
  · obtain ⟨hctx, hcqs⟩ := beginStop_of_none (m := m) hwait
    refine ringIdle_congr k ?_ ?_ ?_ ((modCtx_hif_cqs ..).trans hcqs) <;> rw [ctx_modCtx, hctx] <;> rfl
  · rw [hspec.txState, ctx_modCtx]
    simp only [htx, Ctx.beganStop, hm, if_true]
    rfl
  · rw [hspec.rxState, ctx_modCtx]
    simp only [hrx, Ctx.beganStop, hm, if_true]
    rfl
  · rw [ctx_modCtx]
    exact hfree.trans h
end

/-! #### Resetting (R426) -/

section
variable (l : Link) (c : Nat) (s : State)

theorem foldl_txFlows {β : Type} {f : State → β → State} (hf : ∀ s x, (f s x).bbn.txFlows = s.bbn.txFlows) (xs : List β) (s : State) :
    (xs.foldl f s).bbn.txFlows = s.bbn.txFlows := by
  induction xs generalizing s with
  | nil => rfl
  | cons x xs ih => rw [List.foldl_cons, ih, hf]

theorem ite_txFlows {p : Prop} [Decidable p] {a b : State} {fs : List TxFlow} (ha : a.bbn.txFlows = fs) (hb : b.bbn.txFlows = fs) :
    (if p then a else b).bbn.txFlows = fs := by
  split
  · exact ha
  · exact hb

theorem flushTx_txFlows : (flushTx l c s).bbn.txFlows = s.bbn.txFlows := by
  rw [flushTx, foldl_txFlows (f := fun t (d : TxPend × Byte) => cqPush (ctxCq .tx (ctx l c s)) (txCompletion l c d.1 d.2) t)
    (fun _ _ => rfl), modCtx_bbn]

theorem completeOrigin_txFlows (o : Option TxRef) (status : Nat) (f : TxPend → TxPend) :
    (completeOrigin o status f s).bbn.txFlows = s.bbn.txFlows := by
  cases o with
  | none => rfl
  | some r => rw [completeOrigin, completeTx, flushTx_txFlows, modCtx_bbn]

theorem countGaps_txFlows (n : Nat) : (countGaps n s).bbn.txFlows = s.bbn.txFlows := rfl

theorem dropWaiting_txFlows : (dropWaiting l c s).bbn.txFlows = s.bbn.txFlows := by
  rw [dropWaiting]
  refine ite_txFlows rfl ?_
  refine (foldl_txFlows (fun t (it : RxItemDue) => completeOrigin_txFlows t it.localTx _ _) _ _).trans ?_
  refine (foldl_txFlows (f := fun t g => rxReport l c g t) (fun t g => ite_txFlows rfl rfl) _ _).trans ?_
  rw [countGaps_txFlows, modCtx_bbn]

theorem beginStop_txFlows (m : Nat) : (beginStop l c m s).bbn.txFlows = s.bbn.txFlows := by
  rw [beginStop_eq, dropWaiting_txFlows, modCtx_bbn]

theorem sendOnLane_txFlows (x : Lane) (e : End) (f : NatFrame) (o : Option TxRef) (n : Option PortNo) :
    (sendOnLane x e f o n s).bbn.txFlows = s.bbn.txFlows := by
  rw [sendOnLane]
  split <;> rfl

/-- A node's own message of no flow is given no number. -/
theorem sendNode_txFlows (dst : Key) (payload : List Byte) : (sendNode dst payload s).bbn.txFlows = s.bbn.txFlows := by
  have hplc (f : NatFrame) : (match plcTo dst s with
      | some (x, stn) => plcQueue x (plcNextHop x stn s) f none none s
      | none => s).bbn.txFlows = s.bbn.txFlows := by split <;> rfl
  rw [sendNode]
  split
  · exact hplc _
  · split
    · exact hplc _
    · exact ite_txFlows rfl (ite_txFlows (sendOnLane_txFlows ..) (ite_txFlows (sendOnLane_txFlows ..) (hplc _)))

theorem respond_txFlows (p : MgmtPort) (tag op : Half) (status : Nat) (body : List Byte) :
    (respond p tag op status body s).bbn.txFlows = s.bbn.txFlows := by
  cases p with
  | h1 => rfl
  | h2 => rfl
  | sp c mac => simp [respond, respondPart]
  | lane _ src => exact sendNode_txFlows ..
  | powerLine _ src => exact sendNode_txFlows ..

theorem finishStops_txFlows : (finishStops l c s).bbn.txFlows = s.bbn.txFlows := by
  have hanswer (t : State) (q : StopReq) : (answerStop l c q t).bbn.txFlows = t.bbn.txFlows := by
    rw [answerStop, respond_txFlows]
    exact ite_txFlows (by rw [raise_bbn]) rfl
  rw [finishStops, foldl_txFlows hanswer]
  exact ite_txFlows (by simp [writeCons, writeHost]) (by rw [modCtx_bbn])

theorem joinStop_txFlows (m : Nat) (r : Req) (op : Half) (reset : Bool) (body : List Byte) :
    (joinStop l c m r op reset body s).bbn.txFlows = s.bbn.txFlows := by
  rw [joinStop, finishStops_txFlows, modCtx_bbn]
end

/-- A context whose rings are reset: the discarded descriptors gone, no free Receive descriptor. -/
def Ctx.purged (gone : List Half) (m : Nat) (y : Ctx) : Ctx :=
  { y with txPend := y.txPend.filter fun p => !gone.contains p.idx, rxFree := if named .rx m then [] else y.rxFree }

/-- The flows of a CQP start again (R426). -/
def flowsReset (c m : Nat) (s : State) : State :=
  if named .tx m then { s with bbn.txFlows := s.bbn.txFlows.filter fun f => !(f.id.key == vkey s && f.id.cqp.toNat == c) } else s

/-- A reset discards what may be discarded, and then stops the rings it names (R426). -/
theorem ringReset_eq {r : Req} {c m : Nat} {s : State} (hauth : allowedAt 0x0803 (authorityOf r.port s) = some true)
    (hbody : ringBody r.body = some (c, m)) (hown : ownsCqp (reqLink r.port) c s = true) :
    ∃ gone body, ringReset r s = joinStop (reqLink r.port) c m r 0x0803 true body (beginStop (reqLink r.port) c m
      (flushTx (reqLink r.port) c (flowsReset c m (modCtx (reqLink r.port) c (Ctx.purged gone m) (purge (reqLink r.port) c gone s))))) := by
  rw [ringReset, ringMessage_of_allowed (op := 0x0803) hauth hbody hown]
  exact ⟨_, _, rfl⟩

theorem purge_hif (l : Link) (c : Nat) (gone : List Half) (s : State) : (purge l c gone s).hif = s.hif := rfl

section
variable (l : Link) (c m : Nat) (gone : List Half) (s : State)

/-- What a reset has made of a context before its rings stop. -/
theorem ctx_ringsPurged : (ctx l c (flushTx l c (flowsReset c m (modCtx l c (Ctx.purged gone m) (purge l c gone s))))).unsent
    = ((ctx l c s).purged gone m).unsent := by
  have hflows : (flowsReset c m (modCtx l c (Ctx.purged gone m) (purge l c gone s))).hif
      = (modCtx l c (Ctx.purged gone m) (purge l c gone s)).hif := by
    rw [flowsReset]
    split <;> rfl
  rw [(flushTx_hostKeeps (view := Ctx.unsent) _ (fun _ _ => rfl) l c).ctx l c, ctx_of_hif hflows, ctx_modCtx,
    ctx_of_hif (purge_hif ..)]

theorem flows_ringsPurged (hm : named .tx m = true) {f : TxFlow}
    (hf : f ∈ (flushTx l c (flowsReset c m (modCtx l c (Ctx.purged gone m) (purge l c gone s)))).bbn.txFlows) :
    ¬(f.id.key = vkey s ∧ f.id.cqp.toNat = c) := by
  rw [flushTx_txFlows, flowsReset, if_pos hm, List.mem_filter] at hf
  have hkey : vkey (modCtx l c (Ctx.purged gone m) (purge l c gone s)) = vkey s := by simp [vkey, purge]
  rw [hkey] at hf
  rintro ⟨h1, h2⟩
  simp [h1, h2] at hf
end

/-! ### The items of CQP 0 (R420 to R423, R541) -/

/-- A link once a management item stands in a descriptor's buffer, cut to its length: the descriptor is used. -/
def HifLink.itemStored (d : RxDesc) (free : List RxDesc) (it : MgmtItem) (h : HifLink) : HifLink :=
  { h with ctx0 := { h.ctx0 with rxFree := free },
           hmem := memStore hostFill h.hmem d.buf.toNat ((encodeMgmt it).take (min (encodeMgmt it).length d.len)) }

section
variable {l : Link} {d : RxDesc} {free : List RxDesc} {s : State}

theorem mgmtDeliver_of_item {it : MgmtItem} {rest : List MgmtItem} (hrun : (dmaOk l s && ringsRun s) = true)
    (hrx : (ctx l 0 s).rxState = .running) (hroom : (cq (ctxCq .rx (ctx l 0 s)) s).full = false)
    (hfree : (ctx l 0 s).rxFree = d :: free) (hitems : (hlink l s).items = it :: rest)
    (hplain : (it.event && (hlink l s).wakeDue) = false) : mgmtDeliver l s
      = reportDropped l (mgmtToBuffer l d free it (modLink l (fun y => { y with items := rest }) s)) := by
  simp [mgmtDeliver, hrun, hrx, hroom, hfree, hitems, hplain]

theorem mgmtDeliver_of_wake (hrun : (dmaOk l s && ringsRun s) = true)
    (hrx : (ctx l 0 s).rxState = .running) (hroom : (cq (ctxCq .rx (ctx l 0 s)) s).full = false)
    (hfree : (ctx l 0 s).rxFree = d :: free) (hdue : (hlink l s).wakeDue = true)
    (hevent : (hlink l s).items = [] ∨ ∃ it rest, (hlink l s).items = it :: rest ∧ it.event = true) :
    mgmtDeliver l s = deliverWake l d free s := by
  obtain hitems | ⟨it, rest, hitems, hev⟩ := hevent
  · simp [mgmtDeliver, hrun, hrx, hroom, hfree, hitems, hdue]
  · simp [mgmtDeliver, hrun, hrx, hroom, hfree, hitems, hdue, hev]

theorem hlink_mgmtToBuffer (it : MgmtItem) : hlink l (mgmtToBuffer l d free it s) = (hlink l s).itemStored d free it := by
  simp [mgmtToBuffer, cqPush, writeHost, modCtx, HifLink.itemStored]

theorem mgmtToBuffer_rxFree (it : MgmtItem) : (ctx l 0 (mgmtToBuffer l d free it s)).rxFree = free := by
  simp [mgmtToBuffer, cqPush]

theorem reportDropped_of_none (h : (hlink l s).dropped = 0) : reportDropped l s = s := by simp [reportDropped, h]

/-- Event 0x2030 in the buffer: the latch is cleared, and what waits stays. -/
theorem deliverWake_spec : (hlink l (deliverWake l d free s)).wakeDue = false ∧ (hlink l (deliverWake l d free s)).wakeLatch = 0
    ∧ (hlink l (deliverWake l d free s)).items = (hlink l s).items ∧ (ctx l 0 (deliverWake l d free s)).rxFree = free := by
  have hfree := mgmtToBuffer_rxFree (l := l) (d := d) (free := free) (s := s)
  simp only [ctx, if_true] at hfree
  simp [deliverWake, ctx, hlink_mgmtToBuffer, HifLink.itemStored]
end

/-! ### The statement's parts -/

section
variable {n : CqNo} {s : State}

/-- The timer of a moderated queue raises its vector, or sets it pending (R414). -/
theorem cqFire_spec (hup : inL0 (activeEp (cq n s).link s) s = true) : (cq n (cqFire n s)).since = 0
    ∧ (cq n (cqFire n s)).firstAt = none
    ∧ (flagOf (msixWord (endpoint (activeEp (cq n s).link s) s) (4 * (cq n s).vec.toNat + 3)) 0 = false →
        (cqFire n s).out = s.out ++ [.msix (activeEp (cq n s).link s) (cq n s).vec.toNat])
    ∧ (flagOf (msixWord (endpoint (activeEp (cq n s).link s) s) (4 * (cq n s).vec.toNat + 3)) 0 = true →
        (cqFire n s).out = s.out
        ∧ (endpoint (activeEp (cq n s).link s) (cqFire n s)).pba.getLsbD (cq n s).vec.toNat = true) := by
  have hpower : (endpoint (activeEp (cq n s).link s) s).power = .l0 := (by simpa [inL0] using hup : _ ∧ _).1
  have hact : ∀ g, activeEp (cq n s).link (modCq n g s) = activeEp (cq n s).link s := fun g => rfl
  have hfire : cqFire n s = raiseVecAt (activeEp (cq n s).link s) (cq n s).vec.toNat
      (modCq n (fun q => { q with since := 0, firstAt := none }) s) := by rw [cqFire, raiseVec, hact]
  rw [cq_cqFire]
  refine ⟨rfl, rfl, fun hmask => ?_, fun hmask => ?_⟩
  · rw [hfire, raiseVecAt_of_unmasked (by rwa [endpoint_modCq]) (by rwa [endpoint_modCq])]
    rfl
  · rw [hfire, raiseVecAt_of_masked (by rwa [endpoint_modCq]) (by rwa [endpoint_modCq]), endpoint_modEndpoint]
    exact ⟨modEndpoint_out .., getLsbD_pbaBit _ (by omega)⟩
end

/-- The rings a start names run from their positions (R424, R417). -/
theorem startRings_spec (l : Link) (c m : Nat) (s : State) :
    (named .tx m = true → dmaOk l s = false → (ctx l c (startRings l c m s)).txState = .running)
    ∧ (named .rx m = true → dmaOk l s = false → (ctx l c (startRings l c m s)).rxState = .running)
    ∧ (named .tx m = true → (ctx l c s).txState = .halted → (ctx l c s).haltTx = true → (ctx l c s).haltWhy ≠ .overrun →
        (ctx l c (startRings l c m s)).txFetch = (ctx l c s).haltIdx + 1)
    ∧ (named .tx m = true → (ctx l c s).txState = .stopped →
        (ctx l c (startRings l c m s)).txFetch = BitVec.ofNat 16 (fieldOf (readHost32 l (shAddr l (4 * c) s) s) 0 16))
    ∧ (named .rx m = true → (ctx l c s).rxState = .stopped →
        (ctx l c (startRings l c m s)).rxFetch = BitVec.ofNat 16 (fieldOf (readHost32 l (shAddr l (4 * c) s) s) 16 16)) := by
  obtain ⟨htx, hrx⟩ := startRings_fetch l c m s
  have hdown (h : dmaOk l s = false) : startRings l c m s = ringsPlaced l c m s := by rw [startRings_eq, h]; rfl
  refine ⟨fun hm hdma => ?_, fun hm hdma => ?_, fun hm hst hhalt hwhy => ?_, fun hm hst => ?_, fun hm hst => ?_⟩
  · rw [hdown hdma, (ringsPlaced_tx l c m s hm).1, startTx_running]
  · rw [hdown hdma, ringsPlaced_rx_running l c m s hm]
  · rw [htx, (ringsPlaced_tx l c m s hm).2, startTx_of_halted l c s hst hhalt hwhy]
  · rw [htx, (ringsPlaced_tx l c m s hm).2, startTx_of_stopped l c s hst]
  · rw [hrx, ringsPlaced_rx_of_stopped l c m s hm hst]

section
variable {r : Req} {c m : Nat} {s : State} (hbody : ringBody r.body = some (c, m)) (hown : ownsCqp (reqLink r.port) c s = true)
include hbody hown

/-- What `ring_start` answers and does, its message allowed (R424). -/
theorem ringStart_of_allowed (hauth : allowedAt 0x0801 (authorityOf r.port s) = some true) :
    ringStart r s = if ringBusy (reqLink r.port) c m s then answer r 0x0801 0x0F [] s
      else match ringUnusable (reqLink r.port) c m s with
        | some why => answer r 0x0801 0x06 (d1 why) s
        | none => answer r 0x0801 0 [] (startRings (reqLink r.port) c m s) := by
  rw [ringStart, ringMessage_of_allowed (op := 0x0801) hauth hbody hown]
  rfl

theorem ringStop_of_allowed (hauth : allowedAt 0x0802 (authorityOf r.port s) = some true) :
    ringStop r s = joinStop (reqLink r.port) c m r 0x0802 false [] (beginStop (reqLink r.port) c m s) := by
  rw [ringStop, ringMessage_of_allowed (op := 0x0802) hauth hbody hown]

/-- `ring_stop` leaves no named ring running, and one that has nothing left to complete STOPPED (R425). -/
theorem ringStop_spec (hauth : allowedAt 0x0802 (authorityOf r.port s) = some true) :
    (named .tx m = true → (ctx (reqLink r.port) c (ringStop r s)).txState ≠ .running
      ∧ ((ctx (reqLink r.port) c s).txState = .halted → (ctx (reqLink r.port) c (ringStop r s)).txState = .stopped)
      ∧ (ringIdle (reqLink r.port) c .tx s = true → (ctx (reqLink r.port) c s).rxWait = [] →
          (ctx (reqLink r.port) c (ringStop r s)).txState = .stopped))
    ∧ (named .rx m = true → (ctx (reqLink r.port) c (ringStop r s)).rxState ≠ .running
      ∧ ((ctx (reqLink r.port) c s).rxState = .halted → (ctx (reqLink r.port) c (ringStop r s)).rxState = .stopped)
      ∧ (ringIdle (reqLink r.port) c .rx s = true → (ctx (reqLink r.port) c s).rxWait = [] →
          (ctx (reqLink r.port) c (ringStop r s)).rxState = .stopped)) := by
  rw [ringStop_of_allowed hbody hown hauth]
  obtain ⟨idle, hidle, htx, hrx, -⟩ := stopRings_spec (reqLink r.port) c m r 0x0802 false [] s
  refine ⟨fun hm => ?_, fun hm => ?_⟩
  · rw [htx hm]
    exact ⟨RingState.ended_ne_running _ _, fun hst => by rw [hst, RingState.ended_halted],
      fun hdone hwait => by rw [hidle hwait, hdone, RingState.ended_idle]⟩
  · rw [hrx hm]
    exact ⟨RingState.ended_ne_running _ _, fun hst => by rw [hst, RingState.ended_halted],
      fun hdone hwait => by rw [hidle hwait, hdone, RingState.ended_idle]⟩

/-- `ring_reset` leaves no named ring running, no free Receive descriptor and no flow of a named Send ring (R426). -/
theorem ringReset_spec (hauth : allowedAt 0x0803 (authorityOf r.port s) = some true) :
    (named .tx m = true → (ctx (reqLink r.port) c (ringReset r s)).txState ≠ .running
      ∧ ∀ f ∈ (ringReset r s).bbn.txFlows, ¬(f.id.key = vkey s ∧ f.id.cqp.toNat = c))
    ∧ (named .rx m = true → (ctx (reqLink r.port) c (ringReset r s)).rxState ≠ .running
      ∧ (ctx (reqLink r.port) c (ringReset r s)).rxFree = []) := by
  obtain ⟨gone, answered, heq⟩ := ringReset_eq hauth hbody hown
  have hpurged := ctx_ringsPurged (reqLink r.port) c m gone s
  have hflows := flows_ringsPurged (reqLink r.port) c m gone s
  rw [heq]
  generalize flushTx (reqLink r.port) c _ = u at hpurged hflows ⊢
  obtain ⟨idle, -, htx, hrx, hfree⟩ := stopRings_spec (reqLink r.port) c m r 0x0803 true answered u
  refine ⟨fun hm => ⟨?_, fun f hf => hflows hm ?_⟩, fun hm => ⟨?_, hfree ?_⟩⟩
  · rw [htx hm]
    exact RingState.ended_ne_running _ _
  · rwa [joinStop_txFlows, beginStop_txFlows] at hf
  · rw [hrx hm]
    exact RingState.ended_ne_running _ _
  · rw [view_read (y := (ctx (reqLink r.port) c s).purged gone m) Ctx.rxFree hpurged, Ctx.purged, if_pos hm]
end

/-- A stop that is done: a stopping ring with nothing left to complete is STOPPED, one with something left goes on stopping. -/
theorem finishStops_txState (l : Link) (c : Nat) (s : State) :
    ((ctx l c s).txState = .stopping → ringIdle l c .tx s = true → (ctx l c (finishStops l c s)).txState = .stopped)
    ∧ ((ctx l c s).txState = .stopping → ringIdle l c .tx s = false → (ctx l c (finishStops l c s)).txState = .stopping)
    ∧ ((ctx l c s).txState = .running → (ctx l c (finishStops l c s)).txState = .running) := by
  rw [(finishStops_spec l c s).txState]
  refine ⟨fun hst hidle => ?_, fun hst hidle => ?_, fun hst => ?_⟩ <;> simp [*]

/-- The oldest completion of an enabled queue with a free entry is written (R411, R412, R417). -/
theorem writeCompletion_spec {n : CqNo} {p : CqPend} {rest : List CqPend} {s : State} (hpend : (cq n s).pend = p :: rest) :
    (cq n (writeCompletion n p s)).pos = (if cqSize (cq n s) ≤ (cq n s).pos.toNat + 1 then 0 else (cq n s).pos + 1)
    ∧ (cq n (writeCompletion n p s)).pass = (if cqSize (cq n s) ≤ (cq n s).pos.toNat + 1 then !(cq n s).pass else (cq n s).pass)
    ∧ (p.localTx = none → (cq n (writeCompletion n p s)).pend = rest) := by
  obtain ⟨hpos, hpass, hrest⟩ := cq_writeCompletion n p s
  refine ⟨?_, ?_, fun h => ?_⟩
  · rw [hpos]; simp only [CqState.advanced, CqState.wraps, decide_eq_true_eq]
  · rw [hpass]; simp only [CqState.advanced, CqState.wraps, decide_eq_true_eq]
  · rw [hrest h, hpend, List.tail_cons]

/-- The head item of CQP 0 stands in the next buffer, its bytes cut to the buffer's length (R421 to R423). -/
theorem mgmtDeliver_item_spec {l : Link} {d : RxDesc} {free : List RxDesc} {it : MgmtItem} {rest : List MgmtItem} {s : State}
    (hdropped : (hlink l s).dropped = 0) {t : State}
    (ht : t = reportDropped l (mgmtToBuffer l d free it (modLink l (fun y => { y with items := rest }) s))) :
    (hlink l t).items = rest ∧ (ctx l 0 t).rxFree = free ∧ (memWf hostFill (hlink l s).hmem = true →
      ∀ i, i < min (encodeMgmt it).length d.len →
        memGet hostFill (hlink l t).hmem (d.buf.toNat + i) = (encodeMgmt it).getD i 0) := by
  have hlinks := hlink_mgmtToBuffer (l := l) (d := d) (free := free) (s := modLink l (fun y => { y with items := rest }) s) it
  rw [hlink_modLink] at hlinks
  rw [reportDropped_of_none (by rw [hlinks]; exact hdropped)] at ht
  subst ht
  refine ⟨by rw [hlinks]; rfl, mgmtToBuffer_rxFree it, fun hwf i hi => ?_⟩
  rw [hlinks, HifLink.itemStored]
  dsimp only
  rw [memGet_memStore _ _ _ hwf, if_pos (Nat.le_add_right ..), Nat.add_sub_cancel_left]
  exact getD_take_of_lt hi (Nat.min_le_left ..) _ _

/-- Settles O40: completion writes, moderation, ring messages and CQP 0, each by the rule for its operation. -/
theorem completionsRingsAndTheManagementRing : Obligations.CompletionsRingsAndTheManagementRing := by
  unfold Obligations.CompletionsRingsAndTheManagementRing
  refine ⟨fun n stores s => ?_, fun r c m s hbody hown => ?_, fun l c s => ?_, fun l s d free hrun hrx hroom hfree => ?_⟩
  · have hlink : (cq n s).link = (cq n (hostStores (cq n s).link stores s)).link := by rw [hostStores, cq_modLink]
    rw [exec_completionWrite, exec_cqFullRecheck]
    generalize hostStores (cq n s).link stores s = v at hlink ⊢
    intro q l
    refine ⟨fun hnone => by rw [completionWrite_of_none hnone], fun p rest hpend hon => ⟨fun hfull => ?_, fun hfree => ?_⟩, ?_,
      fun hidle => by rw [exec_moderationTimer, hidle]; rfl, fun hmod hup => ⟨_, ?_, cqFire_spec hup⟩⟩
    · exact ⟨_, rfl, completionWrite_of_full hpend hon hfull⟩
    · obtain ⟨hpos, hpass, hrest⟩ := writeCompletion_spec hpend
      refine ⟨_, rfl, ?_⟩
      rw [completionWrite_of_room hpend hon hfree, writeCompletion_hmem]
      exact ⟨hpos, hpass, hrest, fun hwf a hentry hcons hprod => completionStored_get n p v rfl hwf hentry hcons hprod⟩
    · rfl
    · rw [exec_moderationTimer, hmod]; rfl
  · refine ⟨fun hauth => ?_, fun hauth => ⟨_, exec_ringStop r s, ringStop_spec hbody hown hauth⟩,
      fun hauth => ⟨_, exec_ringReset r s, ringReset_spec hbody hown hauth⟩⟩
    rw [exec_ringStart, ringStart_of_allowed hbody hown hauth]
    exact ⟨fun hbusy => by rw [hbusy]; rfl, fun why hbusy hwhy => by rw [hbusy, hwhy]; rfl,
      fun hbusy hok => ⟨_, by rw [hbusy, hok]; rfl, startRings_spec _ c m s⟩⟩
  · exact ⟨_, exec_ringStopDone l c s, finishStops_txState l c.val s⟩
  · refine ⟨_, exec_mgmtItemDelivery l s, fun it rest hitems hplain hdropped => ?_, fun hdue hevent => ?_⟩
    · exact mgmtDeliver_item_spec hdropped (mgmtDeliver_of_item hrun hrx hroom hfree hitems hplain)
    · rw [mgmtDeliver_of_wake hrun hrx hroom hfree hdue hevent]
      exact deliverWake_spec

end Sys2Proof.Machine
end

section
/-! SUPPORT. Descriptors fetched and judged, failed host reads, deliveries and waits that end (R401, R404 to R406, R412, R427, R448). Settles
O39. -/
namespace Sys2Proof.Machine

theorem exec_descriptorFetch (l : Link) (q : Cqp) (stores : List Host.Cell) (s : State) : exec (.descriptorFetch l q stores) s
    = .next (preemptAll (if ownsCqp l q.val (hostStores l stores s) && fetchAllowed l q.val (hostStores l stores s)
        then fetchOne l q.val (hostStores l stores s) else hostStores l stores s)) := rfl
theorem exec_receiveDescriptorFetch (l : Link) (q : Cqp) (stores : List Host.Cell) (s : State) :
    exec (.receiveDescriptorFetch l q stores) s = .next (if rxFetchAllowed l q.val (hostStores l stores s)
      then fetchRx l q.val (hostStores l stores s) else hostStores l stores s) := rfl
theorem exec_hostReadFail (l : Link) (q : Cqp) (r : Ring) (desc : Bool) (s : State) :
    exec (.hostReadFail l q r desc) s = .next (readFailed l q.val r desc s) := rfl
theorem exec_receiveDelivery (l : Link) (q : Cqp) (s : State) : exec (.receiveDelivery l q) s = .next (deliverHead l q.val s) := rfl
theorem exec_rxwaitExpiry (l : Link) (q : Cqp) (s : State) : exec (.rxwaitExpiry l q) s = .next (expireWait l q.val s) := rfl

/-! ### A Send descriptor decided at its fetch (R404, R412) -/

section
variable (l x : Link) (c e : Nat) (t : TxPend) (st : Nat) (s : State)

/-- Completions leave the ring that are decided; nothing else changes. -/
theorem flushTx_pushes : HostKeeps id (modCtx l c (fun y => { y with txPend := (splitDone (ctx l c s).txPend).2 }) s) (flushTx l c s) :=
  foldl_hostKeeps (f := fun t (d : TxPend × Byte) => cqPush (ctxCq .tx (ctx l c s)) (txCompletion l c d.1 d.2) t)
    (fun t _ => cqPush_hostKeeps t _ _) _ _

theorem ctx_flushTx_ne (h : e ≠ c) : ctx x e (flushTx l c s) = ctx x e s :=
  ((flushTx_pushes l c s).ctx x e).trans (ctx_modCtx_ne _ _ _ _ _ _ h)

theorem ctx_decideNow_ne (h : e ≠ c) : ctx x e (decideNow l c t st s) = ctx x e s := by
  rw [decideNow, ctx_flushTx_ne _ _ _ _ _ h, pushPend, ctx_modCtx_ne _ _ _ _ _ _ h]

/-- A context from whose Send ring a descriptor has been fetched. -/
def Ctx.fetched (idx : Half) (y : Ctx) : Ctx :=
  { y with txFetch := y.txFetch + 1, redo := y.redo.filter fun r => r.idx != idx }

theorem ctx_pushPend : (ctx l c (pushPend l c t s)).unsent = ((ctx l c s).fetched t.idx).unsent := by
  rw [pushPend, ctx_modCtx]
  rfl

theorem ctx_decideNow : (ctx l c (decideNow l c t st s)).unsent = ((ctx l c s).fetched t.idx).unsent := by
  rw [decideNow, (flushTx_hostKeeps (view := Ctx.unsent) _ (fun _ _ => rfl) l c).ctx l c, ctx_pushPend]

theorem decideNow_txFetch : (ctx l c (decideNow l c t st s)).txFetch = (ctx l c s).txFetch + 1 :=
  view_read (y := (ctx l c s).fetched t.idx) Ctx.txFetch (ctx_decideNow ..)

theorem decideNow_txState : (ctx l c (decideNow l c t st s)).txState = (ctx l c s).txState :=
  view_read (y := (ctx l c s).fetched t.idx) Ctx.txState (ctx_decideNow ..)

theorem decideNow_rxState : (ctx l c (decideNow l c t st s)).rxState = (ctx l c s).rxState :=
  view_read (y := (ctx l c s).fetched t.idx) Ctx.rxState (ctx_decideNow ..)

/-- A descriptor decided with none before it completes at once. -/
theorem cq_decideNow (h : (ctx l c s).txPend = []) : (cq (ctxCq .tx (ctx l c s)) (decideNow l c t st s)).pend
    = (cq (ctxCq .tx (ctx l c s)) s).pend
      ++ [txCompletion l c { t with result := some (BitVec.ofNat 8 st), time := trainTime s } (BitVec.ofNat 8 st)] := by
  simp [decideNow, flushTx, pushPend, h, splitDone, cqPush, ctxCq]

theorem ctx_haltRing_ne (r : Ring) (idx : Half) (why : HaltWhy) (h : e ≠ c) : ctx x e (haltRing l c r idx why s) = ctx x e s := by
  cases r <;> exact (ctx_raise ..).trans (ctx_modCtx_ne _ _ _ _ _ _ h)

/-- A Send ring halts where its descriptor was decided: its Receive ring and the rings of other CQPs run on. -/
theorem haltTx_decided (idx : Half) (why : HaltWhy) :
    (ctx l c (haltRing l c .tx idx why (decideNow l c t st s))).txState = .halted
    ∧ (ctx l c (haltRing l c .tx idx why (decideNow l c t st s))).haltIdx = idx
    ∧ (ctx l c (haltRing l c .tx idx why (decideNow l c t st s))).haltWhy = why
    ∧ (ctx l c (haltRing l c .tx idx why (decideNow l c t st s))).rxState = (ctx l c s).rxState
    ∧ (ctx l c (haltRing l c .tx idx why (decideNow l c t st s))).txFetch = (ctx l c s).txFetch + 1
    ∧ ∀ e, e ≠ c → ctx l e (haltRing l c .tx idx why (decideNow l c t st s)) = ctx l e s := by
  rw [ctx_haltRing]
  exact ⟨rfl, rfl, rfl, decideNow_rxState .., decideNow_txFetch ..,
    fun e he => (ctx_haltRing_ne _ _ _ _ _ _ _ _ he).trans (ctx_decideNow_ne _ _ _ _ _ _ _ he)⟩
end

/-! ### A Send descriptor admitted (R401, R448) -/

theorem stampFlow_hif (f : NatFrame) (s : State) : (stampFlow f s).2.hif = s.hif := rfl

theorem numberFrame_hif (redo : Option TxPend) (f : NatFrame) (s : State) : (numberFrame redo f s).2.hif = s.hif := by
  cases redo with
  | none => exact stampFlow_hif f s
  | some r => rfl

theorem noteRefused_hostKeeps {α : Type} {view : Ctx → α} (c st : Nat) (s : State) : HostKeeps view s (noteRefused c st s) := by
  have hcount : HostKeeps view s (if st = 1 then
      { s with arb.refusedAt := Tab.put (2 * c + (st - 1)) s.now s.arb.refusedAt, arb.cntCongestion := s.arb.cntCongestion + 1 }
      else { s with arb.refusedAt := Tab.put (2 * c + (st - 1)) s.now s.arb.refusedAt, arb.cntBudget := s.arb.cntBudget + 1 }) :=
    ite_hostKeeps (.of_hif rfl) (.of_hif rfl)
  exact ite_hostKeeps (hcount.trans (raise_hostKeeps ..)) hcount

section
variable {l : Link} {c : Nat} {d : SendDesc} {r : Route} {t : TxPend} {redo : Option TxPend} {s : State}

/-- An admitted descriptor is fetched, and its frame goes its way. -/
theorem sendAdmitted_hostKeeps : ∃ p u, u.hif = s.hif ∧ HostKeeps Ctx.quiet (pushPend l c p u) (sendAdmitted l c d r t redo s) := by
  exact ⟨_, _, numberFrame_hif .., ite_hostKeeps ((launchEvery_hostKeeps ..).trans (deliverLocal_hostKeeps ..))
    (ite_hostKeeps (ite_hostKeeps (completeOrigin_hostKeeps _ (fun _ _ => rfl) ..) (deliverLocal_hostKeeps ..))
      (launch_hostKeeps _ (fun _ _ => rfl) ..))⟩

theorem sendAdmitted_txFetch : (ctx l c (sendAdmitted l c d r t redo s)).txFetch = (ctx l c s).txFetch + 1 := by
  obtain ⟨p, u, hu, hkeeps⟩ := sendAdmitted_hostKeeps (l := l) (c := c) (d := d) (r := r) (t := t) (redo := redo) (s := s)
  rw [hkeeps.at Ctx.txFetch, view_read Ctx.txFetch (ctx_pushPend l c p u), ctx_of_hif hu]
  rfl
end

/-! ### What becomes of a client's descriptor -/

section
variable {l : Link} {c : Nat} {s : State}

theorem fetchOne_of_client (hc : c ≠ 0) (hcan : canOf c s = none) (hbind : bindOf c s = none) :
    fetchOne l c s = fetchClient l c s := by
  simp only [fetchOne, hc, if_false, hcan, hbind]

/-- A malformed descriptor halts its ring at it. -/
theorem fetchClient_of_malformed (h : sendMalformed (nextSend l c s) (ctxUrg (ctx l c s)) s = true) :
    (ctx l c (fetchClient l c s)).txState = .halted ∧ (ctx l c (fetchClient l c s)).haltIdx = (ctx l c s).txFetch
    ∧ (ctx l c (fetchClient l c s)).haltWhy = .malformed ∧ (ctx l c (fetchClient l c s)).rxState = (ctx l c s).rxState
    ∧ (ctx l c (fetchClient l c s)).txFetch = (ctx l c s).txFetch + 1
    ∧ ∀ e, e ≠ c → ctx l e (fetchClient l c s) = ctx l e s := by
  have heq : fetchClient l c s = decideMalformed l c
      { newPend (ctx l c s).txFetch (nextSend l c s).cookie (nextSend l c s).len s with classU := (nextSend l c s).cls == 0 } s := if_pos h
  rw [heq]
  exact haltTx_decided ..

/-- A descriptor with no way completes with its status. -/
theorem fetchClient_of_status (h : sendMalformed (nextSend l c s) (ctxUrg (ctx l c s)) s = false) {st : Nat}
    (hst : (routeDesc (nextSend l c s) s).2 = some st) :
    (ctx l c (fetchClient l c s)).txFetch = (ctx l c s).txFetch + 1
    ∧ (ctx l c (fetchClient l c s)).txState = (ctx l c s).txState
    ∧ ((ctx l c s).txPend = [] → ∃ u : TxPend, u.cookie = (nextSend l c s).cookie ∧ u.idx = (ctx l c s).txFetch
        ∧ (cq (ctxCq .tx (ctx l c s)) (fetchClient l c s)).pend
          = (cq (ctxCq .tx (ctx l c s)) s).pend ++ [txCompletion l c u (BitVec.ofNat 8 st)]) := by
  obtain ⟨t, hcookie, hidx, heq⟩ : ∃ t : TxPend, t.cookie = (nextSend l c s).cookie ∧ t.idx = (ctx l c s).txFetch
      ∧ fetchClient l c s = decideNow l c t st s := by
    rw [nextSend] at h hst
    simp only [fetchClient, h, hst, Bool.false_eq_true, if_false]
    refine ⟨_, ?_, ?_, rfl⟩ <;> rfl
  rw [heq]
  refine ⟨decideNow_txFetch .., decideNow_txState ..,
    fun hnone => ⟨_, ?_, ?_, cq_decideNow l c t st s hnone⟩⟩
  · exact hcookie
  · exact hidx

/-- What admission makes of the descriptor a client ring fetches next. -/
def admissionOf (l : Link) (c : Nat) (s : State) : Admission :=
  admission l c (nextSend l c s).cls (nextSend l c s).raw (routeLane (routeDesc (nextSend l c s) s).1) (42 + (nextSend l c s).len)
    ((ctx l c s).redo.find? fun r => r.idx == (ctx l c s).txFetch).isSome s

/-- A descriptor with a way waits, or moves the fetch position on. -/
theorem fetchClient_of_route (h : sendMalformed (nextSend l c s) (ctxUrg (ctx l c s)) s = false)
    (hst : (routeDesc (nextSend l c s) s).2 = none) :
    (admissionOf l c s = .wait → fetchClient l c s = s)
    ∧ (admissionOf l c s ≠ .wait → (ctx l c (fetchClient l c s)).txFetch = (ctx l c s).txFetch + 1) := by
  rw [admissionOf, nextSend] at *
  simp only [fetchClient, h, hst, Bool.false_eq_true, if_false]
  split
  case h_1 hwait => exact ⟨fun _ => rfl, fun hne => absurd hwait hne⟩
  case h_2 st hrefused =>
    refine ⟨fun hwait => Admission.noConfusion (hrefused.symm.trans hwait), fun _ => ?_⟩
    rw [(noteRefused_hostKeeps (view := id) ..).at Ctx.txFetch, decideNow_txFetch]
  case h_3 haccept =>
    exact ⟨fun hwait => absurd (haccept.symm.trans hwait) (by decide), fun _ => sendAdmitted_txFetch⟩
end

/-! ### Receive descriptors, and host reads that fail (R405, R427) -/

section
variable (l x : Link) (c e : Nat) (s : State)

/-- A Receive ring that drops its waiting frames leaves the rings of other CQPs, but for Send descriptors that complete. -/
theorem ctx_dropWaiting_ne (h : e ≠ c) : (ctx x e (dropWaiting l c s)).unsent = (ctx x e s).unsent := by
  rw [dropWaiting]
  split
  · rfl
  · dsimp only
    rw [(completeAll_hostKeeps (view := Ctx.unsent) _ (fun _ _ => rfl) _).ctx,
      (foldl_hostKeeps (view := Ctx.unsent) (f := fun t g => rxReport l c g t) (fun t g => rxReport_hostKeeps t l c g) _ _).ctx,
      (countGaps_hostKeeps (view := Ctx.unsent) ..).ctx, ctx_modCtx_ne _ _ _ _ _ _ h]

theorem ctx_haltRx_ne (idx : Half) (why : HaltWhy) (h : e ≠ c) : (ctx x e (haltRx l c idx why s)).unsent = (ctx x e s).unsent := by
  rw [haltRx, ctx_dropWaiting_ne _ _ _ _ _ h, ctx_haltRing_ne _ _ _ _ _ _ _ _ h]

/-- A halted Receive ring, and the Send ring beside it. -/
theorem haltRx_states (idx : Half) (why : HaltWhy) : (ctx l c (haltRx l c idx why s)).rxState = .halted
    ∧ (ctx l c (haltRx l c idx why s)).haltIdx = idx ∧ (ctx l c (haltRx l c idx why s)).haltWhy = why
    ∧ (ctx l c (haltRx l c idx why s)).txState = (ctx l c s).txState := by
  have hquiet := ctx_haltRx l c s idx why
  exact ⟨view_read (view := Ctx.quiet) Ctx.rxState hquiet, view_read (view := Ctx.quiet) Ctx.haltIdx hquiet,
    view_read (view := Ctx.quiet) Ctx.haltWhy hquiet, (view_read (view := Ctx.quiet) Ctx.txState hquiet).trans rfl⟩
end

section
variable {l : Link} {c : Nat} {s : State}

theorem fetchRx_of_good {d : Dword × Nat} (h : recvDesc (ringEntry l c .rx (ctx l c s).rxFetch s) = some d) :
    (ctx l c (fetchRx l c s)).rxFetch = (ctx l c s).rxFetch + 1
    ∧ (ctx l c (fetchRx l c s)).rxFree = (ctx l c s).rxFree ++ [⟨(ctx l c s).rxFetch, d.1, d.2⟩] := by
  simp [fetchRx, h]

theorem fetchRx_of_bad (h : recvDesc (ringEntry l c .rx (ctx l c s).rxFetch s) = none) (hfree : (ctx l c s).rxFree = []) :
    (ctx l c (fetchRx l c s)).rxState = .halted ∧ (ctx l c (fetchRx l c s)).haltIdx = (ctx l c s).rxFetch
    ∧ (ctx l c (fetchRx l c s)).haltWhy = .malformed ∧ (ctx l c (fetchRx l c s)).txState = (ctx l c s).txState := by
  have heq : fetchRx l c s = haltRx l c (ctx l c s).rxFetch .malformed (modCtx l c (fun y => { y with rxFetch := y.rxFetch + 1 })
      (cqPush (ctxCq .rx (ctx l c s)) (rxRefused l c s) s)) := by simp [fetchRx, h, hfree]
  obtain ⟨hrx, hidx, hwhy, htx⟩ := haltRx_states l c (modCtx l c (fun y => { y with rxFetch := y.rxFetch + 1 })
    (cqPush (ctxCq .rx (ctx l c s)) (rxRefused l c s) s)) (ctx l c s).rxFetch .malformed
  rw [heq]
  exact ⟨hrx, hidx, hwhy, htx.trans (by simp [cqPush])⟩

/-- A read that fails halts a Send ring at its position, whether or not the descriptor itself was read. -/
theorem readFailed_tx (desc : Bool) (hfetch : fetchAllowed l c s = true) (hown : ownsCqp l c s = true) :
    (ctx l c (readFailed l c .tx desc s)).txState = .halted ∧ (ctx l c (readFailed l c .tx desc s)).haltWhy = .hostRead
    ∧ (ctx l c (readFailed l c .tx desc s)).haltIdx = (ctx l c s).txFetch
    ∧ (ctx l c (readFailed l c .tx desc s)).rxState = (ctx l c s).rxState
    ∧ ∀ e, e ≠ c → ctx l e (readFailed l c .tx desc s) = ctx l e s := by
  obtain ⟨t, heq⟩ : ∃ t, readFailed l c .tx desc s
      = haltRing l c .tx (ctx l c s).txFetch .hostRead (if desc then decideNow l c t stMalformed s else s) :=
    ⟨_, if_pos (by rw [hfetch, hown]; rfl)⟩
  rw [heq]
  cases desc with
  | true =>
    obtain ⟨htx, hidx, hwhy, hrx, -, hne⟩ := haltTx_decided l c t stMalformed s (ctx l c s).txFetch .hostRead
    exact ⟨htx, hwhy, hidx, hrx, hne⟩
  | false =>
    rw [ctx_haltRing]
    exact ⟨rfl, rfl, rfl, rfl, fun e he => ctx_haltRing_ne _ _ _ _ _ _ _ _ he⟩

/-- A read that fails halts a Receive ring at its position; other CQPs' rings run on. -/
theorem readFailed_rx (desc : Bool) (hfetch : rxFetchAllowed l c s = true) :
    (ctx l c (readFailed l c .rx desc s)).rxState = .halted ∧ (ctx l c (readFailed l c .rx desc s)).haltWhy = .hostRead
    ∧ (ctx l c (readFailed l c .rx desc s)).haltIdx = (ctx l c s).rxFetch
    ∧ (ctx l c (readFailed l c .rx desc s)).txState = (ctx l c s).txState
    ∧ ∀ e, e ≠ c → (ctx l e (readFailed l c .rx desc s)).unsent = (ctx l e s).unsent := by
  obtain ⟨u, heq, htx, hne⟩ : ∃ u, readFailed l c .rx desc s = haltRx l c (ctx l c s).rxFetch .hostRead u
      ∧ (ctx l c u).txState = (ctx l c s).txState ∧ ∀ e, e ≠ c → ctx l e u = ctx l e s := by
    refine ⟨_, if_pos hfetch, ?_, fun e he => ?_⟩
    · cases desc <;> simp [cqPush]
    · cases desc <;> simp [cqPush, ctx_modCtx_ne _ _ _ _ _ _ he]
  obtain ⟨hrx, hidx, hwhy, hstays⟩ := haltRx_states l c u (ctx l c s).rxFetch .hostRead
  rw [heq]
  exact ⟨hrx, hwhy, hidx, hstays.trans htx, fun e he => by rw [ctx_haltRx_ne _ _ _ _ _ _ _ he, hne e he]⟩
end

/-! ### Deliveries to buffers (R406, R412) -/

section
variable (it : RxItemDue) (s : State)

theorem bump_hostKeeps {α : Type} {view : Ctx → α} (n : PortNo) (off : Nat) (s : State) : HostKeeps view s (bump n off s) :=
  addCount_hostKeeps ..

theorem countCsums_hostKeeps {α : Type} {view : Ctx → α} : HostKeeps view s (countCsums it s) := by
  rw [countCsums]
  split
  · exact ite_hostKeeps (bump_hostKeeps ..) (.refl _ s)
  · exact .refl _ s

theorem cq_bump (q : CqNo) (n : PortNo) (off : Nat) : cq q (bump n off s) = cq q s := by
  rw [bump, addCount]
  dsimp only
  split
  · rfl
  · rw [cq_raise]
    rfl

theorem cq_countCsums (q : CqNo) : cq q (countCsums it s) = cq q s := by
  rw [countCsums]
  split
  · split
    · exact cq_bump ..
    · rfl
  · rfl
end

section
variable {l : Link} {c : Nat} {it : RxItemDue} {rest : List RxItemDue} {s : State}
  (hwait : (ctx l c s).rxWait = it :: rest) (hrun : (ownsCqp l c s && dmaOk l s && ringsRun s) = true)
  (hroom : (cq (ctxCq .rx (ctx l c s)) s).full = false)
include hwait hrun hroom

/-- A GAP report is delivered in its turn and takes no descriptor. -/
theorem deliverHead_of_gap (hgap : it.gapCount ≠ 0) : (ctx l c (deliverHead l c s)).rxWait = rest
    ∧ (ctx l c (deliverHead l c s)).rxFree = (ctx l c s).rxFree ∧ hostSame s (deliverHead l c s)
    ∧ (cq (ctxCq .rx (ctx l c s)) (deliverHead l c s)).pend = (cq (ctxCq .rx (ctx l c s)) s).pend
        ++ [rxCompletion l c it 0x0A (nextRxIdx (ctx l c s)) true 0] := by
  have heq : deliverHead l c s = cqPush (ctxCq .rx (ctx l c s)) (rxCompletion l c it 0x0A (nextRxIdx (ctx l c s)) true 0)
      (modCtx l c (fun y => { y with rxWait := rest }) s) := by simp [deliverHead, hrun, hroom, hwait, hgap]
  have hkeeps : HostKeeps (fun _ => ()) s (deliverHead l c s) := by
    rw [heq]
    exact (modCtx_hostKeeps s l c).trans (cqPush_hostKeeps ..)
  refine ⟨?_, ?_, hkeeps.hostSame, ?_⟩ <;> rw [heq] <;> simp [cqPush]

/-- A context from whose waiting frames and free descriptors the first have been taken. -/
def Ctx.tookHead (rest : List RxItemDue) (free : List RxDesc) (y : Ctx) : Ctx := { y with rxWait := rest, rxFree := free }

/-- A frame goes to the next buffer, cut to the buffer's length, with its completion. -/
theorem deliverHead_of_buffer (hgap : it.gapCount = 0) {d : RxDesc} {free : List RxDesc} (hfree : (ctx l c s).rxFree = d :: free) :
    (ctx l c (deliverHead l c s)).rxWait = rest ∧ (ctx l c (deliverHead l c s)).rxFree = free
    ∧ (cq (ctxCq .rx (ctx l c s)) (deliverHead l c s)).pend = (cq (ctxCq .rx (ctx l c s)) s).pend
        ++ [rxCompletion l c it (if it.truncated || decide (d.len < it.data.length) then 0x0B else 0) d.idx false
              (min it.data.length d.len)]
    ∧ (memWf hostFill (hlink l s).hmem = true →
        (∀ i, i < min it.data.length d.len →
          memGet hostFill (hlink l (deliverHead l c s)).hmem (d.buf.toNat + i) = it.data.getD i 0)
        ∧ ∀ a, a < d.buf.toNat ∨ d.buf.toNat + min it.data.length d.len ≤ a →
            memGet hostFill (hlink l (deliverHead l c s)).hmem a = memGet hostFill (hlink l s).hmem a) := by
  have heq : deliverHead l c s = cqPush (ctxCq .rx (ctx l c s))
      (rxCompletion l c it (if it.truncated || decide (d.len < it.data.length) then 0x0B else 0) d.idx false
        (min it.data.length d.len))
      (writeHost l d.buf (it.data.take (min it.data.length d.len))
        (countCsums it (modCtx l c (Ctx.tookHead rest free) s))) := by
    simp [deliverHead, hrun, hroom, hwait, hgap, hfree]
    rfl
  have hctx := (countCsums_hostKeeps (view := id) it (modCtx l c (Ctx.tookHead rest free) s)).ctx l c
  have hmem : (hlink l (countCsums it (modCtx l c (Ctx.tookHead rest free) s))).hmem = (hlink l s).hmem := by
    rw [(countCsums_hostKeeps (view := id) it _).hmem, modCtx_hmem]
  simp only [id, ctx_modCtx] at hctx
  refine ⟨?_, ?_, ?_, fun hwf => ⟨fun i hi => ?_, fun a ha => ?_⟩⟩ <;> rw [heq, cqPush]
  · rw [ctx_modCq, ctx_writeHost, hctx, Ctx.tookHead]
  · rw [ctx_modCq, ctx_writeHost, hctx, Ctx.tookHead]
  · rw [cq_modCq, cq_writeHost, cq_countCsums, cq_modCtx]
  · rw [modCq_hlink, writeHost_get _ _ _ _ _ (by rwa [hmem]), if_pos (Nat.le_add_right ..), Nat.add_sub_cancel_left]
    exact getD_take_of_lt hi (Nat.min_le_left ..) _ _
  · rw [modCq_hlink, writeHost_get_outside (by rwa [hmem]) (by rw [List.length_take]; omega), hmem]
end

/-! ### The end of RXWAIT (R406) -/

section
variable {now : Ns} {w : List RxItemDue}

theorem expireRun_of_waiting (h : ∀ i ∈ w, now < i.waitUntil) : expireRun now none w = (w, []) := by
  cases w with
  | nil => rfl
  | cons it rest =>
    have hlater : ¬it.waitUntil ≤ now := Nat.not_le.mpr (h it (List.mem_cons_self ..))
    simp [expireRun, hlater]

/-- Where all have waited too long, all are dropped, and only reports of lost numbers stay. -/
theorem expireRun_of_expired (h : ∀ i ∈ w, i.waitUntil ≤ now ∧ i.gapCount = 0) (g : Option RxItemDue) (hg : ∀ p ∈ g, p.gapCount ≠ 0) :
    (expireRun now g w).2 = w ∧ ∀ i ∈ (expireRun now g w).1, i.gapCount ≠ 0 := by
  induction w generalizing g with
  | nil => exact ⟨rfl, fun i hi => hg i (Option.mem_toList.mp hi)⟩
  | cons it rest ih =>
    obtain ⟨huntil, hcount⟩ := h it (List.mem_cons_self ..)
    have hrest : ∀ i ∈ rest, i.waitUntil ≤ now ∧ i.gapCount = 0 := fun i hi => h i (List.mem_cons_of_mem _ hi)
    have hgap : ∀ p ∈ some { it with gapCount := 1, data := [], localTx := none }, p.gapCount ≠ 0 := by
      rintro p ⟨⟩
      exact Nat.one_ne_zero
    rw [expireRun, if_pos (by simp [huntil, hcount])]
    dsimp only
    split
    · obtain ⟨hdrop, hkept⟩ := ih hrest none (by simp)
      exact ⟨congrArg _ hdrop, fun i hi => (List.mem_append.mp hi).elim (fun hi => hg i (Option.mem_toList.mp hi)) (hkept i)⟩
    · obtain ⟨hdrop, hkept⟩ := ih hrest _ hgap
      exact ⟨congrArg _ hdrop, hkept⟩
    · next p _ =>
      split
      · obtain ⟨hdrop, hkept⟩ := ih hrest (some { p with gapCount := p.gapCount + 1 }) (by rintro p ⟨⟩; exact Nat.succ_ne_zero _)
        exact ⟨congrArg _ hdrop, hkept⟩
      · obtain ⟨hdrop, hkept⟩ := ih hrest _ hgap
        refine ⟨congrArg _ hdrop, fun i hi => ?_⟩
        obtain rfl | hi := List.mem_cons.mp hi
        · exact hg _ rfl
        · exact hkept i hi
end

section
variable {l : Link} {c : Nat} {s : State}

theorem expireWait_of_free (h : (ctx l c s).rxFree ≠ []) : expireWait l c s = s := by
  simp [expireWait, h]

/-- A context whose waiting frames have been judged: some stay, some are dropped and counted. -/
def Ctx.waited (r : List RxItemDue × List RxItemDue) (y : Ctx) : Ctx :=
  { y with rxWait := r.1, cntRxNobuf := y.cntRxNobuf + BitVec.ofNat 32 r.2.length }

theorem expireWait_eq (h : (ctx l c s).rxFree = []) : ∃ n, expireWait l c s
    = (expireRun s.now none (ctx l c s).rxWait).2.foldl (fun t it => completeOrigin it.localTx stOk id t)
        (countGaps n (modCtx l c (Ctx.waited (expireRun s.now none (ctx l c s).rxWait)) s)) :=
  ⟨_, if_neg (by rw [h]; decide)⟩

/-- With no descriptor free, what has waited too long is dropped and counted; no byte of memory changes. -/
theorem expireWait_spec (h : (ctx l c s).rxFree = []) : hostSame s (expireWait l c s)
    ∧ (ctx l c (expireWait l c s)).rxWait = (expireRun s.now none (ctx l c s).rxWait).1
    ∧ (ctx l c (expireWait l c s)).cntRxNobuf
        = (ctx l c s).cntRxNobuf + BitVec.ofNat 32 (expireRun s.now none (ctx l c s).rxWait).2.length := by
  obtain ⟨n, heq⟩ := expireWait_eq h
  generalize expireRun s.now none (ctx l c s).rxWait = r at heq ⊢
  have hdrop : HostKeeps Ctx.unsent (modCtx l c (Ctx.waited r) s) (expireWait l c s) := by
    rw [heq]
    exact (countGaps_hostKeeps ..).trans (completeAll_hostKeeps _ (fun _ _ => rfl) _)
  have hkeeps : HostKeeps (fun _ => ()) s (expireWait l c s) := (modCtx_hostKeeps s l c).trans hdrop.through
  rw [hdrop.at Ctx.rxWait, hdrop.at Ctx.cntRxNobuf, ctx_modCtx]
  exact ⟨hkeeps.hostSame, rfl, rfl⟩
end

/-- Settles O39: a descriptor by its judgement at the fetch, a failed read by the ring it halts, an item by what is at the head. -/
theorem descriptorsAreFetchedJudgedAndDelivered : Obligations.DescriptorsAreFetchedJudgedAndDelivered := by
  intro l q stores s c v x k
  rw [exec_descriptorFetch, exec_receiveDescriptorFetch]
  refine ⟨fun hstays => ?_, fun hown hfetch hc hcan hbind => ?_, fun hstays => ?_, fun hfetch => ⟨_, by rw [if_pos hfetch], ?_⟩,
    fun desc => ⟨fun hfetch hown => ⟨_, exec_hostReadFail l q .tx desc s, readFailed_tx desc hfetch hown⟩, fun hfetch => ?_⟩,
    fun it rest hwait hrun hroom => ?_, fun hfree => ?_, fun hfree => ?_⟩
  · rw [if_neg (by rw [hstays]; decide)]
  · refine ⟨_, by rw [if_pos (by rw [hown, hfetch]; rfl)], ?_⟩
    rw [fetchOne_of_client hc hcan hbind]
    simp only [ctx_preemptAll, cq_preemptAll]
    refine ⟨fetchClient_of_malformed, fun hgood => ⟨fun st hst => fetchClient_of_status hgood hst, fun hroute => ?_⟩⟩
    obtain ⟨hwait, hmoves⟩ := fetchClient_of_route hgood hroute
    exact ⟨fun ha => congrArg preemptAll (hwait ha), hmoves⟩
  · rw [if_neg (by rw [hstays]; decide)]
  · exact ⟨fun d hd => fetchRx_of_good hd, fun hbad hfree => fetchRx_of_bad hbad hfree⟩
  · obtain ⟨hrx, hwhy, hidx, htx, hne⟩ := readFailed_rx desc hfetch
    refine ⟨_, exec_hostReadFail l q .rx desc s, hrx, hwhy, hidx, htx, fun e he => ?_⟩
    exact ⟨view_read Ctx.txState (hne e he), view_read Ctx.rxState (hne e he), view_read Ctx.txFetch (hne e he),
      view_read Ctx.rxFetch (hne e he), view_read Ctx.rxWait (hne e he)⟩
  · exact ⟨fun hgap => ⟨_, exec_receiveDelivery l q s, deliverHead_of_gap hwait hrun hroom hgap⟩,
      fun hgap d free hfree => ⟨_, exec_receiveDelivery l q s, deliverHead_of_buffer hwait hrun hroom hgap hfree⟩⟩
  · rw [exec_rxwaitExpiry, expireWait_of_free hfree]
  · obtain ⟨hmem, hkept, hcount⟩ := expireWait_spec hfree
    refine ⟨_, exec_rxwaitExpiry l q s, hmem, fun hwaiting => ?_, fun hexpired => ?_⟩
    · rw [hkept, hcount, expireRun_of_waiting hwaiting]
      exact ⟨rfl, BitVec.add_zero _⟩
    · obtain ⟨hdrop, hgaps⟩ := expireRun_of_expired hexpired none (by simp)
      rw [hkept, hcount, hdrop]
      exact ⟨rfl, hgaps⟩

end Sys2Proof.Machine
end

section
/-! SUPPORT. The arbiter of host memory (R433, R435 to R439): the order in which inputs wait, what each of the three picks chooses, what a
decision changes, and what a write of its settings does. Settles O43. -/
namespace Sys2Proof.Machine

theorem exec_arbiterDecision (raised : List (BitVec 16)) (req acc : BitVec 16) (w : Bool) (s : State) :
    exec (.arbiterDecision ⟨raised, req⟩ acc w) s = .next (decideArb raised req acc w s) := rfl
theorem exec_arbSettingsWrite (ep : Endpoint) (isClass : Bool) (v : Word) (s : State) :
    exec (.arbSettingsWrite ep isClass v) s = .next (hostAccess ep true (if isClass then 0x3004 else 0x3000) v s) := rfl

theorem arb_onlyChanges (x : ArbUnit) (s : State) : onlyChanges [.arb] s { s with arb := x } := by
  refine ⟨rfl, rfl, rfl, fun p hp => ?_⟩
  cases p <;> simp [samePart] at hp ⊢

/-- What changes the arbiter only leaves host memory. -/
theorem hostSame_of_arbOnly {s t : State} (h : onlyChanges [.arb] s t) : hostSame s t := by
  obtain ⟨-, -, -, hparts⟩ := h
  have hhif : t.hif = s.hif := hparts .hif (by decide)
  exact hostSame_of_hmem fun l => by cases l <;> simp [hlink, hhif]

/-! ### The order in which inputs wait (R437) -/

/-- The place of an input in the order of requests; one that does not wait stands at the end. -/
def waitPlace (i : Fin 16) (s : State) : Nat := s.arb.waitSince[i].getD s.arb.decisions

/-- The arbiter without its requests and their order. -/
def ArbUnit.unordered (a : ArbUnit) : ArbUnit := { a with req := 0, waitSince := Vector.replicate 16 none, decisions := 0 }

section
variable (m req : BitVec 16) (raised : List (BitVec 16)) (s : State) (i : Fin 16)

theorem noteRaised_waitSince : (noteRaised m s).arb.waitSince[i]
    = if m.getLsbD i.val then some (waitPlace i s) else s.arb.waitSince[i] := by
  simp [noteRaised, waitPlace]

/-- An input that waits keeps its place when requests are raised. -/
theorem noteRaised_keeps {k : Nat} (h : s.arb.waitSince[i] = some k) : (noteRaised m s).arb.waitSince[i] = some k := by
  rw [noteRaised_waitSince, waitPlace, h, Option.getD_some, ite_self]

theorem foldl_noteRaised_keeps {k : Nat} (h : s.arb.waitSince[i] = some k) :
    (raised.foldl (fun u m => noteRaised (m &&& req) u) s).arb.waitSince[i] = some k := by
  induction raised generalizing s with
  | nil => exact h
  | cons m ms ih => exact ih _ (noteRaised_keeps _ _ _ h)

theorem foldl_noteRaised_unordered :
    (raised.foldl (fun u m => noteRaised (m &&& req) u) s).arb.unordered = s.arb.unordered := by
  induction raised generalizing s with
  | nil => rfl
  | cons m ms ih => exact (ih _).trans rfl

/-- Noting the requests changes their order and nothing else. -/
theorem noteRequests_unordered : (noteRequests raised req s).arb.unordered = s.arb.unordered := by
  rw [← foldl_noteRaised_unordered req raised s, noteRequests]
  generalize raised.foldl (fun u m => noteRaised (m &&& req) u) s = t
  simp only [noteRaised, ArbUnit.unordered]

theorem noteRequests_onlyChanges : onlyChanges [.arb] s (noteRequests raised req s) :=
  onlyChanges_trans (foldl_onlyChanges (fun u _ => arb_onlyChanges _ u) raised s)
    (onlyChanges_trans (arb_onlyChanges _ _) (arb_onlyChanges _ (noteRaised req _)))

@[simp] theorem noteRequests_fixed : (noteRequests raised req s).arb.fixed = s.arb.fixed :=
  (congrArg ArbUnit.fixed (noteRequests_unordered req raised s) :)

@[simp] theorem noteRequests_ageCount : (noteRequests raised req s).arb.ageCount = s.arb.ageCount :=
  (congrArg ArbUnit.ageCount (noteRequests_unordered req raised s) :)

@[simp] theorem noteRequests_pointers : (noteRequests raised req s).arb.pointers = s.arb.pointers :=
  (congrArg ArbUnit.pointers (noteRequests_unordered req raised s) :)

theorem noteRequests_ageN : (noteRequests raised req s).arb.ageN = s.arb.ageN :=
  (congrArg ArbUnit.ageN (noteRequests_unordered req raised s) :)

theorem noteRequests_cls : (noteRequests raised req s).arb.cls = s.arb.cls :=
  (congrArg ArbUnit.cls (noteRequests_unordered req raised s) :)

@[simp] theorem ageGrant_noteRequests : ageGrant (noteRequests raised req s) = ageGrant s := by
  simp [ageGrant, noteRequests_ageN]

@[simp] theorem inputClass_noteRequests : inputClass i (noteRequests raised req s) = inputClass i s := by
  simp [inputClass, noteRequests_cls]

variable {req i}

/-- An input with a request is placed where the moments before this one left it, else now. -/
theorem noteRequests_waitSince (hi : req.getLsbD i.val = true) : (noteRequests raised req s).arb.waitSince[i]
    = some (waitPlace i (raised.foldl (fun u m => noteRaised (m &&& req) u) s)) := by
  have hnow := noteRaised_waitSince req (raised.foldl (fun u m => noteRaised (m &&& req) u) s) i
  rw [if_pos hi] at hnow
  simpa [noteRequests, hi] using hnow

theorem waitSince_noteRequests (hi : req.getLsbD i.val = true) :
    (noteRequests raised req s).arb.waitSince[i] = some (waitPlace i (noteRequests raised req s)) := by
  rw [waitPlace, noteRequests_waitSince raised s hi, Option.getD_some]

theorem waitPlace_noteRequests (hi : req.getLsbD i.val = true) : waitPlace i (noteRequests raised req s)
    = waitPlace i (raised.foldl (fun u m => noteRaised (m &&& req) u) s) :=
  Option.some_inj.mp ((waitSince_noteRequests raised s hi).symm.trans (noteRequests_waitSince raised s hi))

/-- An input that was waiting keeps its place at a decision. -/
theorem waitPlace_of_waiting {k : Nat} (hi : req.getLsbD i.val = true) (h : s.arb.waitSince[i] = some k) :
    waitPlace i (noteRequests raised req s) = k := by
  rw [waitPlace_noteRequests raised s hi, waitPlace, foldl_noteRaised_keeps _ _ _ _ h, Option.getD_some]

/-- Of two new requests the one raised at the earlier moment stands before the one raised now. -/
theorem waitPlace_lt_of_earlier {j : Fin 16} (hi : req.getLsbD i.val = true) (hj : req.getLsbD j.val = true)
    (hmi : m.getLsbD i.val = true) (hmj : m.getLsbD j.val = false) (hwi : s.arb.waitSince[i] = none)
    (hwj : s.arb.waitSince[j] = none) :
    waitPlace i (noteRequests [m] req s) < waitPlace j (noteRequests [m] req s) := by
  have hearly : waitPlace i (noteRaised (m &&& req) s) = s.arb.decisions := by
    rw [waitPlace, noteRaised_waitSince, if_pos (by simp [hmi, hi]), waitPlace, hwi]
    rfl
  have hlate : waitPlace j (noteRaised (m &&& req) s) = s.arb.decisions + 1 := by
    rw [waitPlace, noteRaised_waitSince, if_neg (by rw [BitVec.getLsbD_and, hmj, Bool.false_and]; exact Bool.false_ne_true), hwj]
    rfl
  rw [waitPlace_noteRequests _ s hi, waitPlace_noteRequests _ s hj]
  simp only [List.foldl_cons, List.foldl_nil, hearly, hlate]
  exact Nat.lt_succ_self _
end

/-! ### The three picks (R435 to R437) -/

/-- How far an input lies below a pointer, counted down with the wrap from 0 to 15; the one directly below lies at 0. -/
def belowPointer (p : BitVec 4) (i : Fin 16) : Nat := (p.toNat + 15 + 16 - i.val) % 16

/-- The pick of class mode: the highest class that takes part, and in it the first below the pointer (R435, R436). -/
structure PickedByClass (l : List (Fin 16)) (i : Fin 16) (s : State) : Prop where
  top : ∀ j ∈ l, inputClass j s ≤ inputClass i s
  first : ∀ j ∈ l, inputClass j s = inputClass i s → ∀ c : Fin 4, c.val = inputClass i s →
    belowPointer s.arb.pointers[c] i ≤ belowPointer s.arb.pointers[c] j

/-- The pick at an age grant: the longest wait, and of equals the higher number (R437). -/
structure WaitedLongest (l : List (Fin 16)) (i : Fin 16) (s : State) : Prop where
  longest : ∀ j ∈ l, waitPlace i s ≤ waitPlace j s
  highest : ∀ j ∈ l, waitPlace j s = waitPlace i s → j ≤ i

theorem inputClass_lt (i : Fin 16) (s : State) : inputClass i s < 4 := fieldOf_lt _ _ 2

section
variable {l : List (Fin 16)} (s : State)

theorem highestInput_spec (hl : l ≠ []) (hsorted : l.Pairwise (· < ·)) :
    ∃ i ∈ l, highestInput l = some i ∧ ∀ j ∈ l, j ≤ i := by
  obtain ⟨i, hi⟩ : ∃ i, l.getLast? = some i := ⟨_, List.getLast?_eq_some_getLast hl⟩
  obtain ⟨before, rfl⟩ := List.getLast?_eq_some_iff.mp hi
  obtain ⟨-, -, hbelow⟩ := List.pairwise_append.mp hsorted
  have hself : i ∈ [i] := List.mem_singleton_self i
  refine ⟨i, List.mem_append_right _ hself, hi, List.forall_mem_append.mpr ⟨fun j hj => ?_, fun j hj => ?_⟩⟩
  · exact Fin.le_of_lt (hbelow j hj i hself)
  · exact List.mem_singleton.mp hj ▸ Fin.le_refl i

/-- Of two neighbours in the list the one that does not wait longest can be left out, the later one staying where they are equal. -/
theorem oldestInput_cons_cons (j a : Fin 16) : oldestInput (j :: a :: l) s
    = if waitPlace a s ≤ waitPlace j s then oldestInput (a :: l) s else oldestInput (j :: l) s :=
  apply_ite (fun m => List.foldl _ m l) _ _ _

/-- The inputs are met in rising order, so one that waits as long as the oldest before it takes its place. -/
theorem oldestInput_cons_spec (j : Fin 16) (hsorted : (j :: l).Pairwise (· < ·)) :
    ∃ i ∈ j :: l, oldestInput (j :: l) s = some i ∧ WaitedLongest (j :: l) i s := by
  induction l generalizing j with
  | nil =>
    refine ⟨j, List.mem_singleton_self j, rfl, fun k hk => ?_, fun k hk _ => ?_⟩
    · exact List.mem_singleton.mp hk ▸ Nat.le_refl _
    · exact List.mem_singleton.mp hk ▸ Fin.le_refl j
  | cons a rest ih =>
    obtain ⟨hj, hsorted⟩ := List.pairwise_cons.mp hsorted
    obtain ⟨hja, hjrest⟩ := List.forall_mem_cons.mp hj
    rw [oldestInput_cons_cons]
    split
    · next hle =>
      obtain ⟨i, hi, hpick, hlongest, hhighest⟩ := ih a hsorted
      have hia : waitPlace i s ≤ waitPlace a s := hlongest a (List.mem_cons_self ..)
      refine ⟨i, List.mem_cons_of_mem j hi, hpick, List.forall_mem_cons.mpr ⟨Nat.le_trans hia hle, hlongest⟩,
        List.forall_mem_cons.mpr ⟨fun htie => ?_, hhighest⟩⟩
      have haj : a ≤ i := hhighest a (List.mem_cons_self ..) (Nat.le_antisymm (htie ▸ hle) hia)
      exact Fin.le_trans (Fin.le_of_lt hja) haj
    · next hgt =>
      obtain ⟨i, hi, hpick, hlongest, hhighest⟩ := ih j (List.pairwise_cons.mpr ⟨hjrest, hsorted.tail⟩)
      obtain ⟨hij, hlongest⟩ := List.forall_mem_cons.mp hlongest
      obtain ⟨hjtie, hhighest⟩ := List.forall_mem_cons.mp hhighest
      have hia : waitPlace i s < waitPlace a s := Nat.lt_of_le_of_lt hij (Nat.not_le.mp hgt)
      refine ⟨i, ?_, hpick, List.forall_mem_cons.mpr ⟨hij, List.forall_mem_cons.mpr ⟨Nat.le_of_lt hia, hlongest⟩⟩,
        List.forall_mem_cons.mpr ⟨hjtie, List.forall_mem_cons.mpr ⟨fun htie => absurd htie (Nat.ne_of_gt hia), hhighest⟩⟩⟩
      obtain rfl | hi := List.mem_cons.mp hi
      · exact List.mem_cons_self ..
      · exact List.mem_cons_of_mem j (List.mem_cons_of_mem a hi)

theorem oldestInput_spec (hl : l ≠ []) (hsorted : l.Pairwise (· < ·)) :
    ∃ i ∈ l, oldestInput l s = some i ∧ WaitedLongest l i s := by
  obtain ⟨j, rest, rfl⟩ := List.exists_cons_of_ne_nil hl
  exact oldestInput_cons_spec s j hsorted

/-- The highest class among some inputs is the class of one of them. -/
theorem topClass_spec (hl : l ≠ []) : ∃ i ∈ l, l.foldl (fun m i => max m (inputClass i s)) 0 = inputClass i s
    ∧ ∀ j ∈ l, inputClass j s ≤ inputClass i s := by
  have hne : l.map (inputClass · s) ≠ [] := fun h => hl (List.map_eq_nil_iff.mp h)
  obtain ⟨top, hmax⟩ := Option.isSome_iff_exists.mp (List.isSome_max?_of_ne_nil hne)
  obtain ⟨hmem, htop⟩ := List.max?_eq_some_iff.mp hmax
  obtain ⟨i, hi, rfl⟩ := List.mem_map.mp hmem
  refine ⟨i, hi, ?_, fun j hj => htop _ (List.mem_map_of_mem hj)⟩
  rw [← List.foldl_map (f := (inputClass · s)) (g := max), List.foldl_max, hmax, Option.getD_some, Nat.zero_max]

/-- The input that lies `n` below a pointer. -/
def downFrom (p : BitVec 4) (n : Nat) : Fin 16 := ⟨(p.toNat + 15 + 16 - n) % 16, Nat.mod_lt _ (by decide)⟩

theorem countDown_eq (p : BitVec 4) : countDown p = (List.range 16).map (downFrom p) := rfl

theorem belowPointer_downFrom (p : BitVec 4) {n : Nat} (h : n < 16) : belowPointer p (downFrom p n) = n := by
  simp only [belowPointer, downFrom]
  omega

@[simp] theorem downFrom_belowPointer (p : BitVec 4) (i : Fin 16) : downFrom p (belowPointer p i) = i := by
  apply Fin.ext
  simp only [belowPointer, downFrom]
  omega

/-- The first input found counting down from a pointer lies nearest below it. -/
theorem find?_countDown {p : BitVec 4} {q : Fin 16 → Bool} {j : Fin 16} (hj : q j = true) :
    ∃ i, (countDown p).find? q = some i ∧ q i = true ∧ ∀ k, q k = true → belowPointer p i ≤ belowPointer p k := by
  have hsome : ∃ n, (List.range 16).find? (q ∘ downFrom p) = some n := by
    rw [← Option.isSome_iff_exists, List.find?_isSome]
    exact ⟨belowPointer p j, List.mem_range.mpr (Nat.mod_lt _ (by decide)), by simp [hj]⟩
  obtain ⟨n, hn⟩ := hsome
  obtain ⟨hq, hlt, hnone⟩ := List.find?_range_eq_some.mp hn
  refine ⟨downFrom p n, by rw [countDown_eq, List.find?_map, hn]; rfl, hq, fun k hk => ?_⟩
  rw [belowPointer_downFrom p (List.mem_range.mp hlt)]
  refine Nat.le_of_not_lt fun hlow => ?_
  have hmissed : q (downFrom p (belowPointer p k)) = false := by simpa only [Function.comp, Bool.not_eq_true'] using hnone _ hlow
  rw [downFrom_belowPointer, hk] at hmissed
  exact Bool.noConfusion hmissed

theorem classPick_spec (hl : l ≠ []) : ∃ i ∈ l, classPick l s = some i ∧ PickedByClass l i s := by
  obtain ⟨j, hj, htop, hmax⟩ := topClass_spec s hl
  have hfound := find?_countDown (p := s.arb.pointers[(⟨inputClass j s % 4, Nat.mod_lt _ (by decide)⟩ : Fin 4)])
    (q := fun i => l.contains i && inputClass i s == inputClass j s) (j := j) (by simp [hj])
  obtain ⟨i, hpick, hi, hfirst⟩ := hfound
  simp only [Bool.and_eq_true, List.contains_iff_mem, beq_iff_eq] at hi hfirst
  obtain ⟨hil, hclass⟩ := hi
  refine ⟨i, hil, by simpa only [classPick, htop] using hpick, fun k hk => hclass ▸ hmax k hk, fun k hk heq c hc => ?_⟩
  have hcc : (⟨inputClass j s % 4, Nat.mod_lt _ (by decide)⟩ : Fin 4) = c :=
    Fin.ext (by rw [hc, hclass]; exact Nat.mod_eq_of_lt (inputClass_lt j s))
  exact hcc ▸ hfirst k ⟨hk, heq.trans hclass⟩

variable {s} in
theorem winner_of_fixed (h : s.arb.fixed = true) : winner l s = highestInput l := by rw [winner, if_pos h]

variable {s} in
theorem winner_of_age (hf : s.arb.fixed = false) (h : ageGrant s = true) : winner l s = oldestInput l s := by
  rw [winner, if_neg (by simp [hf]), if_pos h]

variable {s} in
theorem winner_of_class (hf : s.arb.fixed = false) (h : ageGrant s = false) : winner l s = classPick l s := by
  rw [winner, if_neg (by simp [hf]), if_neg (by simp [h])]

theorem winner_nil : winner [] s = none := by
  cases hf : s.arb.fixed
  · cases ha : ageGrant s
    · rw [winner_of_class hf ha]
      exact List.find?_eq_none.mpr (by simp)
    · rw [winner_of_age hf ha]; rfl
  · rw [winner_of_fixed hf]; rfl

/-- What a winner is in each mode. -/
structure Wins (l : List (Fin 16)) (i : Fin 16) (s : State) : Prop where
  fixed : s.arb.fixed = true → ∀ j ∈ l, j ≤ i
  byClass : s.arb.fixed = false → ageGrant s = false → PickedByClass l i s
  byAge : s.arb.fixed = false → ageGrant s = true → WaitedLongest l i s

theorem winner_spec (hl : l ≠ []) (hsorted : l.Pairwise (· < ·)) : ∃ i ∈ l, winner l s = some i ∧ Wins l i s := by
  cases hf : s.arb.fixed
  · cases ha : ageGrant s
    · obtain ⟨i, hi, hpick, hspec⟩ := classPick_spec s hl
      exact ⟨i, hi, by rw [winner_of_class hf ha, hpick], by simp [hf], fun _ _ => hspec, by simp [ha]⟩
    · obtain ⟨i, hi, hpick, hspec⟩ := oldestInput_spec s hl hsorted
      exact ⟨i, hi, by rw [winner_of_age hf ha, hpick], by simp [hf], by simp [ha], fun _ _ => hspec⟩
  · obtain ⟨i, hi, hpick, hspec⟩ := highestInput_spec hl hsorted
    exact ⟨i, hi, by rw [winner_of_fixed hf, hpick], fun _ => hspec, by simp [hf], by simp [hf]⟩
end

/-! ### A grant (R436, R437) -/

section
variable {i : Fin 16} {s : State}

theorem grantTo_grant : (grantTo i s).arb.grant.toNat = i.val := Nat.mod_eq_of_lt i.isLt

theorem grantTo_of_fixed (h : s.arb.fixed = true) :
    (grantTo i s).arb.pointers = s.arb.pointers ∧ (grantTo i s).arb.ageCount = s.arb.ageCount := by
  simp [grantTo, h]

theorem grantTo_of_age (hf : s.arb.fixed = false) (h : ageGrant s = true) :
    (grantTo i s).arb.pointers = s.arb.pointers ∧ (grantTo i s).arb.ageCount = 0 := by
  simp [grantTo, hf, h]

/-- A class grant moves the pointer of its class to the winner and adds one to the count. -/
theorem grantTo_of_class (hf : s.arb.fixed = false) (h : ageGrant s = false) :
    (∀ c : Fin 4, (grantTo i s).arb.pointers[c] = if c.val = inputClass i s then BitVec.ofNat 4 i.val else s.arb.pointers[c])
    ∧ (grantTo i s).arb.ageCount = s.arb.ageCount + 1 := by
  have hclass : inputClass i s % 4 = inputClass i s := Nat.mod_eq_of_lt (inputClass_lt i s)
  refine ⟨fun c => ?_, by simp [grantTo, hf, h]⟩
  simp [grantTo, hf, h, hclass, Vector.getElem_set, eq_comm (a := c.val)]

/-- A grant leaves the places of the other inputs. -/
theorem grantTo_waitSince_ne {j : Fin 16} (h : j ≠ i) : (grantTo i s).arb.waitSince[j] = s.arb.waitSince[j] := by
  simp [grantTo, Fin.val_ne_of_ne h.symm]
end

/-! ### One decision (R433, R435, R438) -/

/-- The inputs that take part in a decision: with a request, and accepted by their link. -/
def takingPart (req acc : BitVec 16) : List (Fin 16) :=
  (List.finRange 16).filter fun i => req.getLsbD i.val && acc.getLsbD i.val

section
variable (raised : List (BitVec 16)) (req acc : BitVec 16) (s : State)

theorem mem_takingPart {req acc} {i : Fin 16} : i ∈ takingPart req acc ↔ (req.getLsbD i.val && acc.getLsbD i.val) = true := by
  simp [takingPart]

theorem takingPart_sorted : (takingPart req acc).Pairwise (· < ·) := (List.pairwise_lt_finRange 16).filter _

theorem decideArb_none (w : Bool) (h : winner (takingPart req acc) (noteRequests raised req s) = none) :
    decideArb raised req acc w s
      = { noteRequests raised req s with arb := { (noteRequests raised req s).arb with grantValid := false } } := by
  rw [takingPart] at h
  simp only [decideArb, h]

theorem decideArb_withdrawn {i : Fin 16} (h : winner (takingPart req acc) (noteRequests raised req s) = some i) :
    ∃ r d, decideArb raised req acc true s = { noteRequests raised req s with
      arb := { (noteRequests raised req s).arb with grantValid := false, req := r, decisions := d } } := by
  rw [takingPart] at h
  simp only [decideArb, h]
  exact ⟨_, _, rfl⟩

theorem decideArb_granted {i : Fin 16} (h : winner (takingPart req acc) (noteRequests raised req s) = some i) :
    decideArb raised req acc false s = grantTo i (noteRequests raised req s) := by
  rw [takingPart] at h
  simp only [decideArb, h]
  rfl

/-- A decision changes the arbiter only. -/
theorem decideArb_onlyChanges (w : Bool) : onlyChanges [.arb] s (decideArb raised req acc w s) := by
  refine onlyChanges_trans (noteRequests_onlyChanges req raised s) ?_
  cases hwin : winner (takingPart req acc) (noteRequests raised req s) with
  | none =>
    rw [decideArb_none _ _ _ _ w hwin]
    exact arb_onlyChanges _ _
  | some i =>
    cases w with
    | true =>
      obtain ⟨r, d, h⟩ := decideArb_withdrawn _ _ _ _ hwin
      rw [h]
      exact arb_onlyChanges _ _
    | false =>
      rw [decideArb_granted _ _ _ _ hwin]
      exact arb_onlyChanges _ _

theorem decideArb_hostSame (w : Bool) : hostSame s (decideArb raised req acc w s) :=
  hostSame_of_arbOnly (decideArb_onlyChanges raised req acc s w)

/-- A winner that withdraws loses the grant, and neither pointers nor count change (R438). -/
theorem decideArb_withdrawn_spec {i : Fin 16} (h : winner (takingPart req acc) (noteRequests raised req s) = some i) :
    (decideArb raised req acc true s).arb.grantValid = false
    ∧ (decideArb raised req acc true s).arb.pointers = s.arb.pointers
    ∧ (decideArb raised req acc true s).arb.ageCount = s.arb.ageCount := by
  obtain ⟨r, d, hd⟩ := decideArb_withdrawn _ _ _ _ h
  rw [hd]
  simp

/-- With nothing that can take part nothing is granted. -/
theorem decideArb_idle_spec (w : Bool) (h : takingPart req acc = []) :
    (decideArb raised req acc w s).arb.grantValid = false
    ∧ (decideArb raised req acc w s).arb.pointers = s.arb.pointers
    ∧ (decideArb raised req acc w s).arb.ageCount = s.arb.ageCount := by
  rw [decideArb_none _ _ _ _ w (by rw [h, winner_nil])]
  simp

/-- A winner that does not withdraw is granted; the other inputs that request keep their places. -/
theorem decideArb_grant_spec {i : Fin 16} (h : winner (takingPart req acc) (noteRequests raised req s) = some i) :
    (decideArb raised req acc false s).arb.grantValid = true ∧ (decideArb raised req acc false s).arb.grant.toNat = i.val
    ∧ ∀ j, j ≠ i → req.getLsbD j.val = true →
      (decideArb raised req acc false s).arb.waitSince[j] = some (waitPlace j (noteRequests raised req s)) := by
  rw [decideArb_granted _ _ _ _ h]
  exact ⟨rfl, grantTo_grant, fun j hj hreq => (grantTo_waitSince_ne hj).trans (waitSince_noteRequests raised s hreq)⟩

variable {s} in
theorem decideArb_fixed_spec {i : Fin 16} (h : winner (takingPart req acc) (noteRequests raised req s) = some i)
    (hf : s.arb.fixed = true) :
    (decideArb raised req acc false s).arb.pointers = s.arb.pointers
    ∧ (decideArb raised req acc false s).arb.ageCount = s.arb.ageCount := by
  rw [decideArb_granted _ _ _ _ h]
  simpa using grantTo_of_fixed (i := i) ((noteRequests_fixed req raised s).trans hf)

variable {s} in
theorem decideArb_age_spec {i : Fin 16} (h : winner (takingPart req acc) (noteRequests raised req s) = some i)
    (hf : s.arb.fixed = false) (ha : ageGrant s = true) :
    (decideArb raised req acc false s).arb.pointers = s.arb.pointers
    ∧ (decideArb raised req acc false s).arb.ageCount = 0 := by
  rw [decideArb_granted _ _ _ _ h]
  simpa using grantTo_of_age (i := i) ((noteRequests_fixed req raised s).trans hf) ((ageGrant_noteRequests req raised s).trans ha)

variable {s} in
theorem decideArb_class_spec {i : Fin 16} (h : winner (takingPart req acc) (noteRequests raised req s) = some i)
    (hf : s.arb.fixed = false) (ha : ageGrant s = false) :
    (∀ c : Fin 4, (decideArb raised req acc false s).arb.pointers[c]
      = if c.val = inputClass i s then BitVec.ofNat 4 i.val else s.arb.pointers[c])
    ∧ (decideArb raised req acc false s).arb.ageCount = s.arb.ageCount + 1 := by
  rw [decideArb_granted _ _ _ _ h]
  simpa using grantTo_of_class (i := i) ((noteRequests_fixed req raised s).trans hf)
    ((ageGrant_noteRequests req raised s).trans ha)
end

/-! ### Settings (R439) -/

/-- ARB_CFG with its three fields. -/
def cfgWord (burst : Nat) (fixed : Bool) (age : Nat) : Word := word (putBits 9 2 burst + putBit 8 fixed + putBits 0 7 age)

section
variable {burst age : Nat} (fixed : Bool)

theorem cfgWord_toNat : (cfgWord burst fixed age).toNat = burst % 4 * 512 + bit fixed * 256 + age % 128 := by
  cases fixed <;> simp [cfgWord, word, putBits, putBit, bit] <;> omega

theorem cfgWord_burst (h : burst < 4) : fieldOf (cfgWord burst fixed age) 9 2 = burst := by
  rw [fieldOf, cfgWord_toNat, bitsOf]
  cases fixed <;> simp [bit] <;> omega

theorem cfgWord_fixed : flagOf (cfgWord burst fixed age) 8 = fixed := by
  rw [flagOf, cfgWord_toNat, bitOf_eq_iff]
  cases fixed <;> simp [bit] <;> omega

theorem cfgWord_age (h : age < 128) : fieldOf (cfgWord burst fixed age) 0 7 = age := by
  rw [fieldOf, cfgWord_toNat, bitsOf]
  cases fixed <;> simp [bit] <;> omega
end

/-- An arbiter with other settings; its count returns to 0 as it leaves fixed mode. -/
def ArbUnit.configured (burst : Nat) (fixed : Bool) (age : Nat) (cls : Word) (a : ArbUnit) : ArbUnit :=
  { a with burst := BitVec.ofNat 2 burst, fixed := fixed, ageN := BitVec.ofNat 7 age,
           ageCount := if a.fixed && !fixed then 0 else a.ageCount, cls := cls }

section
variable {burst age : Nat} (fixed : Bool) (cls v : Word) (s was : State)

theorem setArb_cfgWord (hb : burst < 4) (ha : age < 128) : setArb (cfgWord burst fixed age) cls s
    = noteArb s { s with arb := s.arb.configured burst fixed age cls } := by
  rw [setArb, cfgWord_burst fixed hb, cfgWord_fixed, cfgWord_age fixed ha]
  rfl

theorem arbCfg_eq : arbCfg s = cfgWord s.arb.burst.toNat s.arb.fixed s.arb.ageN.toNat := rfl

@[simp] theorem noteArb_arb : (noteArb was s).arb = s.arb := by
  rw [noteArb]
  split
  · rfl
  · simp

theorem noteArb_self : noteArb s s = s := by simp [noteArb]

theorem noteArb_frame : onlyChanges eventParts s (noteArb was s) ∧ hostSame s (noteArb was s) := by
  rw [noteArb]
  split
  · exact ⟨onlyChanges_refl _ _, hostSame_refl _⟩
  · exact ⟨raise_onlyChanges .., raise_hostSame _ _ _⟩

/-- A write of ARB_CLASS keeps the settings of ARB_CFG, and the count. -/
theorem writeArb_class : writeArb true v s = noteArb s { s with arb := { s.arb with cls := v } } := by
  rw [writeArb, if_pos rfl, arbCfg_eq, setArb_cfgWord _ _ _ s.arb.burst.isLt s.arb.ageN.isLt]
  simp [ArbUnit.configured]

theorem writeArb_class_same : writeArb true s.arb.cls s = s := by
  rw [writeArb_class]
  exact noteArb_self s

variable {v} in
/-- A write of ARB_CFG without reserved values takes all three fields. -/
theorem writeArb_cfg (h : arbCfgBad v = false) : writeArb false v s
    = noteArb s { s with arb := s.arb.configured (fieldOf v 9 2) (flagOf v 8) (fieldOf v 0 7) s.arb.cls } := by
  simp only [arbCfgBad, Bool.or_eq_false_iff, beq_eq_false_iff_ne, decide_eq_false_iff_not, Nat.not_lt] at h
  obtain ⟨⟨hburst, hlow⟩, hhigh⟩ := h
  rw [← setArb_cfgWord _ _ s (fieldOf_lt v 9 2) (fieldOf_lt v 0 7), writeArb]
  simp [hburst, inRange, hlow, hhigh, cfgWord]
end

/-! ### The write reaches the settings (R435, R439, R635) -/

section
variable {ep : Endpoint} {s : State} (v : Word)

/-- An offset of neither half of a pair, outside the registers that a link owns or something running locks. -/
structure PlainReg (a : Nat) : Prop where
  ctx : ctxAt a = none
  cq : cqAt a = none
  mbx : mbxAt a = none
  msix : isMsix a = false
  lo : writeLo a = false
  hi : writeHi a = false
  page : a < 0x1008 ∨ 0x1018 ≤ a

/-- H1's write of a plain register takes effect at once where no lock is held. -/
theorem hostWrite_plain {off : Offset} {a : Nat} (ha : off.toNat = a) (hp : PlainReg a) (hl : ep.link = .h1) (hl0 : inL0 ep s = true)
    (hact : epActive ep s = true) (hfree : s.rrw.locked = false) :
    hostWrite ep off v s = regWrite ep.link a none v s := by
  subst ha
  rw [hostWrite_of_reaches v ⟨hl0, hact, .inl hl, hp.msix, foreignReg_of_none _ _ hp.ctx hp.cq⟩, hp.lo, hp.hi,
    if_neg (by decide), if_neg (by decide), commitWrite_unlocked none v hfree hp.msix]

theorem arbReg_plain (isClass : Bool) : PlainReg (if isClass then 0x3004 else 0x3000) := by
  cases isClass <;> constructor <;> decide

theorem regWrite_arb (l : Link) (isClass : Bool) :
    regWrite l (if isClass then 0x3004 else 0x3000) none v s = writeArb isClass v s := by
  have hp := arbReg_plain isClass
  rw [regWrite, foreignReg_of_none l s hp.ctx hp.cq, lockedReg_of_none l s hp.page hp.ctx hp.cq hp.mbx, hp.hi]
  cases isClass <;> rfl

/-- H1's write of the arbiter's settings. -/
theorem hostAccess_arb (isClass : Bool) (hl : ep.link = .h1) (hl0 : inL0 ep s = true) (hact : epActive ep s = true)
    (hfree : s.rrw.locked = false) :
    hostAccess ep true (if isClass then 0x3004 else 0x3000) v s = writeArb isClass v s := by
  have hoff : (if isClass then 0x3004 else 0x3000 : Offset).toNat = if isClass then 0x3004 else 0x3000 := by cases isClass <;> rfl
  rw [hostAccess_write v s (by cases isClass <;> decide) (by cases isClass <;> decide) (by cases isClass <;> decide),
    hostWrite_plain v hoff (arbReg_plain isClass) hl hl0 hact hfree, regWrite_arb]
end

/-- A write of ARB_CFG takes its values; beyond them only its event can change anything. -/
theorem writeArb_cfg_spec {v : Word} (s : State) (h : arbCfgBad v = false) :
    (writeArb false v s).arb = s.arb.configured (fieldOf v 9 2) (flagOf v 8) (fieldOf v 0 7) s.arb.cls
    ∧ onlyChanges (.arb :: eventParts) s (writeArb false v s) ∧ hostSame s (writeArb false v s) := by
  rw [writeArb_cfg s h]
  generalize s.arb.configured (fieldOf v 9 2) (flagOf v 8) (fieldOf v 0 7) s.arb.cls = x
  obtain ⟨hframe, hhost⟩ := noteArb_frame { s with arb := x } s
  have harb : onlyChanges [.arb] s { s with arb := x } := arb_onlyChanges x s
  exact ⟨noteArb_arb _ _, onlyChanges_trans (onlyChanges_mono harb (by simp)) (onlyChanges_mono hframe (by simp)),
    hostSame_trans (hostSame_of_arbOnly harb) hhost⟩

/-- Settles O43: a decision notes the requests, then its mode's pick is the winner; a settings write reaches the arbiter's registers. -/
theorem arbiterGrantsFollowClassModeAndAge : Obligations.ArbiterGrantsFollowClassModeAndAge := by
  refine ⟨fun raised req acc w s => ?_, fun ep v s hl hl0 hact hfree => ?_⟩
  · intro part x since
    refine ⟨fun i k hi hk => waitPlace_of_waiting raised s hi hk, fun m i j hraised hi hj hmi hmj hwi hwj => ?_,
      fun hidle => ⟨_, exec_arbiterDecision raised req acc w s, decideArb_idle_spec raised req acc s w ?_⟩,
      fun ⟨k, hk⟩ => ⟨_, exec_arbiterDecision raised req acc w s, decideArb_onlyChanges .., decideArb_hostSame _ _ _ _ _, ?_⟩⟩
    · subst hraised
      exact waitPlace_lt_of_earlier m s hi hj hmi hmj hwi hwj
    · exact List.eq_nil_iff_forall_not_mem.mpr fun i hi => by
        simpa using (mem_takingPart.mp hi).symm.trans (hidle i)
    · obtain ⟨i, hi, hwin, hfixed, hclass, hage⟩ :=
        winner_spec x (List.ne_nil_of_mem (mem_takingPart.mpr hk)) (takingPart_sorted req acc)
      refine ⟨?_, ?_⟩
      · rintro rfl
        exact decideArb_withdrawn_spec raised req acc s hwin
      · rintro rfl
        obtain ⟨hvalid, hgrant, hwaits⟩ := decideArb_grant_spec raised req acc s hwin
        rw [noteRequests_fixed] at hfixed hclass hage
        rw [ageGrant_noteRequests] at hclass hage
        refine ⟨hvalid, i, mem_takingPart.mp hi, hgrant, fun hf => ⟨fun j hj => hfixed hf j (mem_takingPart.mpr hj),
          decideArb_fixed_spec raised req acc hwin hf⟩, fun hf ha => ?_, fun hf ha => ?_, hwaits⟩
        · obtain ⟨htop, hfirst⟩ := hclass hf ha
          simp only [x, inputClass_noteRequests, noteRequests_pointers] at htop hfirst
          exact ⟨fun j hj => htop j (mem_takingPart.mpr hj), fun j hj => hfirst j (mem_takingPart.mpr hj),
            decideArb_class_spec raised req acc hwin hf ha⟩
        · obtain ⟨hlongest, hhighest⟩ := hage hf ha
          exact ⟨fun j hj => hlongest j (mem_takingPart.mpr hj), fun j hj => hhighest j (mem_takingPart.mpr hj),
            decideArb_age_spec raised req acc hwin hf ha⟩
  · have hexec (isClass : Bool) (u : Word) : exec (.arbSettingsWrite ep isClass u) s = .next (writeArb isClass u s) := by
      rw [exec_arbSettingsWrite, hostAccess_arb u isClass hl hl0 hact hfree]
    refine ⟨fun hgood => ⟨_, hexec false v, ?_⟩, ?_, _, hexec true v, ?_⟩
    · obtain ⟨harb, hframe, hhost⟩ := writeArb_cfg_spec s hgood
      rw [harb]
      exact ⟨Nat.mod_eq_of_lt (fieldOf_lt v 0 7), rfl, Nat.mod_eq_of_lt (fieldOf_lt v 9 2), rfl, rfl, rfl, hframe, hhost⟩
    · rintro rfl
      rw [hexec, writeArb_class_same]
    · rw [writeArb_class, noteArb_arb]
      exact ⟨rfl, rfl⟩

end Sys2Proof.Machine
end
